-- ==== Sys2Proof/Word.lean ====
section
/-! DEFINITION. The word types of the SV1280 model: the widths that the spec's tables use (R10, R42, Table 3.5). -/

namespace Sys2Proof

abbrev Byte := BitVec 8
abbrev U16 := BitVec 16
abbrev U32 := BitVec 32
abbrev U64 := BitVec 64
/-- A Fix number, TIME_NS[31:10] (R10). -/
abbrev FixNo := BitVec 22
abbrev Bytes := List Byte

end Sys2Proof
end

