-- ==== Sys2Proof/Syntax.lean ====
section
/-! DEFINITION. The commands and events of the SV1280: one constructor for each row of the operations table.
A row that is a ring or in-band command carries its command packet (Table 3.5); a row that is an event carries what
the outside presents with it. -/

namespace Sys2Proof

/-- Who sent a command packet (Table 2.1, ranks 3 and 4): a host ring, or an in-band envelope with its key index, the
sequence number, the port on which it arrived and the address to which the response goes (R84, R85). `priv` is the PRIV that
step 4 of R84 has set, 1 or 2; 0 before that step. -/
inductive CmdSrc where
  | ring (n : Fin 4)
  | inband (key : Fin 16) (seq : U64) (port : Fin 128) (mac : BitVec 48) (priv : Fin 3)
deriving DecidableEq, Repr

/-- A command packet (Table 3.5) without its opcode, with the host-to-device payload that goes with it.
`inl` is the 32 bytes at offsets 16 to 47, little-endian. `payload` is `none` where the payload cannot be read (R72). -/
structure CmdPkt where
  src : CmdSrc
  flags : Byte
  tag : U32
  target : U32
  paramLen : U32
  inl : BitVec 256
  payloadAddr : U64
  rsv : U64
  payload : Option Bytes
deriving DecidableEq, Repr

/-- One 64-byte ring entry as fetched, with the payload that the device read for it (none: the read failed). -/
structure RawCmd where
  entry : Bytes
  payload : Option Bytes
deriving DecidableEq, Repr

/-- What the PCS of a port reports with the tail of a frame, of the codewords since the last report: corrected, not correctable,
and the symbols corrected (R98, Table 4.4). -/
structure PcsReport where
  corrected : U32
  uncorrectable : U32
  symbols : U32
deriving DecidableEq, Repr

/-- What ends a fetch with an error (R68). -/
inductive FetchError where
  | completionTimeout
  | unsupportedRequest
  | completerAbort
  | poisoned
deriving DecidableEq, Repr

/-- How a command fetch ends (R68, R72). -/
inductive FetchResult where
  | failed (why : FetchError)
  | entries (cmds : List RawCmd)
deriving DecidableEq, Repr

/-- What the board and the host present at a Fix boundary: the junction sensor (R410), the six stack temperatures
(R318), the head words read from host memory for rings 0 to 6 (R268: capture rings 0 to 4, billing, Monarch), the
checker halves whose test failed as group × 2 + half (R378), whether the test reaction was applied (R387), and the
pseudo-channels whose retraining failed at this boundary (R319), and the nominal times of the PTP messages that PTP ports
in UP expect to receive or must send next (Table 17.3), as TIME_NS. -/
structure BoundaryEnv where
  junction : BitVec 8
  hbmTemp : List (BitVec 8)
  heads : List (Option U32)
  checkerBad : List (Fin 32)
  reactionOk : Bool
  trainBad : List (Fin 192)
  ptpDue : List U32
  /-- Performance counters found with bad parity (R438). -/
  perfBad : List (BitVec 8) := []
deriving DecidableEq, Repr

/-- A fault message (Table 16.3) as a block sends it to Lodestar. -/
structure FaultMsg where
  source : Byte
  kind : Byte
  cls : Fin 4
  addr : BitVec 40
  /-- Ports and endpoints of the message's scope (Table 16.8) that its address does not name. -/
  ports : List Nat
  endpoints : List Nat
  injected : Bool
deriving DecidableEq, Repr

/-- One request of a cycle at the buffer pool manager (R295, R298): the port, the owner, the medium, the size. -/
structure PoolReq where
  port : Fin 46
  owner : BitVec 12
  hbm : Bool
  size : Nat
deriving DecidableEq, Repr

/-- Kinds of HBM request (R310 to R316). An ATOM carries its operation: 0 ADD, 1 BSET, 2 BCLR (R203). -/
inductive HbmKind where
  | read
  | pairedRead
  | write
  | pairedWrite
  | release
  | atom (op : Fin 3)
deriving DecidableEq, Repr

/-- A request at an arbiter (R322): requester ID, kind, region, byte offset, length, data. -/
structure HbmReq where
  id : BitVec 12
  kind : HbmKind
  region : Fin 5
  offset : Nat
  len : Nat
  data : Bytes
deriving DecidableEq, Repr

/-- What Binnacle's PTP engine and servo make of a message (R106, R109): whether a master is selected and which, the
offset from it in ns (two's complement) where a Sync interval ends with one, the mean path delay, the master's UTC data,
and the addend that the servo sets (R103). -/
structure ServoIn where
  selected : Bool
  masterId : U64
  offset : Option U64
  pathDelay : U32
  utcOffset : U16
  utcValid : Bool
  leap61 : Bool
  leap59 : Bool
  addend : U64
deriving DecidableEq, Repr

/-- The values of a HELLO frame (Table 15.2), with the sender's roles and whether the sender's own checks have passed.
The spec gives these values and not their places in the body. -/
structure RhHello where
  pairId : U16
  order : Byte
  digest : Bytes
  gib : List Byte
  half : Bool
  pref : BitVec 2
  uid : BitVec 128
  roles : BitVec 2
  ok : Bool
deriving DecidableEq, Repr

/-- The values of a HEARTBEAT frame: roles, pair state and power state by their codes, MER_SYNC, CLAIM_EPOCH of both
homes, and whether the receiver's sweep has been applied (R361, R365). -/
structure RhBeat where
  roles : BitVec 2
  state : BitVec 3
  power : BitVec 2
  sync : Byte
  epochs : List U32
  sweepDone : Bool
deriving DecidableEq, Repr


/-- One command or event of the block: one constructor for each row of the operations table, in its order. -/
inductive Instr where
  /-- FIX_BOUNDARY (R40): At each Fix boundary the device latches its samples, switches to the apply set, refills credits and shapers, and does the rest of the boundary work of Table 2.2. -/
  | fixBoundary (env : BoundaryEnv)
  /-- SAMPLE_CLOSE (R37): When TIME_NS[9:0] reaches 896, the Fix sampler closes the input set for the next boundary, ends expiring leases and resolves the set into an apply set. -/
  | sampleClose
  /-- LEASE_EXPIRED (R57): A lease reaches its expiry boundary: its staged entries are discarded and a Class 3 LEASE_EXPIRED message is raised. -/
  | leaseExpired
  /-- MULTI_FIX_TIMEOUT (R80): A multi-Fix command reaches the L-th boundary after its first one and ends with TIMEOUT. -/
  | multiFixTimeout
  /-- GEN_DRAIN_STUCK (R150): The old-generation count is still nonzero 65,536 boundaries after a flip, and GEN_DRAIN_STUCK is raised. -/
  | genDrainStuck
  /-- QUIET_PERIOD_END (R389): A fault state ends QUIET_FIX after its last message, or becomes HELD when the recovery limit is reached. -/
  | quietPeriodEnd (src : Fin 23) (cls : Fin 4)
  /-- TENANT_DRAIN_END (R377): At c + 1,048,576 the drain of a cleared tenant mask bit ends. -/
  | tenantDrainEnd (tenant : BitVec 24)
  /-- SYS_INFO (R478): Writes the 64-byte identification and status payload. -/
  | sysInfo (p : CmdPkt)
  /-- CFG_STAGE (R50): Stages one or more field entries for the caller, all or none. -/
  | cfgStage (p : CmdPkt)
  /-- CFG_COMMIT (R52): Applies all of the owner's staged entries of a group at one boundary, or refuses them all. -/
  | cfgCommit (p : CmdPkt)
  /-- CFG_ABORT (R474): Discards the owner's staged entries of a group. -/
  | cfgAbort (p : CmdPkt)
  /-- CFG_READ (R47): Returns the active or staged copy of one object. -/
  | cfgRead (p : CmdPkt)
  /-- LEASE_TAKE (R54): Gives the caller sole write access to an object group for DURATION Fix. -/
  | leaseTake (p : CmdPkt)
  /-- LEASE_RELEASE (R55): Ends the caller's lease on a group and discards its uncommitted entries. -/
  | leaseRelease (p : CmdPkt)
  /-- AP_JOURNAL_READ (R58): Copies Autopilot journal entries from START, oldest first. -/
  | apJournalRead (p : CmdPkt)
  /-- RING_TENANT_SET (R78): Replaces ring 1's tenant set and ends ring-1 leases outside it. -/
  | ringTenantSet (p : CmdPkt)
  /-- INBAND_KEY_SET (R83): Sets or revokes an in-band key with its authority and tenants, and resets its sequence mark. -/
  | inbandKeySet (p : CmdPkt)
  /-- INBAND_CONFIG (R82): Sets the in-band enable, EtherType, MAC, VLAN and accepting ports. -/
  | inbandConfig (p : CmdPkt)
  /-- PORT_READ (R101): Copies the state and counters of consecutive port numbers. -/
  | portRead (p : CmdPkt)
  /-- TIMED_ARM (R118): Arms a timed-action slot with a pin, SET, COMMIT or ROLE action at a target time. -/
  | timedArm (p : CmdPkt)
  /-- TIMED_CANCEL (R121): Removes an armed timed action. -/
  | timedCancel (p : CmdPkt)
  /-- TIMED_READ (R122): Writes the state and last status of all 64 slots. -/
  | timedRead (p : CmdPkt)
  /-- TIME_CAP_READ (R116): Copies capture FIFO entries, removing them except from ring 2. -/
  | timeCapRead (p : CmdPkt)
  /-- TIME_STATUS (R126): Writes the synchronisation state, UTC offset, offset from master, path delay and master identity. -/
  | timeStatus (p : CmdPkt)
  /-- TIME_SET (R127): Sets time of day, UTC offset and leap flags while PTP is disabled. -/
  | timeSet (p : CmdPkt)
  /-- PARSE_NODE_WRITE (R155): Writes parse-graph node records into the inactive generation. -/
  | parseNodeWrite (p : CmdPkt)
  /-- PARSE_NODE_READ (R155): Returns the 64 node records of one pipeline and generation. -/
  | parseNodeRead (p : CmdPkt)
  /-- RULESET_SWAP (R148): Flips ACTIVE_GEN for all pipelines and stays pending until the old generation drains. -/
  | rulesetSwap (p : CmdPkt)
  /-- RULESET_STATUS (R155): Returns ACTIVE_GEN, the pending flag, the old-generation count and the Fix of the last flip. -/
  | rulesetStatus (p : CmdPkt)
  /-- CLS_ENTRY_WRITE (R147): Writes classifier entries or generation masks, all or none. -/
  | clsEntryWrite (p : CmdPkt)
  /-- CLS_ENTRY_READ (R155): Returns classifier entries of a stage. -/
  | clsEntryRead (p : CmdPkt)
  /-- PM_PATTERN_WRITE (R155): Writes or deletes patterns of the inactive pattern bank. -/
  | pmPatternWrite (p : CmdPkt)
  /-- PM_BUILD (R156): Compiles the inactive pattern bank as a multi-Fix command. -/
  | pmBuild (p : CmdPkt)
  /-- PM_COPY (R156): Copies the active pattern bank and automaton into the inactive bank. -/
  | pmCopy (p : CmdPkt)
  /-- PIPE_STATS_READ (R155): Returns the ten drop and scan counters of a pipeline. -/
  | pipeStatsRead (p : CmdPkt)
  /-- FLOW_INSERT (R189): Inserts a flow record from a flow spec. -/
  | flowInsert (p : CmdPkt)
  /-- FLOW_DELETE (R189): Turns a live record into a tombstone. -/
  | flowDelete (p : CmdPkt)
  /-- FLOW_READ (R190): Returns bucket or stash contents with chart, cache and lock status. -/
  | flowRead (p : CmdPkt)
  /-- FLOW_MODIFY (R189): Rewrites selected fields of a record, optionally comparing generation. -/
  | flowModify (p : CmdPkt)
  /-- FLOW_PURGE_TENANT (R191): Deletes a tenant's live records bucket by bucket as a multi-Fix command. -/
  | flowPurgeTenant (p : CmdPkt)
  /-- FLOW_STATS_READ (R192): Returns 16 counters per slice. -/
  | flowStatsRead (p : CmdPkt)
  /-- FLOW_EVENT_READ (R192): Copies flow events of a slice, removing them except from ring 2. -/
  | flowEventRead (p : CmdPkt)
  /-- FLOW_FIND (R189): Returns the handle of the record with a key. -/
  | flowFind (p : CmdPkt)
  /-- SKIP_STATUS_READ (R224): Returns the status entries of a range of Skippers. -/
  | skipStatusRead (p : CmdPkt)
  /-- SKIP_STATS_READ (R224): Returns 16 Skipper counters. -/
  | skipStatsRead (p : CmdPkt)
  /-- SKIP_RUN (R223): Dispatches a routine on an idle engine as a RUN and completes after its commit. -/
  | skipRun (p : CmdPkt)
  /-- SKIP_RESET (R223): Resets the engines of a mask and loses their running routines. -/
  | skipReset (p : CmdPkt)
  /-- SKIP_TELEM_READ (R224): Copies telemetry records, removing them except from ring 2. -/
  | skipTelemRead (p : CmdPkt)
  /-- LB_READ (R218): Returns bucket assignments and pick counts of one load-balancing pool. -/
  | lbRead (p : CmdPkt)
  /-- UCODE_LOAD (R238): Loads clusters of a mask from the running or accepted image, one cluster per step. -/
  | ucodeLoad (p : CmdPkt)
  /-- UCODE_INFO (R238): Returns the bundle and state of every cluster. -/
  | ucodeInfo (p : CmdPkt)
  /-- UCODE_READ (R237): Returns words of a cluster store. -/
  | ucodeRead (p : CmdPkt)
  /-- SC_STATUS_READ (R270): Returns shared-buffer status. -/
  | scStatusRead (p : CmdPkt)
  /-- SC_STATS_READ (R270): Returns switch-core counters per pipeline and device. -/
  | scStatsRead (p : CmdPkt)
  /-- SC_PORT_STATS_READ (R270): Returns eight drop counters per port. -/
  | scPortStatsRead (p : CmdPkt)
  /-- CAPTURE_RING_SET (R267): Configures, enables or disables a Logline or Sounding host ring. -/
  | captureRingSet (p : CmdPkt)
  /-- TM_SAMPLE_READ (R290): Returns queue samples. -/
  | tmSampleRead (p : CmdPkt)
  /-- TM_QSTATS_READ (R290): Returns per-queue frame and octet counters. -/
  | tmQstatsRead (p : CmdPkt)
  /-- TM_POL_READ (R290): Returns policer tokens and drop counters per endpoint. -/
  | tmPolRead (p : CmdPkt)
  /-- TM_STATS_READ (R290): Returns device traffic-manager counters. -/
  | tmStatsRead (p : CmdPkt)
  /-- POOL_STATS_READ (R304): Returns per-pool buffer counts and counters. -/
  | poolStatsRead (p : CmdPkt)
  /-- POOL_ACCT_READ (R304): Returns per-account use, high-water and NOBUF counts. -/
  | poolAcctRead (p : CmdPkt)
  /-- POOL_ALLOC (R304): Allocates an HBM buffer to the host or a slice owner under R297. -/
  | poolAlloc (p : CmdPkt)
  /-- POOL_FREE (R301): Frees a host-owned buffer on the host's behalf. -/
  | poolFree (p : CmdPkt)
  /-- POOL_OWNER_READ (R304): Returns the owner and allocated bit of a buffer. -/
  | poolOwnerRead (p : CmdPkt)
  /-- HBM_STATUS_READ (R330): Returns per-stack pseudo-channel states and temperature. -/
  | hbmStatusRead (p : CmdPkt)
  /-- HBM_STATS_READ (R330): Returns 16 counters per stack. -/
  | hbmStatsRead (p : CmdPkt)
  /-- ARB_STATS_READ (R330): Returns per-class arbiter counters. -/
  | arbStatsRead (p : CmdPkt)
  /-- HBM_REGION_INFO (R330): Returns base, span and grain of each HBM region. -/
  | hbmRegionInfo (p : CmdPkt)
  /-- HBM_RETRAIN (R330): Retrains one pseudo-channel during the next Fix. -/
  | hbmRetrain (p : CmdPkt)
  /-- METER_STATS_READ (R343): Returns metering counters. -/
  | meterStatsRead (p : CmdPkt)
  /-- METER_CLOSE_INFO (R343): Returns the header, head and delivery state of a closed minute. -/
  | meterCloseInfo (p : CmdPkt)
  /-- BILLING_SIGN (R344): Signs a minute's chain head and nonce with the identity key. -/
  | billingSign (p : CmdPkt)
  /-- BILL_RING_SET (R340): Configures, enables or disables the billing ring. -/
  | billRingSet (p : CmdPkt)
  /-- BILL_BLOCK_READ (R343): Copies records of a staged block. -/
  | billBlockRead (p : CmdPkt)
  /-- PAIR_STATUS_READ (R368): Returns pair state, roles, sequence numbers and lag, clearing the greatest lag except from ring 2. -/
  | pairStatusRead (p : CmdPkt)
  /-- PAIR_ROLE (R368): Sets home roles and sends claims for homes made active. -/
  | pairRole (p : CmdPkt)
  /-- PAIR_STATS_READ (R368): Returns 16 pair counters. -/
  | pairStatsRead (p : CmdPkt)
  /-- PAIR_RESYNC (R368): Puts a paired SV1280 into RESYNC. -/
  | pairResync (p : CmdPkt)
  /-- PAIR_HEAD_READ (R368): Returns the peer chain heads held, newest first. -/
  | pairHeadRead (p : CmdPkt)
  /-- FAULT_LOG_READ (R393): Copies fault records from the on-die or Logbook ring. -/
  | faultLogRead (p : CmdPkt)
  /-- FAULT_RELEASE (R391): Ends an ACTIVE or HELD fault state and clears its history. -/
  | faultRelease (p : CmdPkt)
  /-- FAULT_STATUS_READ (R393): Returns latches, pins and per-source state. -/
  | faultStatusRead (p : CmdPkt)
  /-- FAULT_INJECT_UNLOCK (R394): Returns a nonce or verifies a factory-test signature to enter factory test mode. -/
  | faultInjectUnlock (p : CmdPkt)
  /-- FAULT_INJECT (R395): Presents a fault message or flips bits of a stored word. -/
  | faultInject (p : CmdPkt)
  /-- ISO_TENANT_READ (R393): Returns a tenant's masks and drain state. -/
  | isoTenantRead (p : CmdPkt)
  /-- POWER_STATUS_READ (R412): Returns power state, next event, D and domain masks. -/
  | powerStatusRead (p : CmdPkt)
  /-- POWER_POLICY (R412): Sets MAX_STATE, margins, kept SerDes and wake ports. -/
  | powerPolicy (p : CmdPkt)
  /-- ATTEST (R429): Signs an attestation report over the nonce and running state. -/
  | attest (p : CmdPkt)
  /-- IMAGE_INFO (R430): Returns running and staged image information. -/
  | imageInfo (p : CmdPkt)
  /-- IMAGE_STAGE (R431): Writes image bytes into the HBM staging area. -/
  | imageStage (p : CmdPkt)
  /-- IMAGE_ACCEPT (R431): Runs the image checks on the staged image and keeps it as accepted. -/
  | imageAccept (p : CmdPkt)
  /-- IMAGE_FLASH (R431): Writes the accepted image to the non-booted flash slot and verifies it. -/
  | imageFlash (p : CmdPkt)
  /-- CHIP_RESET (R416): Completes OK and then presents a rank-1 chip reset order. -/
  | chipReset (p : CmdPkt)
  /-- IMAGE_FUSE (R432): Blows rollback fuses up to the running epoch and revokes signer slots. -/
  | imageFuse (p : CmdPkt)
  /-- CERT_READ (R428): Returns the device and CA certificates. -/
  | certRead (p : CmdPkt)
  /-- PERF_READ (R437): Returns latched counter values, optionally clearing them. -/
  | perfRead (p : CmdPkt)
  /-- MON_RING_SET (R442): Configures, enables or disables the Monarch host ring. -/
  | monRingSet (p : CmdPkt)
  /-- MON_STATS_READ (R444): Returns Monarch counters. -/
  | monStatsRead (p : CmdPkt)
  /-- CMD_DOORBELL (R64): A write of DB_TAIL to CMD_DBn sets the ring tail, or is ignored and counted if out of range. -/
  | cmdDoorbell (ring : Fin 4) (value : U32)
  /-- CQ_HEAD_WRITE (R64): A write to CMD_CQn_HEAD frees completion entries, or is ignored and counted if out of range. -/
  | cqHeadWrite (ring : Fin 4) (value : U32)
  /-- RING_ENABLE (R63): Setting ENABLE on an idle ring resets its indices and starts it, or halts it for a bad size. -/
  | ringEnable (ring : Fin 4)
  /-- RING_DISABLE (R66): Clearing ENABLE puts the ring into draining until its fetched commands complete. -/
  | ringDisable (ring : Fin 4)
  /-- DBERR_READ (R6): A read of CMD_RINGn_DBERR returns and clears the count. -/
  | dberrRead (ring : Fin 4)
  /-- CMD_FETCH (R67): Binnacle issues a DMA read of up to 8 command entries when a ring has commands and completion room. -/
  | cmdFetch
  /-- CMD_FETCH_DONE (R72): Fetched commands are checked in order and either refused at once or queued for their boundary. -/
  | cmdFetchDone (ring : Fin 4) (res : FetchResult)
  /-- FUNCTION_LEVEL_RESET (R86): A function-level reset returns the host interface and rings to reset and stops DMA. -/
  | functionLevelReset
  /-- PCIE_LINK_RESET (R87): PERST_N, hot reset, link down or link disable acts as an FLR and resets the link. -/
  | pcieLinkReset (kind : Fin 4)
  /-- PERST_N_RELEASE (R465): Release of PERST_N starts link training and the configuration-response interval. -/
  | perstNRelease
  /-- REGISTER_WRITE (R62): A write to a direct register without behaviour of its own sets the field, or is ignored. -/
  | registerWrite (bar2 : Bool) (off : BitVec 26) (wide : Bool) (full : Bool) (data : U64)
  /-- FAULT_HEAD_WRITE (R449): A write to LOD_FAULT_HEAD consumes fault records, or is refused and counted. -/
  | faultHeadWrite (value : U32)
  /-- MAC_STICKY_CLEAR (R454): A W1C write to MAC_STICKY clears sticky port bits. -/
  | macStickyClear (lane : Fin 128) (value : U32)
  /-- STEP_COUNT_READ (R450): A read of MER_STEP_COUNT returns and clears the step count. -/
  | stepCountRead
  /-- WRAP_TAI_LO_READ (R450): A 4-byte read of MER_WRAP_TAI_LO latches the high anchor word. -/
  | wrapTaiLoRead
  /-- PERF_VAL_LO_READ (R438): A 4-byte read of a counter's low word latches its high word. -/
  | perfValLoRead (counter : BitVec 8)
  /-- BOOT_GO (R422): Setting GO starts a push of the image at GLB_BOOT_ADDR of GLB_BOOT_LEN bytes. -/
  | bootGo
  /-- POWER_ON (R463): VDD_AON comes up and the always-on domain starts as at power-on. -/
  | powerOn
  /-- VDD_AON_LOSS (R463): VDD_AON falls below 0.65 V, clearing the GRAVE and FACTORY latches and the recovery history. -/
  | vddAonLoss
  /-- SYS_RST_ASSERT (R415): SYS_RST_N is asserted and the device enters chip reset. -/
  | sysRstAssert
  /-- SYS_RST_RELEASE (R417): SYS_RST_N is released, the straps are sampled and start-up begins with the ROM tests. -/
  | sysRstRelease (bootSrc : BitVec 2) (ftest : Bool) (pairPresent : Bool)
  /-- BOOT_ROM_TEST_DONE (R417): The ROM tests of OTP, the identity key and the random source end, and image reading begins or the device halts. -/
  | bootRomTestDone (otpBad : Option (BitVec 12)) (keyOk : Bool) (rngBad : Option (BitVec 4))
  /-- IMAGE_HEADERS_READ (R421): The flash slot headers are read and checked, and the slot to try first is chosen. -/
  | imageHeadersRead (a : Option Bytes) (b : Option Bytes)
  /-- IMAGE_BODY_READ_DONE (R423): The last body byte arrives, and the image is accepted or rejected. -/
  | imageBodyReadDone (body : Option Bytes)
  /-- BINNACLE_STARTED (R417): Binnacle has started from the firmware section and HBM start-up begins. -/
  | binnacleStarted
  /-- STARTUP_HBM_DONE (R417): Training, flow-table zeroing, seeding and AGE_NOW setting end, and microcode loading begins. -/
  | startupHbmDone (dead : List (Fin 192))
  /-- STARTUP_UCODE_DONE (R240): Every bundle has been loaded and self-tested. -/
  | startupUcodeDone
  /-- BINNACLE_READY (R59): Binnacle reports ready at a boundary, and the sampler accepts inputs from the next boundary. -/
  | binnacleReady
  /-- BINNACLE_RESTART_DONE (R385): A block-reset Binnacle finishes restarting from the running image. -/
  | binnacleRestartDone
  /-- FRAME_RECEIVE_START (R243): The ingress MAC timestamps a frame and writes its cells to staging, or drops it for overrun or full staging. -/
  | frameReceiveStart (port : Fin 128) (t16 : BitVec 14) (frame : Bytes) (fifoFull : Bool)
  /-- FRAME_CELL_ARRIVE (R245): A later cell of a frame arrives and is charged to staging, the allowance or a continuation grant. -/
  | frameCellArrive (port : Fin 128)
  /-- FRAME_RECEIVE_END (R98): A frame's tail arrives; runt, oversize and FCS checks decide its counters and eligibility. -/
  | frameReceiveEnd (port : Fin 128) (pcs : PcsReport)
  /-- PARSE_START (R129): With 2,048 bytes or the whole frame received, the first pass starts: generation fixed, parse and stages 1 to 6. -/
  | parseStart (pk : Nat) (bad : Option (Fin 12)) (laneFree : Bool)
  /-- RECIRC_PASS_START (R144): A packet is taken from the recirculation port ahead of new ingress and starts its next pass. -/
  | recircPassStart (pipe : Fin 4) (bad : Option (Fin 12)) (laneFree : Bool)
  /-- FLOW_LOOKUP (R168): A flow slice serves a lookup: it answers from stash or cache, chains on the guard, or reads the chosen bucket. -/
  | flowLookup (pk : Nat) (lane : Bool)
  /-- FLOW_BUCKET_RETURN (R171): A bucket read returns; guard-chained packets are handled in order, with one paired write or release. -/
  | flowBucketReturn (pk : Nat) (bad : BitVec 2) (lane : Bool)
  /-- LOOKUP_ANSWER (R167): The slice's answer reaches the pipeline, its action snapshot is applied, and stages 7 to 12 run. -/
  | lookupAnswer (pk : Nat) (bad : Option (Fin 12))
  /-- DECIDE_REENTER (R18): Held packets of a completed or failed decision re-enter at stage 7. -/
  | decideReenter (pk : Nat) (bad : Option (Fin 12))
  /-- STAGE12_EXIT (R142): A packet ends a pass: it is dropped, recirculated or passed to policing and admission. -/
  | stage12Exit (pk : Nat) (ns : BitVec 10)
  /-- MC_REPLICATE (R259): The replicator makes one copy per member of a multicast group, with pruning. -/
  | mcReplicate (pipe : Fin 4)
  /-- EGRESS_SELECT (R278): A port's scheduler selects the next copy by strict, committed and excess tiers. -/
  | egressSelect (port : Fin 128) (t16 : BitVec 14) (halfBad : Bool)
  /-- EGRESS_CELL_SEND (R256): Before each cell is sent its trailer is checked; a failure or an underrun ends the copy. -/
  | egressCellSend (port : Fin 128) (cell : BitVec 19) (trailerBad : Bool) (halfBad : Bool)
  /-- COPY_TX_DONE (R281): A copy's last byte leaves; the copy is charged, its cells are released and it is counted and metered. -/
  | copyTxDone (port : Fin 128) (ns : BitVec 10)
  /-- PFC_FRAME_SEND (R250): The egress MAC sends a PFC or PAUSE frame for an XOFF transition. -/
  | pfcFrameSend (port : Fin 128)
  /-- PAUSE_REFRESH (R250): A PAUSE or PFC frame is sent again after PAUSE_REFRESH Fix of XOFF. -/
  | pauseRefresh (port : Fin 128)
  /-- PAUSE_FRAME_RECEIVED (R99): A received PAUSE or PFC frame pauses priorities at once and is consumed. -/
  | pauseFrameReceived (port : Fin 128) (ns : BitVec 10) (pfc : Bool) (vec : Byte) (times : List U16)
  /-- PAUSE_TIMER_EXPIRE (R99): A priority's pause time runs out and it may send again. -/
  | pauseTimerExpire (port : Fin 128) (prio : Fin 8) (ns : BitVec 10)
  /-- FLUSH_RELEASE (R257): A flushing port's unstarted copies are released at up to 4 cells per cycle per pipeline. -/
  | flushRelease (port : Fin 128) (cells : BitVec 13)
  /-- FLUSH_STUCK (R258): A flush not complete after 64 boundaries raises FLUSH_STUCK. -/
  | flushStuck (port : Fin 128)
  /-- LINK_LOSS (R97): A port in UP detects a loss, enters DOWN_PEND, discards egress and sends Remote Fault. -/
  | linkLoss (port : Fin 128) (ns : BitVec 10) (kind : Fin 3)
  /-- DOWN_HOLD_EXPIRE (R96): A loss has persisted for DOWN_HOLD and the port leaves UP at the next boundary. -/
  | downHoldExpire (port : Fin 128) (ns : BitVec 10)
  /-- UP_HOLD_EXPIRE (R96): Alignment has been stable for UP_HOLD and the port enters UP at the boundary. -/
  | upHoldExpire (port : Fin 128) (ns : BitVec 10)
  /-- NEGOTIATE_DONE (R92): Clause 73 negotiation completes and the port moves to TRAIN or ALIGN. -/
  | negotiateDone (port : Fin 128)
  /-- TRAIN_DONE (R92): Link training completes and the port enters ALIGN. -/
  | trainDone (port : Fin 128)
  /-- TRAIN_FAIL (R92): Training fails or times out and the port restarts from its first enabled step. -/
  | trainFail (port : Fin 128)
  /-- ALIGN_LOST (R96): Alignment is lost in ALIGN before UP_HOLD and the port restarts. -/
  | alignLost (port : Fin 128) (ns : BitVec 10) (kind : Fin 3)
  /-- PTP_MESSAGE_RECEIVED (R107): A PTP message is taken to Binnacle, or in TC mode has its residence time added. -/
  | ptpMessageReceived (port : Fin 128) (pk : Nat) (servo : Option ServoIn)
  /-- PTP_MESSAGE_SEND (R107): Binnacle sends a PTP message through the port's highest strict queue. -/
  | ptpMessageSend (port : Fin 128) (dst : BitVec 48) (hdr : Bytes) (msg : Bytes)
  /-- FOLLOW_UP_SEND (R108): In two-step operation Binnacle sends a Follow_Up within 1 ms of the Sync. -/
  | followUpSend (port : Fin 128) (dst : BitVec 48) (hdr : Bytes) (msg : Bytes)
  /-- SYNC_TIMEOUT (R111): An announce timeout or four missing Syncs moves LOCKED to HOLDOVER and raises SYNC_LOST. -/
  | syncTimeout
  /-- HOLDOVER_LIMIT_EXPIRE (R111): HOLDOVER_LIMIT elapses and the clock goes to FREERUN with HOLDOVER_END. -/
  | holdoverLimitExpire
  /-- ANCHOR_REWRITE (R104): After a wrap or step, Binnacle rewrites MER_WRAP_TAI and increments MER_WRAP_SEQ. -/
  | anchorRewrite
  /-- PPS_OUT_RISE (R114): PPS_OUT rises at each whole TAI second when enabled and synchronised. -/
  | ppsOutRise (ns : BitVec 10)
  /-- PPS_OUT_FALL (R114): PPS_OUT falls after PPS_OUT_WIDTH. -/
  | ppsOutFall (ns : BitVec 10)
  /-- TIME_CAP_EDGE (R115): A selected TIME_CAP edge is recorded with its time, or dropped on overrun. -/
  | timeCapEdge (ch : Fin 2) (rising : Bool) (ns : BitVec 10)
  /-- PPS_IN_EDGE (R116): A PPS_IN rising edge is captured and, in discipline mode, steers the servo. -/
  | ppsInEdge (ns : BitVec 10) (addend : U64)
  /-- PPS_IN_MISSING (R116): A PPS_IN edge missing for 2 s in discipline mode moves LOCKED to HOLDOVER. -/
  | ppsInMissing
  /-- TIMED_ACTION_FIRE (R117): A timed action reaches its target and is presented as a rank-6 input and applied. -/
  | timedActionFire (slot : Fin 64) (ns : BitVec 10)
  /-- TIMED_PULSE_FALL (R117): A pulse's falling edge is driven WIDTH ns after its rise. -/
  | timedPulseFall (slot : Fin 64) (ns : BitVec 10)
  /-- MINUTE_ARM (R125): Binnacle computes the next minute Fix and arms slot 0 or 1 for it. -/
  | minuteArm
  /-- METER_SEAL (R336): At M+2 the closing bank is sealed and the block staged, and hashing and delivery begin. -/
  | meterSeal
  /-- BILLING_HASH_DONE (R338): The chain head is computed; the trailer is queued and the head sent to the peer and checkpointed. -/
  | billingHashDone
  /-- CKPT_WRITE_DONE (R339): The Logbook checkpoint of a minute's chain head is complete. -/
  | ckptWriteDone
  /-- CKPT_LATE (R339): A checkpoint not complete by M+97,657 raises CKPT_LATE. -/
  | ckptLate
  /-- BILL_RING_DELIVER (R340): Billing header, record and trailer slots are written to the host ring as rate and room allow. -/
  | billRingDeliver
  /-- LOGLINE_DELIVER (R263): Logline entries pass to the host ring as tokens and room allow, using overflow as needed. -/
  | loglineDeliver
  /-- SOUND_DELIVER (R266): Sounding samples are written to the host ring with the DMA units left after billing. -/
  | soundDeliver
  /-- MON_RECORD_DELIVER (R442): Finished Monarch records pass from the FIFO to the Monarch host ring. -/
  | monRecordDeliver
  /-- CACHE_CLEANER_WRITEBACK (R175): The cleaner writes back the least recently used dirty record of a set below CACHE_CLEAN_MIN. -/
  | cacheCleanerWriteback (slice : Fin 4)
  /-- MOVER_ATTEMPT (R174): The mover places the oldest stash record or begins moving its group to second candidates. -/
  | moverAttempt (slice : Fin 4)
  /-- AGE_SCAN (R179): The scanner reads AGE_SCAN_RATE buckets and the stash and deletes expired records. -/
  | ageScan (slice : Fin 4)
  /-- EXILED_UPDATE (R162): The mover applies a queued EXILED change to slot 0 of the primary bucket. -/
  | exiledUpdate (slice : Fin 4)
  /-- MICROWORD_EXECUTE (R228): An engine executes one microword with its nanoword's ALU, local-store and sequencing effects. -/
  | microwordExecute (eng : Fin 512) (gap : U32)
  /-- LOCK (R204): A Skipper requests a bucket lock in ascending order. -/
  | lock (eng : Fin 512) (tag : Fin 8) (bucket : U32)
  /-- LOCKR (R204): A Skipper requests a bucket lock and reads the bucket. -/
  | lockr (eng : Fin 512) (tag : Fin 8) (bucket : U32) (loc : BitVec 10)
  /-- LOCKSET (R205): A Skipper releases and retakes up to four buckets in ascending order. -/
  | lockset (eng : Fin 512) (tag : Fin 8) (loc : BitVec 10)
  /-- BREAD (R201): A Skipper reads a held bucket. -/
  | bread (eng : Fin 512) (tag : Fin 8) (bucket : U32) (loc : BitVec 10)
  /-- BWRITE (R202): A Skipper buffers a masked unit write to a held bucket. -/
  | bwrite (eng : Fin 512) (tag : Fin 8) (bucket : U32) (unit : Fin 2) (loc : BitVec 10) (mask : U64)
  /-- XREAD (R201): A Skipper reads one or two extension lines. -/
  | xread (eng : Fin 512) (tag : Fin 8) (addr : U64) (two : Bool) (loc : BitVec 10)
  /-- XWRITE (R201): A Skipper buffers an extension line write under a covering bucket. -/
  | xwrite (eng : Fin 512) (tag : Fin 8) (addr : U64) (loc : BitVec 10) (mask : U64) (cover : U32)
  /-- ATOM (R203): A Skipper performs ADD, BSET or a deferred BCLR on an extension line. -/
  | atom (eng : Fin 512) (tag : Fin 8) (kind : Fin 3) (addr : U64) (operand : U64)
  /-- PLACE (R201): A Skipper asks the owning slice for a key's chosen bucket. -/
  | place (eng : Fin 512) (tag : Fin 8) (loc : BitVec 10)
  /-- SK_POOL_ALLOC (R299): A Skipper allocates a provisional buffer for a final owner. -/
  | skPoolAlloc (eng : Fin 512) (tag : Fin 8) (pool : Fin 8) (owner : BitVec 12)
  /-- SK_POOL_FREE (R301): A Skipper frees a buffer at commit. -/
  | skPoolFree (eng : Fin 512) (tag : Fin 8) (ref : U32)
  /-- PKT_NEXT (R199): A Skipper copies the header of the next held packet. -/
  | pktNext (eng : Fin 512) (tag : Fin 8) (loc : BitVec 10)
  /-- LBPICK (R219): A Skipper picks a backend from a load-balancing pool by hash. -/
  | lbpick (eng : Fin 512) (tag : Fin 8) (pool : U32) (hash : U32) (loc : U32)
  /-- TELEM (R224): A Skipper appends a 64-byte telemetry record. -/
  | telem (eng : Fin 512) (tag : Fin 8) (loc : BitVec 10)
  /-- TIMEREAD (R201): A Skipper reads TIME_NS and AGE_NOW. -/
  | timeread (eng : Fin 512) (tag : Fin 8)
  /-- COMMIT (R206): A routine ends by handing its write buffer and deferred operations to the commit stores. -/
  | commit (eng : Fin 512)
  /-- COMMIT_HANDOVER (R206): A stalled commit finds room in every store and is handed over to the commit holder. -/
  | commitHandover (eng : Fin 512)
  /-- FAIL (R210): A routine ends in a decision failure and its work is discarded. -/
  | fail (eng : Fin 512)
  /-- MEM_OP_COMPLETE (R201): A Skipper memory operation completes and sets its tag's status and result. -/
  | memOpComplete (eng : Fin 512) (tag : Fin 8) (bad : Bool)
  /-- LOCK_GRANT (R182): A waiting lock request is granted when the bucket is released. -/
  | lockGrant (bucket : BitVec 28) (cycles : U32)
  /-- LOCK_TIMEOUT (R182): A lock request still waiting at the 16th boundary is refused with LOCK_TIMEOUT. -/
  | lockTimeout (eng : Fin 512) (tag : Fin 8) (cycles : U32)
  /-- UNPARK (R212): A parked engine wakes WAKE_LEAD cycles before its expected completion. -/
  | unpark (eng : Fin 512)
  /-- SK_WATCHDOG (R211): A routine runs SKIP_WATCHDOG boundaries without ending, and its engine is lost. -/
  | skWatchdog (eng : Fin 512)
  /-- UCODE_RELOAD (R239): A cluster out of dispatch for a store error is reloaded once none of its engines runs. -/
  | ucodeReload (cluster : Fin 32)
  /-- UCODE_SCRUB (R239): The scrubber reads and corrects microcode store words. -/
  | ucodeScrub (cluster : Fin 32) (store : Fin 3) (word : BitVec 14)
  /-- POOL_REQUEST (R297): The buffer pool manager grants or refuses a request in the cycle of its arrival. -/
  | poolRequest (start : Fin 46) (reqs : List PoolReq)
  /-- BUFFER_FREE (R301): A free is applied, or refused as DOUBLE_FREE, FOREIGN_FREE or FREE_RANGE. -/
  | bufferFree (owner : BitVec 12) (ref : U32)
  /-- CELL_AUDIT_VISIT (R271): The audit visits 384 cells and reclaims cells unreferenced for two visits. -/
  | cellAuditVisit (lost : List (BitVec 19))
  /-- HBM_REQUEST (R327): A request reaches an arbiter port queue and is answered with a hint word. -/
  | hbmRequest (port : Fin 43) (req : HbmReq)
  /-- HBM_GRANT (R324): In each controller cycle the arbiter grants up to 16 requests by credits and rotation. -/
  | hbmGrant (stack : Fin 6)
  /-- HBM_COMMAND_ISSUE (R310): Each pseudo-channel issues a read, write, ATOM or paired write under timing and queue rules. -/
  | hbmCommandIssue (pc : Fin 192) (ready : List (Fin 16))
  /-- HBM_READ_RETURN (R321): Read data returns with ECC checked, corrected or poisoned. -/
  | hbmReadReturn (pc : Fin 192)
  /-- ROW_HOLD_EXPIRE (R316): A held row's ROW_HOLD runs out before its paired write. -/
  | rowHoldExpire (pc : Fin 192) (bank : Fin 16)
  /-- PAGE_IDLE_CLOSE (R311): A row closes after PAGE_IDLE cycles without a hit. -/
  | pageIdleClose (pc : Fin 192) (bank : Fin 16)
  /-- WRITE_AGE_EXPIRE (R312): A write that has waited WQ_AGE cycles is issued as in drain mode. -/
  | writeAgeExpire (pc : Fin 192)
  /-- REFRESH_DUE (R317): A bank's per-bank refresh falls due and is issued, postponed or forced. -/
  | refreshDue (pc : Fin 192) (bank : Fin 16)
  /-- PD_IDLE_ENTER (R320): An idle pseudo-channel enters power-down after PD_IDLE ns. -/
  | pdIdleEnter (pc : Fin 192)
  /-- SR_IDLE_ENTER (R408): In Cocoon a woken pseudo-channel returns to self-refresh after SR_IDLE ns. -/
  | srIdleEnter (pc : Fin 192)
  /-- PATROL_SCRUB (R321): The patrol scrubber reads HBM lines and writes back corrected ones. -/
  | patrolScrub (pc : Fin 192) (line : BitVec 23)
  /-- FAULT_MESSAGE (R379): A fault message reaches Lodestar and is recorded or coalesced. -/
  | faultMessage (m : Option FaultMsg)
  /-- INBAND_FRAME_RECEIVED (R84): An in-band envelope is rate-checked, verified, sequence-checked and checked as a command. -/
  | inbandFrameReceived (port : Fin 128) (pk : Nat)
  /-- RH_DATA_RECEIVED (R353): A DATA frame is checked for CRC and sequence and its events are queued, or it is NAKed. -/
  | rhDataReceived (frame : Bytes)
  /-- RH_ACK_RECEIVED (R354): An acknowledgement or NAK frees retransmit entries or triggers a resend. -/
  | rhAckReceived (frame : Bytes)
  /-- RH_HEARTBEAT_RECEIVED (R361): A HEARTBEAT updates the peer's roles, state and liveness. -/
  | rhHeartbeatReceived (frame : Bytes) (beat : RhBeat)
  /-- RH_HELLO_RECEIVED (R348): A HELLO is checked and the pair moves to RESYNC, MISMATCH or HELLO. -/
  | rhHelloReceived (frame : Bytes) (hello : RhHello)
  /-- RH_CLAIM_RECEIVED (R362): A CLAIM from the peer is presented as a rank-2 input setting the home to STANDBY. -/
  | rhClaimReceived (frame : Bytes) (home : Fin 2) (epoch : U32)
  /-- RH_CLAIM_ACK_RECEIVED (R362): A CLAIM_ACK returns the outcome of a claim. -/
  | rhClaimAckReceived (frame : Bytes) (home : Fin 2) (epoch : U32) (status : Byte)
  /-- RH_DATA_SEND (R353): Queued events are sent in a DATA frame, retransmissions first. -/
  | rhDataSend
  /-- RH_ACK_SEND (R353): An ACK or NAK is sent within 256 ns of receipt. -/
  | rhAckSend
  /-- RH_RETRANSMIT_TIMEOUT (R354): Unacknowledged events are resent after 2,048 ns without progress. -/
  | rhRetransmitTimeout
  /-- PEER_LOST (R361): No valid frame for PEER_TIMEOUT boundaries: the pair enters LOST and PEER_LOST is raised. -/
  | peerLost
  /-- PAIR_LANES_ALIGNED (R347): The Rhumb lanes have been aligned for 64 boundaries and the pair enters HELLO. -/
  | pairLanesAligned
  /-- RH_ALIGN_LOST (R347): Rhumb alignment is lost in HELLO or MISMATCH and the pair returns to DOWN. -/
  | rhAlignLost
  /-- RESYNC_SWEEP (R364): The resync sweep sends BINDs and extension lines for RESYNC_SCAN buckets and finally RESYNC_END. -/
  | resyncSweep
  /-- POWER_ENTRY_DONE (R405): The drain and gating of domains for Roost or Cocoon complete. -/
  | powerEntryDone
  /-- POWER_EXIT_DONE (R406): Domains are restored and the device is in Flight. -/
  | powerExitDone
  /-- DOMAIN_POWER_FAIL (R409): A domain lacks or loses power-good, raises DOMAIN_FAIL and is switched off. -/
  | domainPowerFail (d : Fin 64)
  /-- CLOCK_GATE (R398): In Basking a domain idle for 64 cycles is clock gated. -/
  | clockGate (d : Fin 64)
  /-- CLOCK_UNGATE (R398): A gated domain is ungated within 200 ns of new work. -/
  | clockUngate (d : Fin 64)
  /-- REFCLK_SDS_LOSS (R467): Loss of a SerDes reference clock stops its lanes until the clock returns. -/
  | refclkSdsLoss (clk : Fin 2) (ns : BitVec 10)
  /-- BYPASS (R468): The JTAG BYPASS instruction selects the bypass register. -/
  | bypass
  /-- IDCODE (R468): The JTAG IDCODE instruction shifts out the device identification code. -/
  | idcode
  /-- SAMPLE_PRELOAD (R468): The JTAG SAMPLE/PRELOAD instruction samples or preloads the boundary-scan register. -/
  | samplePreload (bits : Bytes)
  /-- EXTEST (R468): The JTAG EXTEST instruction drives pins, only while halted with reason STRAP. -/
  | extest
  /-- CLAMP (R468): The JTAG CLAMP instruction holds pins, only while halted with reason STRAP. -/
  | clamp
  /-- HIGHZ (R468): The JTAG HIGHZ instruction tristates pins, only while halted with reason STRAP. -/
  | highz
  /-- ALIGNMENT_ACQUIRED (R96): A port's PCS gains alignment and block lock on all its lanes with no fault received. In ALIGN this starts the UP_HOLD interval, and in DOWN_PEND it ends the loss, so the port returns to UP at the next boundary. -/
  | alignmentAcquired (port : Fin 128) (ns : BitVec 10)
  /-- REFCLK_SDS_RESTORED (R467): A lost REFCLK_SDS0 or REFCLK_SDS1 returns, and the lanes it serves retrain without reset. -/
  | refclkSdsRestored (clk : Fin 2)
  /-- PCIE_LINK_UP (R87): When a hot reset, link-down or link-disable condition ends, the SV1280 retrains the PCIe link and the host interface returns to service. -/
  | pcieLinkUp (gen : Fin 4) (width : Fin 4)
deriving DecidableEq, Repr

end Sys2Proof
end

