-- ==== Sys2Proof/Decode.lean ====
section
/-! DEFINITION. The rows of the operations table carry no bits: a command comes as a command packet or as an event of the
outside, never as an instruction word. -/

namespace Sys2Proof

/-- No word spells a row, since the table gives none of them bits. -/
def decodeTableWord (_nbits _w : Nat) : Option Instr := none

end Sys2Proof
end

