-- ==== Sys2Proof/Config.lean ====
section
/-! DEFINITION. What one device fixes and the spec leaves open: constants without a body (free values). No proof can
see a value of them. -/

namespace Sys2Proof.Config

/-- The revisions of the die before this device's. -/
opaque dieStep : Fin 65535
/-- DIE_REV (R478): 1 for the first production revision, and never 0. -/
def dieRev : BitVec 16 := BitVec.ofNat 16 (dieStep.val + 1)
/-- FW_VERSION of the firmware of an image version (R478). -/
opaque fwVersion : Nat → BitVec 32
/-- The place of this device's UNIQUE_ID among the legal ones. -/
opaque uniqueStep : Fin 340282366920938463463374607431768211454
/-- UNIQUE_ID, 16 bytes assigned at wafer test, byte 0 most significant: never all zeros or all ones (R478). -/
def uniqueId : BitVec 128 := BitVec.ofNat 128 (uniqueStep.val + 1)
/-- Virzia Semiconductor's PCI-SIG identifier (Table 3.1). -/
opaque pciVendorId : BitVec 16
/-- The random source of the root of trust: its n-th 64-bit draw (R186, R265, R394). -/
opaque random : Nat → BitVec 64
/-- Ed448 signature with the identity key (R84, R429): the 114 bytes for a context and a message. -/
opaque signIdentity : List (BitVec 8) → List (BitVec 8) → List (BitVec 8)
/-- Ed448 verification (RFC 8032): public key, context, message, signature. -/
opaque ed448Verify : List (BitVec 8) → List (BitVec 8) → List (BitVec 8) → List (BitVec 8) → Bool
/-- The public key digests that OTP holds: image signer slots 0 to 3, the factory-test key as slot 4, the device certificate as slot 5 (Table 18.5). -/
opaque otpDigest : Nat → List (BitVec 8)
/-- Virzia's factory-test public key (R394); OTP holds its digest. -/
opaque factoryKey : List (BitVec 8)
/-- SHAKE256 of the boot ROM, 64 bytes (Table 18.7). -/
opaque romDigest : List (BitVec 8)
/-- The JEDEC manufacturer code of Virzia Semiconductor in IDCODE (R468). -/
opaque jedecCode : BitVec 11
/-- The device and CA certificates in the order of R428. -/
opaque certificate : Nat → List (BitVec 8)
/-- AES-256-GCM decryption of an image body under a wrapped key: none where the tag fails (R421, R423). -/
opaque imageOpen : List (BitVec 8) → List (BitVec 8) → Option (List (BitVec 8))
/-- A value that the spec leaves open, by a label of the place and the draw counter of the state. -/
opaque freeValue : Nat → Nat → BitVec 64

end Sys2Proof.Config
end

