-- ==== Sys2Proof/Machine/Bits.lean ====
section
/-! DEFINITION. Bytes, bit fields, sparse maps and check sums: helpers that every block of the model uses. -/

namespace Sys2Proof.Machine

open Sys2Proof

/-! ### Bit fields of naturals -/

/-- Bits [lo+w-1 : lo] of n. -/
def bitsOf (n lo w : Nat) : Nat := (n >>> lo) % 2 ^ w

def bitOf (n i : Nat) : Bool := n.testBit i

/-- n with bits [lo+w-1 : lo] replaced by v. -/
def setBits (n lo w v : Nat) : Nat :=
  n - (bitsOf n lo w) * 2 ^ lo + (v % 2 ^ w) * 2 ^ lo

def b2n (b : Bool) : Nat := if b then 1 else 0

/-- The signed value of a w-bit natural. -/
def signedOf (w n : Nat) : Int :=
  let m := n % 2 ^ w
  if 2 * m < 2 ^ w then (m : Int) else (m : Int) - (2 ^ w : Nat)

/-- A signed value as a w-bit natural (two's complement). -/
def ofSigned (w : Nat) (i : Int) : Nat := (i % ((2 ^ w : Nat) : Int)).toNat

/-! ### Bytes -/

def byteN (n : Nat) : Byte := BitVec.ofNat 8 n

/-- n bytes of v, least significant first (the order of R70). -/
def leBytes : Nat → Nat → Bytes
  | 0, _ => []
  | k + 1, v => byteN v :: leBytes k (v / 256)

/-- n bytes of v, most significant first (network order). -/
def beBytes (n v : Nat) : Bytes := (leBytes n v).reverse

def leNat : Bytes → Nat
  | [] => 0
  | b :: bs => b.toNat + 256 * leNat bs

def beNat (bs : Bytes) : Nat := bs.foldl (fun a b => a * 256 + b.toNat) 0

/-- n bytes at offset o, zeros past the end. -/
def sliceB (bs : Bytes) (o n : Nat) : Bytes :=
  let t := (bs.drop o).take n
  t ++ List.replicate (n - t.length) 0

def leAt (bs : Bytes) (o n : Nat) : Nat := leNat (sliceB bs o n)
def beAt (bs : Bytes) (o n : Nat) : Nat := beNat (sliceB bs o n)

def zerosB (n : Nat) : Bytes := List.replicate n 0

def isZeros (bs : Bytes) : Bool := bs.all (· == 0)

/-- bs with the bytes of v written at offset o; bs is as long after as before. -/
def spliceB (bs : Bytes) (o : Nat) (v : Bytes) : Bytes :=
  ((bs.take o) ++ v ++ (bs.drop (o + v.length))).take bs.length

/-- bs cut or padded with zeros to n bytes. -/
def padTo (n : Nat) (bs : Bytes) : Bytes := sliceB bs 0 n

/-! ### Lists -/

def setAt {α : Type} : List α → Nat → α → List α
  | [], _, _ => []
  | _ :: xs, 0, v => v :: xs
  | x :: xs, n + 1, v => x :: setAt xs n v

def modAt {α : Type} : List α → Nat → (α → α) → List α
  | [], _, _ => []
  | x :: xs, 0, f => f x :: xs
  | x :: xs, n + 1, f => x :: modAt xs n f

/-- Insertion sort on a key, stable: a sample's order of R43 is one. -/
def insertBy {α : Type} (k : α → Nat) (x : α) : List α → List α
  | [] => [x]
  | y :: ys => if k x < k y then x :: y :: ys else y :: insertBy k x ys

def sortBy {α : Type} (k : α → Nat) (xs : List α) : List α :=
  xs.foldl (fun acc x => insertBy k x acc) []

def dedupN : List Nat → List Nat
  | [] => []
  | x :: xs => if xs.contains x then dedupN xs else x :: dedupN xs

/-! ### Sparse maps: sorted lists of key and value -/

abbrev KMap (α : Type) := List (Nat × α)

def kfind {α : Type} : KMap α → Nat → Option α
  | [], _ => none
  | (k, v) :: m, x => if k = x then some v else kfind m x

def kget {α : Type} (d : α) (m : KMap α) (x : Nat) : α := (kfind m x).getD d

def kput {α : Type} : KMap α → Nat → α → KMap α
  | [], x, v => [(x, v)]
  | (k, w) :: m, x, v =>
    if x < k then (x, v) :: (k, w) :: m
    else if k = x then (x, v) :: m
    else (k, w) :: kput m x v

def kdel {α : Type} : KMap α → Nat → KMap α
  | [], _ => []
  | (k, w) :: m, x => if k = x then m else (k, w) :: kdel m x

/-- Write v at x, where an absent key reads as d: writing d removes the entry. -/
def kset {α : Type} [DecidableEq α] (d : α) (m : KMap α) (x : Nat) (v : α) : KMap α :=
  if v = d then kdel m x else kput m x v

def kmod {α : Type} [DecidableEq α] (d : α) (m : KMap α) (x : Nat) (f : α → α) : KMap α :=
  kset d m x (f (kget d m x))

/-! ### Check sums -/

/-- One byte of a reflected CRC-32 with polynomial p. -/
def crcByte (p : Nat) (c : Nat) (b : Byte) : Nat :=
  (List.range 8).foldl (fun c _ => if c % 2 = 1 then (c >>> 1) ^^^ p else c >>> 1) (c ^^^ b.toNat)

/-- The CRC of R159: reflected polynomial p, initial value init, final inversion. -/
def crcN (init p : Nat) (bs : Bytes) : Nat := (bs.foldl (crcByte p) init) ^^^ 0xFFFFFFFF

/-- CRC-32C with the initial value of R164 and R353. -/
def crc32c (bs : Bytes) : Nat := crcN 0xFFFFFFFF 0x82F63B78 bs

/-- The CRC-32 of the Ethernet frame check sequence. -/
def crc32 (bs : Bytes) : Nat := crcN 0xFFFFFFFF 0xEDB88320 bs

end Sys2Proof.Machine
end

