-- ==== Sys2Proof/Machine/PartsControl.lean ====
section
/-! DEFINITION. State of the control plane: host attachment (chapter 3), the Fix timeline (chapter 2), faults on their
way (chapter 16). -/

namespace Sys2Proof.Machine

open Sys2Proof

/-! ### Rings (Table 3.4) -/

/-- CMD_RINGn_STATUS [1:0]. -/
inductive RingState where
  | idle | running | draining | halted
deriving DecidableEq, Repr

/-- A command fetched and not yet checked (it may wait on a fence, R76), with its opcode. -/
structure Fetched where
  code : Nat
  p : CmdPkt
deriving DecidableEq, Repr

structure Ring where
  base : U64
  size : U32
  enable : Bool
  head : Nat
  tail : Nat
  state : RingState
  cause : Byte
  cqBase : U64
  cqSize : U32
  cqHead : Nat
  cqTail : Nat
  shadow : U64
  irq : BitVec 6
  dberr : U32
  /-- Completion entries promised to commands fetched and not completed (R65). -/
  promised : Nat
  /-- Commands fetched and not yet checked, in ring order (R76). -/
  waiting : List Fetched
  /-- Fetches issued and not returned: first index and count. -/
  inFetch : List (Nat × Nat)
  /-- The ring has a checked command in progress that carried the fence flag (R76). -/
  fenced : Bool
deriving DecidableEq, Repr

/-- A ring after reset (Table 3.4). -/
def ringReset : Ring :=
  { base := 0, size := 0, enable := false, head := 0, tail := 0, state := .idle, cause := 0,
    cqBase := 0, cqSize := 0, cqHead := 0, cqTail := 0, shadow := 0, irq := 0, dberr := 0,
    promised := 0, waiting := [], inFetch := [], fenced := false }

/-! ### Completions and what leaves over PCI Express -/

/-- A completion entry (Table 3.6) before it is written. -/
structure Cpl where
  tag : U32
  status : Nat
  winRank : Nat
  fix : FixNo
  result : U32
  irq : Bool
deriving DecidableEq, Repr

/-- A posted write of the device, in the order in which it is issued. -/
inductive HostWrite where
  /-- Bytes written at a host address (payloads, ring slots, shadow words). -/
  | mem (addr : U64) (bytes : Bytes)
  /-- A completion entry of a ring at an index, and its host address (R61, R69). -/
  | cpl (ring : Fin 4) (index : Nat) (addr : U64) (bytes : Bytes)
  /-- An MSI-X message. -/
  | msix (vector : BitVec 6)
  /-- A non-fatal error message of AER (Table 3.1, R68). -/
  | errNonFatal
deriving DecidableEq, Repr

/-- A frame that the device originates or forwards, as it leaves a port. -/
structure OutFrame where
  port : Nat
  bytes : Bytes
  stomped : Bool
deriving DecidableEq, Repr

/-- What has left the block, oldest first: the model's record of its outputs. -/
structure Outputs where
  host : List HostWrite
  frames : List OutFrame
  /-- Rhumb frames sent: type, first event sequence number, bytes. -/
  rhumb : List (Nat × Nat × Bytes)
  /-- DMA reads of command entries issued: ring, first index, count, host address of the first entry (R61, R67). -/
  fetches : List (Nat × Nat × Nat × U64)
  /-- Flash and OTP programming orders: address, bytes. -/
  flash : List (Nat × Bytes)
  /-- The value returned by the last register read with a side effect. -/
  lastRead : U64
deriving DecidableEq, Repr

/-- Log: DESIGN CHOICE, log entry 8; DESIGN CHOICE, log entry 11. -/
def outputsReset : Outputs :=
  { host := [], frames := [], rhumb := [], fetches := [], flash := [], lastRead := 0 }

/-! ### Configuration space (Table 3.1) -/

/-- The capability structures that configuration space holds; one that is not listed is absent (R60). -/
inductive PcieCap where
  | pciExpress | msix | aer | serialNumber
deriving DecidableEq, Repr

/-- What configuration space shows of Table 3.1 and no event changes: the header, the sizes of BAR0 and BAR2 (the others are not
implemented), the capabilities, and the limits and attributes of requests. -/
structure PcieIdent where
  vendorId : U16
  deviceId : U16
  classCode : BitVec 24
  headerType : Byte
  intPin : Byte
  bar0Size : Nat
  bar2Size : Nat
  caps : List PcieCap
  /-- The Device Serial Number: bytes 0 to 7 of UNIQUE_ID. -/
  serial : U64
  maxPayload : Nat
  maxReadRequest : Nat
  tagBits : Nat
  maxOutstanding : Nat
  relaxedOrdering : Bool
  noSnoop : Bool
  aspmL0s : Bool
  aspmL1 : Bool
deriving DecidableEq, Repr

/-- Table 3.1 (R60). -/
def pcieIdent : PcieIdent :=
  { vendorId := Config.pciVendorId, deviceId := 0x1280, classCode := 0x020000, headerType := 0, intPin := 0,
    bar0Size := 2 ^ 26, bar2Size := 2 ^ 16, caps := [.pciExpress, .msix, .aer, .serialNumber],
    serial := BitVec.ofNat 64 (Config.uniqueId.toNat / 2 ^ 64), maxPayload := 512, maxReadRequest := 4096, tagBits := 10,
    maxOutstanding := 256, relaxedOrdering := false, noSnoop := false, aspmL0s := false, aspmL1 := true }

/-- What events change in configuration space: AER's uncorrectable error status, and the header log of the first error that
it holds (Table 3.1, R68). -/
structure PcieSpace where
  aerStatus : U32
  aerHeader : BitVec 128
deriving DecidableEq, Repr

/-- Configuration space after a reset of the link (R87). (Log: PRESUMED, log entry 77.) -/
def pcieSpaceReset : PcieSpace := { aerStatus := 0, aerHeader := 0 }

structure HostIf where
  rings : List Ring
  pcie : PcieSpace
  /-- Position in the rotation 0, 1, 0, 2, 0, 3 of R67. -/
  rot : Nat
  /-- Commands fetched and checked in this Fix, at most 8 (R67). -/
  fetchedThisFix : Nat
  /-- Commands checked in this Fix, at most 8 (R67). -/
  checkedThisFix : Nat
  /-- MSI-X table by vector: [95:0] address and data, [96] mask. -/
  msix : KMap (BitVec 128)
  /-- MSI-X pending bits. -/
  pba : U64
  linkUp : Bool
  linkGen : Nat
  linkWidth : Nat
  /-- PERST_N asserted (R465). -/
  perst : Bool
  /-- Times at which the host interface was reset, and the boundaries left of the configuration-response interval. -/
  inReset : Bool
deriving DecidableEq, Repr

/-! ### The sampler (Tables 2.1 to 2.4) -/

/-- Object IDs and object groups are naturals of 64 and 32 bits. -/
abbrev Obj := Nat

/-- A rank-1 order (Table 2.1): a chip reset with its CAUSE and FAULT_SOURCE (Table 20.2), or a power state order of the
power manager (R401). -/
inductive ResetOrder where
  | chip (cause src : Nat)
  | powerState (target : Nat)
  | domainOn (d : Nat)
  | domainOff (d : Nat)
deriving DecidableEq, Repr

/-- A mirror event of Table 15.4 as the model carries it: kind, flow home, and its bytes. -/
structure PairEvent where
  seq : Nat
  kind : Nat
  body : Bytes
deriving DecidableEq, Repr

/-- What one input of a sample carries. -/
inductive InBody where
  /-- A ring or in-band command (ranks 3 and 4) with the references of its payload buffers (R71). -/
  | cmd (code : Nat) (p : CmdPkt) (bufs : List Nat)
  /-- A step of the multi-Fix command in a slot (R80). -/
  | step (slot : Nat)
  /-- The reaction to a recorded fault message (R383). -/
  | reaction (m : FaultMsg)
  /-- A reset or power order. -/
  | order (o : ResetOrder)
  /-- A peer claim: homes, seconds and epoch of the claim (R362). -/
  | peerClaim (homes : Nat) (epoch : Nat)
  /-- A local claim of the homes at loss of the peer (R362). -/
  | takeover (homes : Nat)
  /-- A mirror event (rank 5). -/
  | mirror (e : PairEvent)
  /-- A journal event replayed after a sleep exit (R366). -/
  | replay (e : PairEvent)
  /-- A timed action (rank 6). -/
  | timed (slot : Nat)
  /-- An Autopilot decision (rank 7): loop, object, old value, new value. -/
  | autopilot (loop : Nat) (obj : Obj) (old new : Nat)
  /-- The falling edge of a pulse, which claims its pin again (R120). -/
  | pulseFall (slot pin : Nat)
deriving DecidableEq, Repr

structure Input where
  rank : Nat
  /-- Position within the rank (R43); for a command or a step, its place in the order in which commands passed their checks. -/
  sub : Nat
  /-- The boundary for which the input was due (R35). -/
  due : FixNo
  body : InBody
deriving DecidableEq, Repr

/-- The reply of a command's body that ends it: status, winning rank, RESULT, device-to-host payload. -/
structure CmdOut where
  status : Nat
  winRank : Nat
  result : Nat
  data : Bytes
  /-- No chapter defines the RESULT of this outcome: it is a free value, and `result` is not read. -/
  free : Bool := false
deriving DecidableEq, Repr

/-- The outcome of resolution: accepted, superseded by a rank, or refused with a status (and a RESULT above its low
byte). -/
inductive Verdict where
  | accepted
  | superseded (rank : Nat)
  | refused (status : Nat)
deriving DecidableEq, Repr

/-- An input after resolution: the values in force that an accepted commit sets at step 5 (R41, R52), and the reply of
an input that changes none (R474). -/
structure Resolved where
  inp : Input
  verdict : Verdict
  writes : List (Obj × Nat)
  out : Option CmdOut
deriving DecidableEq, Repr

/-- An entry of the staging store (R49, R50): who owns it, and the group of the lease it was made under (R57). -/
structure Staged where
  owner : Nat
  obj : Obj
  value : U64
  lease : Option Nat
deriving DecidableEq, Repr

structure Lease where
  owner : Nat
  group : Nat
  /-- The boundary at which the lease ends (R54). -/
  expiry : FixNo
deriving DecidableEq, Repr

/-- A scheduled command (R38). -/
structure Sched where
  code : Nat
  p : CmdPkt
  target : FixNo
  bufs : List Nat
  /-- Its place in the order in which commands passed their checks (R43: ring order). -/
  ord : Nat := 0
deriving DecidableEq, Repr

/-- A multi-Fix command in progress (R80, R81). -/
structure Multi where
  slot : Nat
  code : Nat
  p : CmdPkt
  /-- Boundaries since its first boundary, the first one included. -/
  count : Nat
  limit : Nat
  /-- Units applied so far. -/
  units : Nat
  lastFix : FixNo
  /-- Position of the work: what the next unit is. -/
  pos : Nat
  aux : List Nat
  bufs : List Nat
  /-- Its place in the order in which commands passed their checks (R80: ring order). -/
  ord : Nat := 0
deriving DecidableEq, Repr

/-- An Autopilot journal entry (Table 2.7). -/
structure ApEntry where
  fix : FixNo
  loop : Nat
  outcome : Nat
  rank : Nat
  obj : Obj
  old : Nat
  new : Nat
deriving DecidableEq, Repr

/-- An in-band key (R83). -/
structure IbKey where
  authority : Nat
  key : Bytes
  tenants : List Nat
  seqHigh : U64
deriving DecidableEq, Repr

structure Control where
  /-- Binnacle has reported ready and the sampler is open (R59). -/
  ready : Bool
  /-- Inputs presented for the next sample, in order of presentation. -/
  queue : List Input
  /-- The sample of the boundary to come is closed (R37). -/
  closed : Bool
  /-- The resolved set of the boundary to come. -/
  apply : List Resolved
  /-- The objects claimed while the set of this boundary was resolved, with the claiming rank and source (R44). -/
  claimed : List (Obj × Nat × Nat)
  /-- Accepted reads of the boundary in progress, which wait for the values in force from it (R47), each with the number of
  completions gathered before its own and the boundary it reports. -/
  reads : List (Nat × FixNo × Resolved)
  /-- The model's own count of the commands that have passed their checks: the next one's place in that order (R43). -/
  serial : Nat
  sched : List Sched
  staging : List Staged
  leases : List Lease
  multi : List Multi
  journal : List ApEntry
  apNext : U32
  apLost : U32
  /-- Ring 1's tenant set (R78). -/
  tenants : List Nat
  ibEnable : Bool
  ibEthertype : U16
  ibMac : BitVec 48
  ibVlan : U16
  ibPorts : BitVec 128
  ibKeys : KMap IbKey
  /-- The second, of the extended time, in which envelopes are counted, and the count (R84, R104). -/
  ibSecond : Nat
  ibTaken : Nat
  /-- Frames dropped at steps 1, 2 and 3 of R84 and on ports that accept none (R82). -/
  ibDropRate : Nat
  ibDropAuth : Nat
  ibDropSeq : Nat
  ibDropPort : Nat
  /-- Configuration store: the active values that differ from reset, by object ID. -/
  cfg : KMap U64
  /-- Objects whose active value has changed at the boundary of the Fix in progress: their blocks are not idle there (R8). -/
  changed : List Obj
  /-- Completions of a boundary gathered for one write of R69: ring, entry. -/
  cpls : List (Nat × Cpl)
  /-- Frames that the device originates, waiting for the highest strict queue of their port (R85, R107): port, bytes. -/
  origin : List (Nat × Bytes)
  /-- A function-level reset has come: staged entries, leases and multi-Fix commands of the rings end at the next boundary
  (R86). -/
  flr : Bool
  /-- Blocks whose Binnacle firmware restarts (R385): fetched and not presented commands complete BUSY. -/
  restarting : Bool
deriving DecidableEq, Repr

/-- Time (chapters 2 and 5): the Fix in progress, the ns within it, the count of boundaries since reset. -/
structure Clock where
  fix : FixNo
  sub : BitVec 10
  boundaries : Nat
  /-- The addend of R103 in units of 2^-32 ns. -/
  addend : U64
  /-- The addend that the servo has set; `addend` differs from it while a remainder is slewed (R103). -/
  servo : U64
  /-- A step of k Fix ordered and not yet landed (R34). -/
  stepDue : Int
  /-- The remainder being slewed, in units of 2^-32 ns (R34, R103). -/
  slew : Int
  /-- Binnacle's extension: the TAI nanoseconds of the boundary of the Fix in progress. -/
  tai : Nat
deriving DecidableEq, Repr

def clockReset : Clock :=
  { fix := 0, sub := 0, boundaries := 0, addend := 0x100000000, servo := 0x100000000, stepDue := 0, slew := 0, tai := 0 }

/-- While no link is trained SYS_INFO reports generation 1 and width 1: the spec gives no value for that time. (Log: DEDUCED,
log entry 5; DESIGN CHOICE, log entry 7; DESIGN CHOICE, log entry 78.) -/
def hostIfReset : HostIf :=
  { rings := [ringReset, ringReset, ringReset, ringReset], pcie := pcieSpaceReset, rot := 0, fetchedThisFix := 0,
    checkedThisFix := 0,
    msix := [], pba := 0, linkUp := false, linkGen := 1, linkWidth := 1, perst := true, inReset := true }

/-- Log: DESIGN CHOICE, log entry 8. -/
def controlReset : Control :=
  { ready := false, queue := [], closed := false, apply := [], claimed := [], reads := [], serial := 0, sched := [], staging := [], leases := [], multi := [],
    journal := [], apNext := 0, apLost := 0, tenants := [], ibEnable := false, ibEthertype := 0x88B5, ibMac := 0,
    ibVlan := 0, ibPorts := 0, ibKeys := [], ibSecond := 0, ibTaken := 0, ibDropRate := 0, ibDropAuth := 0,
    ibDropSeq := 0, ibDropPort := 0, cfg := [], changed := [], cpls := [], origin := [], flr := false, restarting := false }

end Sys2Proof.Machine
end

