-- ==== Sys2Proof/Machine/PartsBoot.lean ====
section
/-! DEFINITION. State of the power manager (chapter 17), of start-up, images and identity (chapter 18), of the straps,
reset pins and reference clocks (chapter 21), and of the JTAG port. -/

namespace Sys2Proof.Machine

open Sys2Proof

/-- The power states of Table 17.2. -/
inductive PwrState where
  | flight | basking | roost | cocoon
deriving DecidableEq, Repr

/-- An entry into a sleep state, or an exit from one, in progress: the state, and the boundary (counted from reset) at
which the order took effect. -/
structure Transit where
  entry : Bool
  state : PwrState
  since : Nat
  /-- The exit abandoned an entry: it may complete before the whole exit time (R404). -/
  early : Bool := false
deriving DecidableEq, Repr

/-- What PWR_STATE, PWR_DISTANCE and the masks show, latched at step 10 (R451). -/
structure PowerLatch where
  state : PwrState
  transit : Bool
  next : Nat
  dist : Nat
  on : U64
  gated : U64
  failed : U64
deriving DecidableEq, Repr

def powerLatchReset : PowerLatch :=
  { state := .flight, transit := false, next := 0, dist := 0xFFFFFFFF, on := ~~~0, gated := 0, failed := 0 }

structure Power where
  st : PwrState
  transit : Option Transit
  /-- Domains powered, clock gated, held off after a failure (Table 20.5). -/
  on : U64
  gated : U64
  failed : U64
  /-- D of R401 and the row of Table 17.3 that set it. -/
  dist : Nat
  next : Nat
  latch : PowerLatch
  /-- Boundaries since the last frame that was not a PTP frame, up to 65,536 (R402). -/
  rxAge : Nat
  /-- Cluster domains ordered off, which stay powered until the undo of their lost engines is done (R215). -/
  gating : List Nat
  /-- Entries into Roost and into Cocoon (R412). -/
  roosts : U64
  cocoons : U64
  tj : BitVec 8
  tjMax : BitVec 8
  /-- Boundaries since the last THERM_WARN, while below 977 (R410). -/
  warnAge : Option Nat
  /-- Commands that wait for an exit to complete (R403), in order, with their payload buffers. -/
  held : List Sched
deriving DecidableEq, Repr

/-- After chip reset the device is in Flight with every domain powered (R413). (Log: DESIGN CHOICE, log entry 8.) -/
def powerReset : Power :=
  { st := .flight, transit := none, on := ~~~0, gated := 0, failed := 0, dist := 0xFFFFFFFF, next := 0,
    latch := powerLatchReset, rxAge := 0, gating := [], roosts := 0, cocoons := 0, tj := 0, tjMax := 0,
    warnAge := none, held := [] }

/-- A decrypted image (Table 18.3, Table 18.4): header, source (0 slot A, 1 slot B, 2 push, 3 staged), and sections. -/
structure Image where
  header : Bytes
  source : Nat
  firmware : Bytes
  microcode : Bytes
  grains : Bytes
deriving DecidableEq, Repr

/-- What the pins do under a JTAG instruction (R468). -/
inductive JtagPins where
  | normal | driven | held | tristate
deriving DecidableEq, Repr

structure Boot where
  /-- Straps as sampled (R414). -/
  bootSrc : BitVec 2
  ftest : Bool
  pairPresent : Bool
  /-- GLB_BOOT_STATUS: stage of Table 18.1, source, last reason, rejections. -/
  stage : Nat
  source : Nat
  reason : Nat
  rejects : Nat
  /-- Every bundle has been loaded and self-tested (stage 6). -/
  ucDone : Bool
  /-- HALTED was entered by a rejected push (R419, R422). -/
  pushHalt : Bool
  cause : Nat
  faultSource : Nat
  resetCount : Nat
  /-- No release of SYS_RST_N since VDD_AON came up (R463). -/
  fresh : Bool
  bootAddr : U64
  bootLen : U32
  scratch : U32
  aonUp : Bool
  sysRst : Bool
  /-- REFCLK_SDS0 and REFCLK_SDS1 are present. -/
  refclk : BitVec 2
  /-- The image in hand: its source and header; and the flash slot to try after it. -/
  cand : Option (Nat × Bytes)
  nextSlot : Option (Nat × Bytes)
  running : Option Image
  /-- The 8 MiB staging area: bytes that are not zero. -/
  staging : List Host.Cell
  stagedState : Nat
  stagedReason : Nat
  accepted : Option Image
  /-- The slot that the last IMAGE_FLASH since chip reset wrote (R431). -/
  lastSlot : Option Nat
  /-- Blown rollback fuses and signer revoke bits. -/
  fuses : Nat
  revoke : BitVec 4
  jtag : Byte
  jtagPins : JtagPins
  /-- Boundary-scan register as captured or preloaded, and the identification code as captured (R468). -/
  bsr : Bytes
  idcode : U32
deriving DecidableEq, Repr

/-- After power-on: VDD_AON is up, SYS_RST_N is still low, no strap has been sampled. The JTAG instruction register
holds IDCODE (IEEE 1149.1). (Log: DEDUCED, log entry 5; DESIGN CHOICE, log entry 8; PRESUMED, log entry 68.) -/
def bootReset : Boot :=
  { bootSrc := 0, ftest := false, pairPresent := false, stage := 0, source := 3, reason := 0, rejects := 0,
    ucDone := false, pushHalt := false, cause := 0, faultSource := 0, resetCount := 0, fresh := true, bootAddr := 0, bootLen := 0,
    scratch := 0, aonUp := true, sysRst := false, refclk := 3, cand := none, nextSlot := none, running := none,
    staging := [], stagedState := 0, stagedReason := 0, accepted := none, lastSlot := none, fuses := 0,
    revoke := 0, jtag := 2, jtagPins := .normal, bsr := [], idcode := 0 }

end Sys2Proof.Machine
end

