-- ==== Sys2Proof/Machine/PartsFlow.lean ====
section
/-! DEFINITION. State of the flow slices (chapter 7): cache, stash, chart, sequence guard, tombstones, lock table, held
flows, events. The flow table itself is region 0 of the HBM bytes. -/

namespace Sys2Proof.Machine

open Sys2Proof

/-- A cached record (chapter 7, Flow cache and write-back): its slice, set and way (the even way of a long record), its
bytes, whether it is dirty, and when it was last used. -/
structure CacheRec where
  slice : Nat
  set : Nat
  way : Nat
  bytes : Bytes
  dirty : Bool
  used : Nat
deriving DecidableEq, Repr

structure StashRec where
  bytes : Bytes
  /-- Order of entry: the mover takes the oldest (R174). -/
  order : Nat
deriving DecidableEq, Repr

/-- An entry of the tombstone list (R181): the record's handle, the flips before it was made, its release event's kind. -/
structure Tomb where
  handle : Nat
  born : Nat
  kind : Nat
deriving DecidableEq, Repr

/-- A lock in force: its holder (a Skipper ID, 0x200 the mover, 0x201 the commit holder) and its boundary (R182). -/
structure LockHold where
  holder : Nat
  granted : FixNo
deriving DecidableEq, Repr

def lockHoldReset : LockHold := { holder := 0xFFFF, granted := 0 }

/-- A waiting lock request (R182): bucket, engine, its operation's tag, and boundaries it has waited. -/
structure Waiter where
  bucket : Nat
  engine : Nat
  tag : Nat
  age : Nat
deriving DecidableEq, Repr

/-- A group that the mover is moving (R174): the primary index, the stash entries of the group with the buckets they go
to, those of them that stood in bucket p, the locked buckets, and the boundary (counted from reset) after which it ends. -/
structure Move where
  primary : Nat
  stash : List (Nat × Nat)
  group : List Nat
  locked : List Nat
  age : Nat
deriving DecidableEq, Repr

structure Slice where
  stash : List (Option StashRec)
  /-- The EXILED queue (R162): primary index, and whether 1 is added (else subtracted). -/
  exq : List (Nat × Bool)
  /-- Epoch bit E and the flips so far (R181). -/
  e : Bool
  flips : Nat
  tombs : List Tomb
  /-- The event ring, oldest first, at most 1,048,576 entries. -/
  events : List Bytes
  locks : KMap LockHold
  waits : List Waiter
  /-- LOOKUPS to REC_CRC_DROPS (R192). -/
  cnt : List U64
  /-- Long records inserted in this Fix (R169). -/
  longUsed : Nat
  /-- The scanner's next bucket within the slice (R179). -/
  scanPos : Nat
  /-- Sets below CACHE_CLEAN_MIN in the order in which they fell (R175). -/
  cleanList : List Nat
  /-- Misses, and misses served without installation, of the window of loop 3 (R187). -/
  winMiss : Nat
  winSkip : Nat
  move : Option Move
  /-- Lookup requests by pipeline, oldest first, at most 64 each; and the pipeline whose FIFO is served next (R17). -/
  fifo : List (List Nat)
  rot : Nat
  /-- The mover has made its attempt of this Fix (R174). -/
  moverUsed : Bool
  /-- The damaged chart word (64 primary indices) that the scanner's visit is rebuilding (R193). -/
  rebuild : Option Nat
deriving DecidableEq, Repr

def sliceReset : Slice :=
  { stash := List.replicate 8 none, exq := [], e := false, flips := 0, tombs := [], events := [], locks := [],
    waits := [], cnt := List.replicate 13 0, longUsed := 0, scanPos := 0, cleanList := [], winMiss := 0, winSkip := 0,
    move := none, fifo := [[], [], [], []], rot := 0, moverUsed := false, rebuild := none }

/-- An open entry of the sequence guard (R171): its leader and the packets chained behind it, in order. -/
structure Guard where
  slice : Nat
  key : Bytes
  bucket : Nat
  pkts : List Nat
  /-- The bucket has returned, readable or not (R168). -/
  back : Option Bool
deriving DecidableEq, Repr

/-- A flow held behind a decision (R18, R199): its key, the packets in arrival order, the packets that PKT_NEXT has
passed. -/
structure Hold where
  key : Bytes
  slice : Nat
  pkts : List Nat
  next : Nat
deriving DecidableEq, Repr

structure Flow where
  slices : List Slice
  /-- Cached records by handle. -/
  cache : KMap CacheRec
  /-- CHART by primary index (R161). -/
  chart : KMap Bool
  guards : List Guard
  holds : List Hold
  ageNow : U32
  /-- The model's own counter behind least-recently-used order and stash order. -/
  stamp : Nat
  /-- Primary indices whose EXILED is held fixed at 255 (R170). -/
  exFixed : List Nat
  /-- Damaged units, by handle: insertion into their buckets is refused until they are rewritten (R170). -/
  refuse : List Nat
  /-- Boundaries since the last FLOW_EVENT_READ, while below 256 (R192). -/
  eventAge : Option Nat
  /-- The records of each slice as Autopilot latched them at step 4 (R40, R187). -/
  apRecs : List Nat
deriving DecidableEq, Repr

def flowReset : Flow :=
  { slices := [sliceReset, sliceReset, sliceReset, sliceReset], cache := [], chart := [], guards := [], holds := [],
    ageNow := 0, stamp := 0, exFixed := [], refuse := [], eventAge := none, apRecs := [] }

end Sys2Proof.Machine
end

