-- ==== Sys2Proof/Machine/PartsHbm.lean ====
section
/-! DEFINITION. State of the HBM controllers and arbiters (chapter 13), and the bytes of the stacks. -/

namespace Sys2Proof.Machine

open Sys2Proof

/-- A write that waits in a pseudo-channel's write queue: region, 64-byte line, and the bytes written, by offset in the
line (R312). A byte without a value is one of a block that keeps its bytes in `Hbm.mem` from the moment it decides on them: the
write takes its place in the queue and carries nothing. (Log: DESIGN CHOICE, log entry 88.) -/
structure HbmWrite where
  region : Nat
  line : Nat
  bytes : KMap (Option Byte)
  /-- Its place in the order in which requests entered the pseudo-channel (R313). -/
  seq : Nat
deriving DecidableEq, Repr

/-- A request with the arbiter port through which it came. -/
structure HbmEntry where
  port : Nat
  req : HbmReq
  /-- Its place in the order in which requests entered the pseudo-channel (R313). -/
  seq : Nat
deriving DecidableEq, Repr

/-- A read whose data is on its way back (R315): the data as taken at the issue. -/
structure HbmFlight where
  entry : HbmEntry
  data : Bytes
deriving DecidableEq, Repr

structure HbmBank where
  row : Option Nat
  /-- Consecutive hits on the open row (R311). -/
  hits : Nat
  queue : List HbmEntry
  /-- The row is held for paired writes (R316): the slices whose reads hold it, in order. (Log: DEDUCED, log entry 50.) -/
  hold : List Nat
  /-- Postponed refreshes, and a forced refresh that waits (R317). -/
  postponed : Nat
  forced : Bool
deriving DecidableEq, Repr

def hbmBankReset : HbmBank := { row := none, hits := 0, queue := [], hold := [], postponed := 0, forced := false }

/-- HBM_STATUS_READ's byte of a pseudo-channel. -/
inductive PcMode where
  | ready | retraining | powerDown | selfRefresh | dead
deriving DecidableEq, Repr

structure HbmPc where
  mode : PcMode
  banks : KMap HbmBank
  writes : List HbmWrite
  drain : Bool
  /-- The oldest write has waited WQ_AGE cycles (R312). -/
  aged : Bool
  lastBank : Nat
  flight : List HbmFlight
  /-- Retrainings that failed in a row (R319). -/
  trainFails : Nat
  /-- The number of the next request that enters (R313). -/
  next : Nat
deriving DecidableEq, Repr

def hbmPcReset : HbmPc :=
  { mode := .ready, banks := [], writes := [], drain := false, aged := false, lastBank := 15, flight := [],
    trainFails := 0, next := 0 }

/-- Counters of a stack (HBM_STATS_READ) in their order. -/
structure HbmStack where
  temp : BitVec 8
  doubled : Bool
  lastTrain : FixNo
  /-- The next pseudo-channel of the retraining rotation, and how many of a round of RETRAIN_DTEMP remain (R319). -/
  trainNext : Nat
  trainLeft : Nat
  roundTemp : BitVec 8
  counts : List U64
  /-- Request queues by port (R324). -/
  queues : KMap (List HbmReq)
  /-- Credits of the six classes (R323). -/
  credits : List Int
  firstClass : Nat
  rotPort : List Nat
  granted : List U64
  borrowed : List U64
  creditWait : List U64
deriving DecidableEq, Repr

/-- Credits of a class at weight w (R323). -/
def hbmCredits (w : Nat) : Int := 144 * w

/-- Log: DESIGN CHOICE, log entry 8. -/
def hbmStackReset : HbmStack :=
  { temp := 25, doubled := false, lastTrain := 0, trainNext := 0, trainLeft := 0, roundTemp := 25,
    counts := List.replicate 16 0, queues := [],
    credits := [hbmCredits 154, hbmCredits 48, hbmCredits 4, hbmCredits 24, hbmCredits 16, hbmCredits 10],
    firstClass := 0, rotPort := [0, 0, 0, 0, 0, 0], granted := List.replicate 6 0, borrowed := List.replicate 6 0,
    creditWait := List.replicate 6 0 }

/-- An answer to a request at the arbiter: port, requester, whether FAULTED, data. -/
structure HbmAnswer where
  port : Nat
  id : Nat
  faulted : Bool
  data : Bytes
deriving DecidableEq, Repr

structure Hbm where
  /-- The bytes of the stacks by region × 2^40 + region byte offset, in canonical form; an unlisted byte reads 0. -/
  mem : List Host.Cell
  pcs : KMap HbmPc
  stk : List HbmStack
  answers : List HbmAnswer
  /-- The hint word of the last request (R327). -/
  hint : U16
  /-- Requesters whose sideband mask is asserted (R326). -/
  masked : List Nat
  /-- Requests of a stalled requester that wait for room in their port's queue, by port, in order (R324). -/
  stalled : KMap (List HbmReq)
deriving DecidableEq, Repr

def hbmReset : Hbm :=
  { mem := [], pcs := [], stk := List.replicate 6 hbmStackReset, answers := [], hint := 0, masked := [], stalled := [] }

end Sys2Proof.Machine
end

