-- ==== Sys2Proof/Machine/PartsLodestar.lean ====
section
/-! DEFINITION. State of Lodestar (chapter 16): messages, the fault log, safe states, tenant drains, latches. -/

namespace Sys2Proof.Machine

open Sys2Proof

/-- The state of one source and class (R383 to R391). -/
inductive SafeState where
  | none | active | held
deriving DecidableEq, Repr

structure SrcState where
  st : SafeState
  /-- The boundary at which the quiet period ends (R389). -/
  quietEnd : FixNo
  /-- Ports and endpoints in scope (Table 16.8). -/
  ports : List Nat
  endpoints : List Nat
  /-- The source's recovery counter in the Logbook (R390). -/
  recoveries : U32
  /-- Recovery times of the last hour in extended TAI seconds, newest first, at most 31 (R390). -/
  history : List Nat
deriving DecidableEq, Repr

def srcStateReset : SrcState :=
  { st := .none, quietEnd := 0, ports := [], endpoints := [], recoveries := 0, history := [] }

/-- A fault log record (Table 16.4). -/
structure LogRec where
  msg : FaultMsg
  fix : FixNo
  coalesced : Nat
  seq : U32
deriving DecidableEq, Repr

/-- Tenant-table drain of one tenant (R377). -/
structure Drain where
  mask : BitVec 128
  fix : FixNo
deriving DecidableEq, Repr

def drainReset : Drain := { mask := 0, fix := 0 }

/-- A stored word damaged by FAULT_INJECT MODE 1 (R395): source, kind, address and the flipped bits. -/
structure Damage where
  source : Byte
  kind : Byte
  addr : BitVec 40
  flip : U64
deriving DecidableEq, Repr

structure Lodestar where
  grave : Bool
  factory : Bool
  /-- Entries into factory test mode recorded in the Logbook (R394). -/
  factoryEntries : U32
  /-- The unlock nonce that one MODE 1 attempt may use (R394). -/
  nonce : Option (BitVec 128)
  /-- Messages sent by blocks and not yet arrived (R379). -/
  wire : List FaultMsg
  /-- On-die ring, oldest first (R381). -/
  ring : List LogRec
  nextSeq : U32
  lost : U64
  /-- LOD_FAULT_HEAD, LOD_FAULT_TAIL: counts of 13 bits (R449). -/
  headCount : BitVec 13
  tailCount : BitVec 13
  headRefused : U16
  recSel : BitVec 12
  /-- Logbook ring, newest first, at most 1,024 (R381). -/
  book : List LogRec
  /-- Source and kind of the messages recorded in the Fix in progress (R380). -/
  inFix : List (Nat × Nat)
  /-- By source × 4 + class. -/
  states : KMap SrcState
  isoFault : Bool
  errN : Bool
  /-- Sources whose Class 2 state asserts ERR_N by bit 4 of their mask (R385). -/
  errHolders : List Nat
  /-- FTEST at the last release of SYS_RST_N (R394). -/
  ftest : Bool
  /-- Interrupts of Binnacle's firmware (R385, bit 1). -/
  bnIrqs : Nat
  /-- Tenants whose table entry has failed and is rewritten at the next boundary (R386). -/
  isoBad : List Nat
  drains : KMap Drain
  damage : List Damage
deriving DecidableEq, Repr

/-- Log: DESIGN CHOICE, log entry 8. -/
def lodestarReset : Lodestar :=
  { grave := false, factory := false, factoryEntries := 0, nonce := none, wire := [], ring := [], nextSeq := 0,
    lost := 0, headCount := 0, tailCount := 0, headRefused := 0, recSel := 0, book := [], inFix := [],
    states := [], isoFault := false, errN := false, errHolders := [], ftest := false, bnIrqs := 0,
    isoBad := [], drains := [], damage := [] }

end Sys2Proof.Machine
end

