-- ==== Sys2Proof/Machine/PartsPerf.lean ====
section
/-! DEFINITION. State of the performance counters and of Monarch tagging (chapter 19), and of a host ring as capture,
billing and Monarch rings use it (R267, R268). -/

namespace Sys2Proof.Machine

open Sys2Proof

/-- A host ring of slots (R267): tail, head word last read, and whether a slot was written in this Fix (R268). -/
structure HostRing where
  enable : Bool
  sizeLog2 : Nat
  /-- MSI-X vector, 0xFF for none. -/
  irq : Byte
  base : U64
  headAddr : U64
  shadow : U64
  tail : Nat
  head : Nat
  wrote : Bool
deriving DecidableEq, Repr

def hostRingReset : HostRing :=
  { enable := false, sizeLog2 := 0, irq := 0xFF, base := 0, headAddr := 0, shadow := 0, tail := 0, head := 0,
    wrote := false }

/-- Free slots of an enabled ring (R268). -/
def ringFree (r : HostRing) : Nat :=
  if r.enable then
    let n := 2 ^ r.sizeLog2
    n - 1 - ((r.tail + n - r.head % n) % n)
  else 0

/-- A performance counter (R435 to R438). -/
structure PerfCounter where
  value : U64
  ovf : Bool
  bad : Bool
  hit : Bool
  /-- Value and flags latched at step 4 of the last boundary (R437). -/
  latch : U64
  latchOvf : Bool
  latchHit : Bool
  /-- A clearing read of this boundary has been served, or a selection change has set the counter to 0 (R436, R437). -/
  cleared : Bool
  /-- The event selected at the latch, where a change of this boundary has replaced it (R437). -/
  oldEvent : Option Nat
  hiLatch : U32
  /-- The value crossed its threshold in this Fix (R435). -/
  crossed : Bool
deriving DecidableEq, Repr

def perfCounterReset : PerfCounter :=
  { value := 0, ovf := false, bad := false, hit := false, latch := 0, latchOvf := false, latchHit := false,
    cleared := false, oldEvent := none, hiLatch := 0, crossed := false }

/-- A Monarch record in a tag store (R440, Table 19.4): the packet's handle, and the record as it fills. -/
structure MonRec where
  pkt : Nat
  tagId : U32
  ingTs : U32
  byMark : Bool
  points : List U32
deriving DecidableEq, Repr

structure Perf where
  counters : KMap PerfCounter
  /-- A threshold crossing waits for its interrupt at the next boundary (R435). -/
  tokens : Nat
  tagSeq : List Nat
  store : List (List MonRec)
  fifo : List Bytes
  /-- The next record of the pipeline carries GAP (R442). -/
  gap : List Bool
  ring : HostRing
  tagged : U64
  skipped : U64
  storeFull : U64
  monLost : U64
  delivered : U64
deriving DecidableEq, Repr

def perfReset : Perf :=
  { counters := [], tokens := 4, tagSeq := [0, 0, 0, 0], store := [[], [], [], []], fifo := [],
    gap := [false, false, false, false], ring := hostRingReset, tagged := 0, skipped := 0, storeFull := 0,
    monLost := 0, delivered := 0 }

end Sys2Proof.Machine
end

