-- ==== Sys2Proof/Machine/PartsMetering.lean ====
section
/-! DEFINITION. State of per-minute metering and of the billing chain (chapter 14). -/

namespace Sys2Proof.Machine

open Sys2Proof

/-- The on-die counters of one bank of one endpoint in the order of Table 14.1 (ING, POL, EG; packets, octets), with the
uncorrectable-error mark of R337. -/
structure EpBank where
  residue : List Nat
  err : Bool
deriving DecidableEq, Repr

def epBankReset : EpBank := { residue := [0, 0, 0, 0, 0, 0], err := false }

/-- What a flip leaves to the seal (R28, R336): boundary M, minute, length, flags, the endpoints valid at M with their
tenants, MER_SYNC byte. -/
structure Closing where
  fixM : FixNo
  minute : Nat
  lenS : Nat
  stepped : Bool
  late : Bool
  sync : Nat
  valid : List (Nat × Nat)
  /-- Boundaries since M. -/
  age : Nat
deriving DecidableEq, Repr

/-- DELIVERY of METER_CLOSE_INFO. -/
inductive Delivery where
  | pending | inProgress | done | lost
deriving DecidableEq, Repr

/-- A closed block in staging (R336, R340). -/
structure Block where
  minute : Nat
  header : Bytes
  records : Nat
  prevHead : Bytes
  head : Option Bytes
  delivery : Delivery
  /-- Slots delivered: 0 before the header, then 1 + records sent. -/
  sent : Nat
  ckpt : Bool
  late : Bool
  /-- Boundaries since M. -/
  age : Nat
deriving DecidableEq, Repr

/-- A checkpoint in the Logbook (R339). -/
structure Ckpt where
  minute : Nat
  fixM : Nat
  records : Nat
  flags : Nat
  head : Bytes
deriving DecidableEq, Repr

structure Metering where
  /-- The active bank. -/
  bank : Bool
  /-- On-die counters by bank × 2^18 + endpoint. -/
  eps : KMap EpBank
  /-- Endpoints frozen at some instant of the bank's minute, and whether all were (R337), by bank. -/
  frozen0 : List Nat
  frozen1 : List Nat
  allFrozen0 : Bool
  allFrozen1 : Bool
  /-- The minute that has flipped and is not sealed. -/
  closing : Option Closing
  /-- Staged blocks, oldest first, at most one of each parity. -/
  staged : List Block
  /-- Minutes no longer staged whose delivery is known: minute, DELIVERY, records delivered; newest first (R343). -/
  ended : List (Nat × Delivery × Nat)
  /-- The head of the last closed block and its minute (R338). -/
  lastMinute : Option Nat
  lastHead : Option Bytes
  /-- No block has been closed since reset. -/
  first : Bool
  /-- A mismatch message has been raised in this Fix (R333). -/
  mismatched : Bool
  /-- Records left to write in this Fix, and slots written in it (R340, R266). -/
  rateLeft : Nat
  slotsUsed : Nat
  ring : HostRing
  unmetered : U64
  mismatch : U64
  frozenDiscarded : U64
  spills : U64
  blocksClosed : U64
  billLost : U64
  ckptsWritten : U64
  /-- The Logbook's checkpoint ring, newest first, at most 4,096 (R339). -/
  ckpts : List Ckpt
deriving DecidableEq, Repr

/-- Log: DESIGN CHOICE, log entry 8. -/
def meteringReset : Metering :=
  { bank := false, eps := [], frozen0 := [], frozen1 := [], allFrozen0 := false, allFrozen1 := false, closing := none,
    staged := [], ended := [], lastMinute := none, lastHead := none, first := true, mismatched := false, rateLeft := 64,
    slotsUsed := 0, ring := hostRingReset, unmetered := 0, mismatch := 0, frozenDiscarded := 0, spills := 0,
    blocksClosed := 0, billLost := 0, ckptsWritten := 0, ckpts := [] }

end Sys2Proof.Machine
end

