-- ==== Sys2Proof/Machine/PartsPair.lean ====
section
/-! DEFINITION. State of pair operation and of the Rhumb link (chapter 15). -/

namespace Sys2Proof.Machine

open Sys2Proof

/-- Pair states in the order of PAIR_STATUS_READ (R368). -/
inductive PairState where
  | solo | down | hello | mismatch | resync | paired | lost
deriving DecidableEq, Repr

/-- The sweep of R364: next bucket, then the stash, then extension buffers of the own half by EXT line. -/
structure Sweep where
  bucket : Nat
  stashDone : Bool
  /-- Lines of allocated buffers still to be sent, once they have been listed. -/
  ext : Option (List Nat)
  sent : Nat
  ended : Bool
  /-- The Fix whose share has been swept. -/
  last : Option FixNo
deriving DecidableEq, Repr

def sweepReset : Sweep := { bucket := 0, stashDone := false, ext := none, sent := 0, ended := false, last := none }

/-- A received event that waits for application: the event, the pool-1 buffer that holds it and its neighbour, and
whether it has been deferred (R357). -/
structure RxEvent where
  ev : PairEvent
  buf : Option Nat
  deferred : Bool
deriving DecidableEq, Repr

/-- The Rhumb status registers as latched at step 4 of a boundary (Table 20.6, R452). -/
structure RhLatch where
  st : PairState
  cause : Nat
  roles : BitVec 2
  peerRoles : BitVec 2
  peerPower : Nat
  txSeq : Nat
  peerApplied : Nat
  lag : Nat
  lastRx : FixNo
  journal : Nat
  epoch : Nat
deriving DecidableEq, Repr

def rhLatchReset : RhLatch :=
  { st := .solo, cause := 0, roles := 3, peerRoles := 0, peerPower := 0, txSeq := 0, peerApplied := 0, lag := 0,
    lastRx := 0, journal := 0, epoch := 0 }

structure Pair where
  st : PairState
  /-- The state entered at the next boundary (R347). -/
  want : Option PairState
  cause : Nat
  /-- A HELLO that passes every check has been received, and the peer's HELLO has reported the same. -/
  helloOk : Bool
  roles : BitVec 2
  peerRoles : BitVec 2
  peerPower : Nat
  peerState : Nat
  peerUid : BitVec 128
  /-- Next event sequence number to give, events queued and not sent, events sent and not acknowledged (R353, R354). -/
  txSeq : Nat
  txq : List PairEvent
  retx : List PairEvent
  /-- Own events that the peer has not reported applied, oldest first: number and Fix (R360, R368). -/
  lagq : List (Nat × FixNo)
  /-- Events of `retx` to be sent again before new ones. -/
  resend : List PairEvent
  rxSeq : Nat
  peerRx : Nat
  peerApplied : Nat
  rxq : List RxEvent
  /-- A frame with NAK, an acknowledgement, is due (R353). -/
  nakDue : Bool
  ackDue : Bool
  /-- SUP: an event covered by APPLIED_ESEQ has been deferred (Table 15.3). -/
  sup : Bool
  budget : Int
  /-- CLAIM_EPOCH of homes 1 and 2, kept in the Logbook. -/
  epoch : List Nat
  /-- A claim sent and not acknowledged: home and epoch. -/
  claims : List (Nat × Nat)
  homeSince : List Nat
  /-- Boundaries since the last valid frame was received, and its Fix. -/
  quiet : Nat
  lastRx : FixNo
  /-- RH_LANES: lanes aligned [3:0], FEC lock [7:4], signal [11:8]. -/
  lanes : BitVec 12
  /-- What the Rhumb status registers but RH_LANES show (R452). -/
  latch : RhLatch
  /-- The homes to claim at the next boundary after a loss (R362). -/
  takeover : Bool
  /-- The roles to be corrected at the first boundary after RESYNC is entered (R363). -/
  rejoin : Bool
  sweep : Option Sweep
  /-- The peer's RESYNC_END has been applied, and the peer has reported ours applied (R365). -/
  endApplied : Bool
  peerEnded : Bool
  /-- Refresh bitmap by handle (R364). -/
  refresh : List Nat
  /-- The mirror journal of Cocoon, and whether it is being replayed (R366). -/
  journal : List PairEvent
  replaying : Bool
  /-- The journal has filled: the pair resynchronises at the first boundary after the exit (R408). -/
  journalLost : Bool
  /-- Chain heads received, newest first, at most 64. -/
  heads : List Bytes
  cnt : List U64
  lagMax : Nat
deriving DecidableEq, Repr

/-- After reset the pair is SOLO until PAIR_PRESENT is sampled (R346, R370). (Log: DESIGN CHOICE, log entry 8.) -/
def pairReset : Pair :=
  { st := .solo, want := none, cause := 0, helloOk := false, roles := 3, peerRoles := 0, peerPower := 0, peerState := 0,
    peerUid := 0, txSeq := 0, txq := [], retx := [], lagq := [], resend := [], rxSeq := 0, peerRx := 0,
    peerApplied := 0, rxq := [], nakDue := false, ackDue := false, sup := false, budget := 4096, epoch := [0, 0],
    claims := [], homeSince := [0, 0], quiet := 0, lastRx := 0, lanes := 0, latch := rhLatchReset, takeover := false, rejoin := false, sweep := none,
    endApplied := false, peerEnded := false, refresh := [], journal := [], replaying := false, journalLost := false, heads := [],
    cnt := List.replicate 16 0, lagMax := 0 }

end Sys2Proof.Machine
end

