-- ==== Sys2Proof/Machine/PartsPools.lean ====
section
/-! DEFINITION. State of the buffer pool manager (chapter 12). -/

namespace Sys2Proof.Machine

open Sys2Proof

structure PoolCounts where
  allocs : U64
  frees : U64
  nobuf : U64
  doubleFree : U64
  foreignFree : U64
  sizeRefused : U64
deriving DecidableEq, Repr

def poolCountsReset : PoolCounts :=
  { allocs := 0, frees := 0, nobuf := 0, doubleFree := 0, foreignFree := 0, sizeRefused := 0 }

/-- An account's figures in one pool (R297, R304). -/
structure AcctUse where
  use : Nat
  high : Nat
  nobuf : U64
deriving DecidableEq, Repr

def acctUseReset : AcctUse := { use := 0, high := 0, nobuf := 0 }

structure Pools where
  /-- Allocated buffers: reference to owner ID (R294, R296). Owner 0xFFF is quarantine (R305). -/
  alloc : KMap Nat
  /-- Provisional grants: reference to the final owner that the commit gives it (R299). -/
  prov : KMap Nat
  /-- By account × 8 + pool. -/
  acct : KMap AcctUse
  /-- By pool. -/
  cnt : KMap PoolCounts
  /-- POOL_LOW has been raised and the shared free count has not risen since, by pool. -/
  low : List Nat
  /-- The port at which the last cycle's serving started (R298). -/
  start : Nat
  /-- Answers of the last cycle's requests in serving order: port, reference or none (R298). -/
  answers : List (Nat × Option Nat)
deriving DecidableEq, Repr

def poolsReset : Pools :=
  { alloc := [], prov := [], acct := [], cnt := [], low := [], start := 0, answers := [] }

end Sys2Proof.Machine
end

