-- ==== Sys2Proof/Machine/PartsPorts.lean ====
section
/-! DEFINITION. State of the port complex (chapter 4) and of Meridian (chapter 5). -/

namespace Sys2Proof.Machine

open Sys2Proof

/-- Port states (Table 4.3). -/
inductive PortState where
  | disabled | negotiate | train | align | up | downPend
deriving DecidableEq, Repr

/-- Port counters of Table 4.4. -/
structure PortCounts where
  rxOctets : U64
  rxFrames : U64
  rxFcsErr : U64
  rxRunt : U64
  rxOversize : U64
  rxOverrun : U64
  rxPause : U64
  rxInbandDrop : U64
  txOctets : U64
  txFrames : U64
  txStomp : U64
  txOversizeStomp : U64
  txDropDown : U64
  txPause : U64
  fecCorr : U64
  fecUncorr : U64
  fecSymbol : U64
  linkDown : U64
  linkGlitch : U64
deriving DecidableEq, Repr

def portCountsReset : PortCounts :=
  { rxOctets := 0, rxFrames := 0, rxFcsErr := 0, rxRunt := 0, rxOversize := 0, rxOverrun := 0, rxPause := 0,
    rxInbandDrop := 0, txOctets := 0, txFrames := 0, txStomp := 0, txOversizeStomp := 0, txDropDown := 0,
    txPause := 0, fecCorr := 0, fecUncorr := 0, fecSymbol := 0, linkDown := 0, linkGlitch := 0 }

structure Port where
  st : PortState
  /-- A loss is present, seen in UP (Table 4.3). -/
  loss : Bool
  /-- When the loss or the alignment began (R96), in ns since reset. -/
  since : Nat
  /-- Alignment is present (Table 4.3, ALIGN). -/
  aligned : Bool
  /-- UP_HOLD or DOWN_HOLD has elapsed, so the port enters or leaves UP at the next boundary. -/
  holdDone : Bool
  /-- The port has been DISABLED since an earlier boundary (R94). -/
  idle : Bool
  /-- Pause timers by priority: when each ends, in ns since reset, if it runs (R99). -/
  pauseEnd : List (Option Nat)
  cnt : PortCounts
  /-- MAC_STATUS, MAC_STICKY and MAC_UP_FIX of the lane (Table 20.8). -/
  sticky : BitVec 6
  upFix : FixNo
  /-- Signal, CDR lock, block lock, AM lock of the lane; local fault, remote fault, high BER now. -/
  lane : BitVec 4
  faultNow : BitVec 3
deriving DecidableEq, Repr

def portReset : Port :=
  { st := .disabled, loss := false, since := 0, aligned := false, holdDone := false, idle := true,
    pauseEnd := List.replicate 8 none, cnt := portCountsReset, sticky := 0, upFix := 0, lane := 0, faultNow := 0 }

/-! ### Meridian -/

/-- Synchronisation states (Table 5.3). -/
inductive SyncState where
  | freerun | acquire | locked | holdover
deriving DecidableEq, Repr

/-- Timed-action kinds (Table 5.5); `minute` is Binnacle's action of slots 0 and 1 (R124). -/
inductive ActKind where
  | pinLevel | pinPulse | pinPeriodic | set | commit | role | minute
deriving DecidableEq, Repr

structure TimedSlot where
  armed : Bool
  kind : ActKind
  pin : Nat
  level : Nat
  target : U32
  width : Nat
  period : Nat
  obj : Obj
  value : U64
  lastStatus : Nat
  winRank : Nat
  lastFix : FixNo
  fireCount : U32
deriving DecidableEq, Repr

def timedSlotReset : TimedSlot :=
  { armed := false, kind := .pinLevel, pin := 0, level := 0, target := 0, width := 0, period := 0, obj := 0,
    value := 0, lastStatus := 0, winRank := 0, lastFix := 0, fireCount := 0 }

/-- An edge in a capture FIFO (R115). -/
structure CapEdge where
  time : U32
  rising : Bool
deriving DecidableEq, Repr

/-- An edge of a TIME_TRIG pin that an accepted action has placed: the slot, the pin, the level, when in ns since reset,
and whether it is the falling edge of a pulse. -/
structure PinEdge where
  slot : Nat
  pin : Nat
  level : Bool
  time : Nat
  fall : Bool
deriving DecidableEq, Repr

structure Meridian where
  sync : SyncState
  utcValid : Bool
  leap61 : Bool
  leap59 : Bool
  utcOffset : U16
  offsetNs : U32
  pathDelay : U32
  masterId : U64
  masterSelected : Bool
  /-- When HOLDOVER was entered, in ns since reset (R126). -/
  holdoverStart : Nat
  /-- Consecutive Sync intervals within 100 ns (Table 5.3). -/
  goodSyncs : Nat
  /-- Mean addend of the last 16 s in LOCKED (Table 5.3). -/
  heldAddend : U64
  /-- The last PPS_IN edge, in ns since reset (R116), and when the last pulse of PPS_OUT rose (R114). -/
  ppsLast : Nat
  ppsRise : Nat
  wrapTai : U64
  wrapTaiHiLatch : U32
  wrapSeq : U32
  /-- A wrap or a step has happened and the anchor is not rewritten yet; steps whose message waits for it (R104, R111). -/
  anchorDue : Bool
  stepsToReport : List Int
  stepCount : U32
  cap0 : List CapEdge
  cap1 : List CapEdge
  ppsIn : List CapEdge
  capLost : List Nat
  slots : KMap TimedSlot
  /-- Levels of TIME_TRIG[3:0] and PPS_OUT. -/
  trig : BitVec 4
  ppsOut : Bool
  /-- Edges of the time pins to come (R117, R120). -/
  edges : List PinEdge
  /-- Extended TAI ns of the boundary of the last fired minute action (R110). -/
  lastMinute : Option Nat
  /-- Extended TAI ns of the minute that the armed action closes (R123). -/
  nextMinuteTai : Nat
  /-- The UTC minute that the armed action closes, and its length in seconds (R123). -/
  nextMinute : Nat
  nextLen : Nat
  /-- A leap second falls at the end of that minute: the UTC offset after it (R127). -/
  nextLeap : Option U16
  nextM : FixNo
  /-- The minute action waits for the window of R124 to open at this boundary. -/
  windowAt : Option FixNo
  /-- The slot that the next minute action uses (R124). -/
  minuteSlot : Nat
  /-- The action armed for M fires later than M (R125), and a step happened in the minute. -/
  minuteLate : Bool
  stepped : Bool
  /-- TIME less the time of the selected master as last measured: whose seconds PPS_IN disciplining uses (R116). -/
  masterOffset : Int
  /-- The leap second that the flags announce has ended its minute, and the master has not changed offset and flags yet (R123). -/
  leapTaken : Bool
  /-- The minute action has fired at the boundary in progress and the bank flips at step 8: FIX_M, and LATE (R40, R125). -/
  flipDue : Option (FixNo × Bool)
  /-- Two-step Sync frames sent whose Follow_Up is due: port and egress TIME_NS (R108). -/
  followUps : List (Nat × Nat)
  /-- The addends of the last 16 s in LOCKED, newest first: when each was set, in ns since reset, and the addend. -/
  addends : List (Nat × Nat)
deriving DecidableEq, Repr

def meridianReset : Meridian :=
  { sync := .freerun, utcValid := false, leap61 := false, leap59 := false, utcOffset := 0, offsetNs := 0,
    pathDelay := 0, masterId := 0, masterSelected := false, holdoverStart := 0, goodSyncs := 0,
    heldAddend := 0x100000000, ppsLast := 0, ppsRise := 0, wrapTai := 0, wrapTaiHiLatch := 0, wrapSeq := 0, anchorDue := false,
    stepsToReport := [], stepCount := 0, cap0 := [], cap1 := [], ppsIn := [], capLost := [0, 0, 0], slots := [],
    trig := 0, ppsOut := false, edges := [], lastMinute := none, nextMinuteTai := 0, nextMinute := 0, nextLen := 60,
    nextLeap := none, nextM := 0, windowAt := none,
    minuteSlot := 0, minuteLate := false, stepped := false, masterOffset := 0, leapTaken := false, flipDue := none,
    followUps := [],
    addends := [] }

end Sys2Proof.Machine
end

