-- ==== Sys2Proof/Machine/PartsSkip.lean ====
section
/-! DEFINITION. State of the Skippers (chapter 8), of their microcode stores (chapter 9) and of the load-balancing
pools. -/

namespace Sys2Proof.Machine

open Sys2Proof

/-- STATE of SKIP_STATUS_READ (R224). -/
inductive EngState where
  | idle | running | waiting | parked | stalled | lost
deriving DecidableEq, Repr

/-- Why an engine takes no dispatch (R216, R236): the Class 2 state of its message's source, SKIP_RESET until the next
boundary, a domain without power. -/
inductive OutWhy where
  | quiet (src : Nat)
  | reset | power
deriving DecidableEq, Repr

/-- A memory operation in flight (R201): its code (Table 9.7), issue order, CYCLES at its issue, its HBM hint, whether it
waits for a lock, the locks still to be taken with their read flag and local address, the lines that it touches, the
reads that are still to be made with their local addresses, and the outcome as known at the issue. -/
structure MemOp where
  code : Nat
  order : Nat
  cycles : Nat
  hint : Option Nat
  wait : Bool
  locks : List (Nat × Bool × Nat)
  lines : List (Nat × Nat)
  reads : List (Nat × Nat × Nat × Nat)
  /-- Local addresses with the bytes that the operation brings at its completion, as taken when it was issued. -/
  data : List (Nat × Bytes)
  /-- Requests of the operation that the arbiters have not answered. -/
  out : List HbmReq
  /-- Locks that the engine held at the issue, and those that the operation has taken beside them. -/
  before : List Nat
  took : List Nat
  status : Nat
  result : Nat
deriving DecidableEq, Repr

/-- One of the 8 tags of an engine (R201). -/
structure Tag where
  op : Option MemOp
  done : Bool
  /-- The routine has seen MEM_DONE through a WAIT. -/
  seen : Bool
  status : Nat
  result : Nat
deriving DecidableEq, Repr

def tagReset : Tag := { op := none, done := false, seen := false, status := 0, result := 0 }

/-- A line of a write buffer (R202): HBM region 0 for a bucket unit, 1 for an extension line; byte address, byte mask,
64 bytes, covering bucket. -/
structure WLine where
  region : Nat
  addr : Nat
  mask : U64
  bytes : Bytes
  cover : Nat
deriving DecidableEq, Repr

/-- An entry of an undo log (R203): an ADD of an operand at a word, or a BSET of a bit of a line. -/
structure Undo where
  isAdd : Bool
  addr : Nat
  operand : Nat
deriving DecidableEq, Repr

/-- What started the routine (Table 8.2): a DECIDE of a flow, a SKIP_RUN of a multi-Fix slot, a self-test (R236), a
service sweep. -/
inductive DispWhy where
  | decide (key : Bytes)
  | run (slot : Nat)
  | selfTest
deriving DecidableEq, Repr

structure Engine where
  st : EngState
  out : Option OutWhy
  gpr : List U64
  pc : Nat
  last : U64
  fz : Bool
  fn : Bool
  fc : Bool
  stack : List Nat
  /-- The restart point and the registers saved with it (R209). -/
  restart : Option (Nat × List U64)
  /-- The routine has issued an operation after which RESTART is illegal (R233). -/
  issued : Bool
  /-- The local store: bytes that are not zero. -/
  ls : List Host.Cell
  tags : List Tag
  nextOrder : Nat
  held : List Nat
  /-- The routine has held a lock since its dispatch: until then HELD_HIGH has its reset value (R195). -/
  heldOnce : Bool
  replays : Nat
  cycles : Nat
  /-- Boundaries since the dispatch (R211). -/
  age : Nat
  why : Option DispWhy
  routine : Nat
  handle : Nat
  descr : Bytes
  wbuf : List WLine
  undo : List Undo
  /-- Deferred BCLR operations: extension line and bit; buffers to free; provisional buffers (R201, R203). -/
  bclr : List (Nat × Nat)
  frees : List Nat
  allocs : List Nat
  /-- Tags in the mask of the WAIT in progress. -/
  waitMask : Nat
  /-- A LOCK_TIMEOUT has been received and not acted on (R231). -/
  timedOut : Bool
  /-- The engine has been lost and the boundary's cleanup has not run (R214), and whether its decision then fails with a
  message. -/
  lossDue : Bool
deriving DecidableEq, Repr

/-- Log: DESIGN CHOICE, log entry 8. -/
def engineReset : Engine :=
  { st := .idle, out := none, gpr := List.replicate 32 0, pc := 0, last := 0, fz := false, fn := false, fc := false,
    stack := [], restart := none, issued := false, ls := [], tags := List.replicate 8 tagReset, nextOrder := 0,
    held := [], heldOnce := false, replays := 0, cycles := 0, age := 0, why := none, routine := 0, handle := 0, descr := [], wbuf := [],
    undo := [], bclr := [], frees := [], allocs := [], waitMask := 0, timedOut := false, lossDue := false }

/-- A commit handed over (R206): boundaries until it is applied, its work, its locks, the held flow that it decides and
the SKIP_RUN that it ends. -/
structure Commit where
  engine : Nat
  wait : Nat
  lines : List WLine
  /-- Extension lines that its ATOMs have changed (R356). -/
  atoms : List Nat
  bclr : List (Nat × Nat)
  frees : List Nat
  allocs : List Nat
  locks : List Nat
  why : Option DispWhy
  gpr0 : Nat
  /-- Room taken in the EXILED queues, by slice (R162). -/
  exUps : List Nat
deriving DecidableEq, Repr

/-- A cluster's microcode (R227, R237, R238): UCODE_INFO's fields, the self-test in progress. -/
structure Cluster where
  state : Nat
  bundleId : Nat
  version : Nat
  failMask : Nat
  loadFix : FixNo
  expect : U64
  /-- Engines whose self-test runs. -/
  testing : List Nat
  /-- A load is in progress: the engines are held out (R238). -/
  loading : Bool
  /-- BUNDLE_DIGEST of the bundle placed, and whether it is not from the running image (Table 18.7). -/
  digest : Bytes
  foreign : Bool
deriving DecidableEq, Repr

def clusterReset : Cluster :=
  { state := 0, bundleId := 0, version := 0, failMask := 0, loadFix := 0, expect := 0, testing := [], loading := false,
    digest := [], foreign := false }

structure Skip where
  engines : KMap Engine
  clusters : KMap Cluster
  /-- Microwords by cluster × 16,384 + address, nanowords by cluster × 1,024 + address, entries by cluster × 64 +
  routine. -/
  mw : KMap U32
  nw : KMap (BitVec 192)
  entry : KMap U16
  commits : List Commit
  /-- Decisions that fail at the next boundary: engine, key, and whether DECIDE_FAIL is raised (R210, R214). -/
  failing : List (Nat × Bytes × Bool)
  /-- SKIP_RUN outcomes that wait for their command: slot, status, result. -/
  ended : List (Nat × Nat × Nat)
  /-- Telemetry ring, oldest first (R224), and boundaries since its last read while below 512. -/
  telem : List Bytes
  telemAge : Option Nat
  cnt : List U64
  /-- Pick counts of the window and of the last closed window, by pool × 256 + bucket and pool × 64 + backend (R219). -/
  pickB : KMap Nat
  pickK : KMap Nat
  closedB : KMap Nat
  closedK : KMap Nat
  /-- The microcode section of the running image, and of the image last accepted (R237, R240). -/
  ucRun : Bytes
  ucNew : Option Bytes
  /-- SKIP_CLUSTER_EN as it stood before the apply set of the last boundary (R238). -/
  enWas : U32
  /-- Load-balancing words found damaged since the last boundary, which rewrites them (R218). -/
  lbBad : List Nat
deriving DecidableEq, Repr

def skipReset : Skip :=
  { engines := [], clusters := [], mw := [], nw := [], entry := [], commits := [], failing := [], ended := [],
    telem := [], telemAge := none, cnt := List.replicate 16 0, pickB := [], pickK := [], closedB := [], closedK := [], ucRun := [],
    ucNew := none, enWas := 0xFFFFFFFF, lbBad := [] }

end Sys2Proof.Machine
end

