-- ==== Sys2Proof/Machine/PartsSwitch.lean ====
section
/-! DEFINITION. State of the packet path: packets with their metadata (chapter 6), the switch core (chapter 10) and the
traffic manager (chapter 11). -/

namespace Sys2Proof.Machine

open Sys2Proof

/-- Where a packet stands on its path (R15). -/
inductive PktStage where
  /-- Being received or waiting for its first parse. -/
  | ingress
  /-- Held at stage 6: its lookup cannot be issued while the slice's FIFO or the wait store is full (R17, R172). -/
  | stage6
  /-- Its flow lookup has been issued at stage 6 and not served. -/
  | lookup
  /-- Chained on the sequence guard or waiting for a bucket read. -/
  | chained
  /-- Held behind a Skipper's decision (R18, R199). -/
  | held
  /-- The slice has answered, or the decision is known; stages 7 to 12 have not run. -/
  | answered
  /-- Stage 12 has been passed in this pass. -/
  | stage12
  /-- In the recirculation FIFO. -/
  | recirc
  /-- In a replicator queue (R259). -/
  | replicate
  /-- Admitted: its copies are in queues or on the wire. -/
  | admitted
deriving DecidableEq, Repr

/-- The accounting part that holds a packet's cells before admission (Table 10.1). -/
inductive CellPart where
  | staging | allowance | queues
deriving DecidableEq, Repr

/-- How a received frame was found bad (R253). -/
inductive TailState where
  | open | good | fcs | oversize | truncated
deriving DecidableEq, Repr

/-- What the parser found of one encapsulation level (R475): offsets of the IP and transport headers and their roles. -/
structure Level where
  ipOff : Option Nat
  ipRole : Nat
  l4Off : Option Nat
  l4Role : Nat
  /-- The Next Header of the last header that has one, and a non-first fragment was seen. -/
  nextHdr : Nat
  frag : Bool
deriving DecidableEq, Repr

def levelReset : Level := { ipOff := none, ipRole := 0, l4Off := none, l4Role := 0, nextHdr := 0, frag := false }

/-- The answer of a slice as the packet carries it (R167): action word, the address and port of REWRITE, and the level
from which the key was taken. -/
structure Answer where
  status : Nat
  handle : U32
  action : U32
  gen : U16
  rwAddr : Nat
  rwPort : Nat
  level : Level
deriving DecidableEq, Repr

structure Pkt where
  port : Nat
  /-- The frame as received so far, FCS included once whole. -/
  rx : Bytes
  /-- The frame as it will be sent so far: `rx` after DECAP and rewrites (R143, R167). -/
  tx : Bytes
  tail : TailState
  ingTs : U32
  /-- The sixteenths of a ns of the ingress timestamp (R112). -/
  ingSub : BitVec 4
  /-- Metadata bus (Table 6.4). -/
  bus : BitVec 512
  stage : PktStage
  part : CellPart
  /-- Cells that the frame holds. -/
  cells : Nat
  /-- Copies not yet sent or discarded (the cells' reference count, R247). -/
  refs : Nat
  /-- Cells charged to the shared pool, and to the port priority's shared use and headroom (R249, R260). -/
  multicast : Bool
  /-- Header vector of the pass, sparse: a byte not listed reads zero (R130). -/
  hv : List Host.Cell
  /-- Header parse results of the pass: payload offset, level-2 start (offset, node), the two levels. -/
  payOff : Nat
  lvl2 : Option (Nat × Nat)
  levels : List Level
  /-- Stages after a GOTO that are skipped end here: the next stage to act (Table 6.5). -/
  skipTo : Nat
  pmClass : Option Nat
  /-- Scan result: exit state depth bytes, scanned bytes, whether the window reached the end (R153). -/
  pmKept : Bytes
  pmScanned : Nat
  pmWhole : Bool
  /-- What the stitch unit found: the lowest pattern, a lost continuity, no free lane (R153, Table 6.7). -/
  streamHit : Option Nat
  streamGap : Bool
  laneMiss : Bool
  ans : Option Answer
  /-- The decided drop of a failed decision, by reason (R210). -/
  failDrop : Option Nat
  /-- The epoch count of a slice that holds the packet: slice × 2 + E (R181). -/
  epoch : Option Nat
  /-- The packet has been held behind a decision (R181). -/
  wasHeld : Bool
  /-- Bytes of the frame that have not arrived yet. -/
  coming : Bytes
  /-- Ingress counters: 0 not due, 1 due at the tail, 2 counted (Table 14.1). -/
  ingMet : Nat
  /-- Port priority that its cells count towards, port × 8 + TC, fixed at admission (R248, R250). -/
  pg : Nat
  /-- Counted among the packets of its generation (R148). -/
  counted : Bool
  /-- Stored metadata and header buffers (Table 12.2), by reference. -/
  bufs : List Nat
  /-- Binnacle's own frame: a system tag that passes at every port (R376). -/
  system : Bool
  monarch : Bool
  /-- A PTP event message in transit through the transparent clock (R107). -/
  ptp : Bool
  /-- PORT_MAX_FRAME as the frame's first byte found it (R41, R98). -/
  maxLen : Nat
  /-- The pipeline's fields as the packet found them when its pass began (R41): subsystem 2, by object ID. -/
  passCfg : KMap U64
  /-- The members of its multicast group as they stood at its admission (R259): queue, and whether it is pruned. -/
  members : List (Nat × Bool)
  /-- A multicast frame that found no continuation cell before it was replicated (R245). -/
  starved : Bool
deriving DecidableEq, Repr

/-- A copy in an egress queue (R244, R252). -/
structure Copy where
  pkt : Nat
  queue : Nat
  /-- Charges: guarantee, shared pool, headroom cells. -/
  g : Nat
  sh : Nat
  hd : Nat
  cutThrough : Bool
  admitted : U32
  tc : Nat
  /-- Its tenant's drain has ended: it is discarded when it reaches the head of its queue (R377). -/
  expired : Bool
  /-- The lowest member's copy of a multicast frame, or a unicast copy (R440). -/
  first : Bool
deriving DecidableEq, Repr

/-- A copy on the wire (R278 to R281, R256). -/
structure TxState where
  copy : Copy
  tier : Nat
  startNs : U32
  /-- The sixteenths of a ns of the egress timestamp (R112). -/
  startSub : BitVec 4
  /-- Cells already sent. -/
  sent : Nat
  /-- The copy has ended early: bytes sent and stomped (R255). -/
  cut : Option Nat
  lost : Bool
  /-- PORT_MAX_FRAME of the egress port as the copy's start found it (R41, R98). -/
  maxLen : Nat
deriving DecidableEq, Repr

structure QueueState where
  copies : List Copy
  /-- Guaranteed and shared cells held (R244). -/
  g : Nat
  sh : Nat
  /-- Headroom cells held by the queue's copies. -/
  hd : Nat
  /-- Token buckets in milli-bits, spent from full (R282): depth × 8,000 less the value here is the token count. -/
  peakUsed : Int
  commUsed : Int
  deficit : Int
  txFrames : U64
  txOctets : U64
  depthMax : Nat
  delayMax : Nat
  sample : BitVec 128
deriving DecidableEq, Repr

def queueReset : QueueState :=
  { copies := [], g := 0, sh := 0, hd := 0, peakUsed := 0, commUsed := 0, deficit := 0, txFrames := 0, txOctets := 0,
    depthMax := 0, delayMax := 0, sample := 0 }

/-- Port priority state (R248 to R250), by port × 8 + TC. -/
structure PrioState where
  used : Nat
  hdrm : Nat
  xoff : Bool
  /-- A transition has not been sent (R250). -/
  due : Bool
deriving DecidableEq, Repr

def prioReset : PrioState := { used := 0, hdrm := 0, xoff := false, due := false }

structure PolicerState where
  /-- Spent tokens below full, in milli-bits. -/
  used : Int
  dropFrames : U64
  dropOctets : U64
deriving DecidableEq, Repr

def policerReset : PolicerState := { used := 0, dropFrames := 0, dropOctets := 0 }

/-- Switch-core drop counters of a port (R270). -/
structure ScPort where
  admitDrop : U64
  hdrmDrop : U64
  downDrop : U64
  flushDrop : U64
  isoDrop : U64
  badDiscard : U64
  ctUnderrun : U64
  contFail : U64
deriving DecidableEq, Repr

def scPortReset : ScPort :=
  { admitDrop := 0, hdrmDrop := 0, downDrop := 0, flushDrop := 0, isoDrop := 0, badDiscard := 0, ctUnderrun := 0,
    contFail := 0 }

/-- Per-pipeline switch-core counters and Logline state (R262 to R264, R270). -/
structure ScPipe where
  stageDrop : U64
  recircNobuf : U64
  holdNobuf : U64
  mcDrop : U64
  mcPrune : U64
  logDropRate : U64
  logDropFull : U64
  logOvf : U64
  staging : Nat
  allowance : Nat
  recirc : List Nat
  /-- Packets released from their flows, in arrival order, that enter the recirculation FIFO once whole (R18, R251). -/
  reentry : List Nat
  /-- The packet that stage 6 holds, and with it the pipeline (R17). -/
  hold6 : Option Nat
  replicator : List Nat
  /-- On-die Logline ring and overflow ring, oldest first, with the pool-6 blocks of the latter. -/
  log : List Bytes
  ovf : List Bytes
  blocks : List Nat
  gap : Bool
  /-- When the writer last accepted an entry, in thirds of a ns since reset (R262). -/
  logLast : Option Nat
deriving DecidableEq, Repr

def scPipeReset : ScPipe :=
  { stageDrop := 0, recircNobuf := 0, holdNobuf := 0, mcDrop := 0, mcPrune := 0, logDropRate := 0, logDropFull := 0,
    logOvf := 0, staging := 0, allowance := 0, recirc := [], reentry := [], hold6 := none, replicator := [], log := [], ovf := [], blocks := [],
    gap := false, logLast := none }

/-- A Sounding sampler (R265, R266): candidates to go, candidates since the last sample, samples lost. -/
structure Sampler where
  count : Nat
  skip : Nat
  lost : Nat
deriving DecidableEq, Repr

/-- Log: DEDUCED, log entry 36. -/
def samplerReset : Sampler := { count := 1, skip := 0, lost := 0 }

/-- What loop 1 decides on (R261): SHARED, the smallest free count of the window, the classes that refused a copy in it, and the
shared cells of each class at its end. -/
structure Loop1Sample where
  size : Nat
  minFree : Nat
  refused : List Nat
  cells : List Nat
deriving DecidableEq, Repr

def loop1Reset : Loop1Sample := { size := 344064, minFree := 344064, refused := [], cells := List.replicate 8 0 }

structure Switch where
  /-- Packets in the device by the model's handle, and the next handle. -/
  pkts : KMap Pkt
  nextPkt : Nat
  /-- The frame in reception by port; the ports at which the rest of a discarded frame is still arriving (R243); and, for
  one that is counted when it is whole, what it was when it was discarded (R101, Table 14.1). -/
  rx : KMap Nat
  rxSkip : List Nat
  rxRest : KMap Pkt
  queues : KMap QueueState
  tx : KMap TxState
  prio : KMap PrioState
  pol : KMap PolicerState
  portCnt : KMap ScPort
  pipes : List ScPipe
  /-- Cells of the shared pool in use, U (R244). -/
  shared : Nat
  /-- Flushes in progress: port and boundaries since they began (R257, R258). -/
  flush : KMap Nat
  /-- Boundaries since the last pause frame of a port (R250). -/
  pauseAge : KMap Nat
  rings : List HostRing
  logTokens : Nat
  logTurn : Nat
  soundUnits : Nat
  soundFifo : List (Nat × Bytes)
  samplers : KMap Sampler
  soundSamples : U64
  soundLost : U64
  reclaimed : U64
  /-- Scheduler pointers of a port: committed and excess tier (R279, R280). -/
  ptrC : KMap Nat
  ptrE : KMap Nat
  /-- The excess pointer rests on a queue that was already given its quantum. -/
  resting : List Nat
  unassigned : U64
  noDest : U64
  polFrames : U64
  polOctets : U64
  /-- Autopilot loop 1 window: smallest free count, classes that refused a copy (R261). -/
  minFree : Nat
  refusedClasses : List Nat
  /-- The samples of loop 1 latched at step 4 (R40, R261). -/
  loop1 : Loop1Sample
  /-- Cycles of the data path that have passed within the command in hand, where it lasts many (R257, R259, R262). -/
  cycle : Nat
  /-- Cells lost from the accounts and found unreferenced once (R271), and the audit's position. -/
  orphanSeen : List Nat
  auditPos : Nat
  auditFound : Nat
  /-- The Fix number plus 1 at which a set of queues was last sampled: 0 to 127 the tenant slices, 128 the strict queues
  (R287). A queue without state of its own reads from here. -/
  sampled : KMap Nat
  /-- Packets in flight by slice × 2 + epoch bit (R181). -/
  epochCount : List Nat
deriving DecidableEq, Repr

def switchReset : Switch :=
  { pkts := [], nextPkt := 0, rx := [], rxSkip := [], rxRest := [], queues := [], tx := [], prio := [], pol := [], portCnt := [],
    pipes := [scPipeReset, scPipeReset, scPipeReset, scPipeReset], shared := 0, flush := [], pauseAge := [],
    rings := [hostRingReset, hostRingReset, hostRingReset, hostRingReset, hostRingReset], logTokens := 0,
    logTurn := 0, soundUnits := 0, soundFifo := [], samplers := [], soundSamples := 0, soundLost := 0,
    reclaimed := 0, ptrC := [], ptrE := [], resting := [], unassigned := 0, noDest := 0, polFrames := 0,
    polOctets := 0, minFree := 344064, refusedClasses := [], loop1 := loop1Reset, cycle := 0, orphanSeen := [], auditPos := 0,
    auditFound := 0, sampled := [], epochCount := List.replicate 8 0 }

/-! ### Classifier tables (chapter 6) -/

/-- An entry of a match stage (R135, R147, R155): key and mask bytes in key order; lo and hi values for range stages. -/
structure ClsEntry where
  gens : BitVec 2
  prefLen : Nat
  actions : List U32
  key : Bytes
  mask : Bytes
  /-- The TCAM row has been disabled by the scrubber (R157). -/
  disabled : Bool
deriving DecidableEq, Repr

/-- A pattern of the payload matcher (R151, R155). -/
structure Pattern where
  id : Nat
  group : Nat
  nocase : Bool
  bytes : Bytes
deriving DecidableEq, Repr

/-- A pattern bank: what has been written, what the automaton was compiled from, and whether it is marked built. -/
structure Bank where
  pats : List Pattern
  compiled : List Pattern
  built : Bool
deriving DecidableEq, Repr

/-- Log: DEDUCED, log entry 34. -/
def bankReset : Bank := { pats := [], compiled := [], built := true }

/-- The swap that is pending (R148): the boundary of the flip, boundaries since, and the command that waits. -/
structure SwapState where
  fix : FixNo
  count : Nat
  p : CmdPkt
deriving DecidableEq, Repr

structure PipeCounts where
  parseDrop : U64
  passDrop : U64
  actionDrop : U64
  integrityDrop : U64
  unscannedBudget : U64
  unscannedLane : U64
  pmDrop : U64
  streamGap : U64
  tenantIgnored : U64
  flowReqIgnored : U64
deriving DecidableEq, Repr

def pipeCountsReset : PipeCounts :=
  { parseDrop := 0, passDrop := 0, actionDrop := 0, integrityDrop := 0, unscannedBudget := 0, unscannedLane := 0,
    pmDrop := 0, streamGap := 0, tenantIgnored := 0, flowReqIgnored := 0 }

structure Classifier where
  /-- Parse-graph nodes: (pipeline × 2 + generation) × 64 + node to the 80-byte record (Table 6.1). -/
  nodes : KMap Bytes
  /-- Entries: (pipeline × 12 + stage − 1) × 2^20 + physical index to the entry. For TCAM stages the physical index is
  block × 1,024 + row of the lowest block, for range stages block × 512 + entry, for exact stages block × 8,192 + slot. -/
  entries : KMap ClsEntry
  activeGen : Bool
  swap : Option SwapState
  /-- Packets in the device by generation (R148). -/
  genCount : List Nat
  lastFlip : FixNo
  banks : List Bank
  /-- Scan budget left by pipeline (R152). -/
  budget : List Nat
  cnt : List PipeCounts
deriving DecidableEq, Repr

def classifierReset : Classifier :=
  { nodes := [], entries := [], activeGen := false, swap := none, genCount := [0, 0], lastFlip := 0,
    banks := [bankReset, bankReset], budget := [102400, 102400, 102400, 102400],
    cnt := [pipeCountsReset, pipeCountsReset, pipeCountsReset, pipeCountsReset] }

end Sys2Proof.Machine
end

