-- ==== Sys2Proof/Machine/State.lean ====
section
/-! DEFINITION. The state of the SV1280: every register, store, queue, counter and pin that the spec names, as plain
data, and the commands that wait. -/

namespace Sys2Proof.Machine

open Sys2Proof

/-- Reasons for a fault. No command of the model ends in one: every operation of the table has an effect. The
constructor is safe: a run that reached it would stop where the block goes on. -/
inductive Fault where
  /-- Raised by nothing: kept so that the outcome type is inhabited. Safe. -/
  | unreachable
deriving DecidableEq, Repr

/-- Reasons for a refusal. -/
inductive Refusal where
  /-- A row of the table without a meaning yet, by its mnemonic. Safe: the model stops. -/
  | notModelled (mnemonic : String)
deriving DecidableEq, Repr

structure State where
  clock : Clock
  host : HostIf
  ctl : Control
  lod : Lodestar
  ports : KMap Port
  mer : Meridian
  perf : Perf
  pools : Pools
  sw : Switch
  cls : Classifier
  hbm : Hbm
  met : Metering
  flow : Flow
  skip : Skip
  pair : Pair
  pwr : Power
  boot : Boot
  out : Outputs
  /-- Random draws made (the model's own field): the index of the next value of `Config.random` and `Config.freeValue`. -/
  draws : Nat
  /-- SV1280-48 (R1 to R3). -/
  small : Bool
  /-- Commands waiting, first in first out (the model's own queue). -/
  pending : List Instr
deriving DecidableEq, Repr

/-- The machine right after reset. (Log: DEDUCED, log entry 5; DESIGN CHOICE, log entry 6; DESIGN CHOICE, log entry 11.) -/
def State.reset : State :=
  { clock := clockReset
    host := hostIfReset
    ctl := controlReset
    lod := lodestarReset
    ports := []
    mer := meridianReset
    perf := perfReset
    pools := poolsReset
    sw := switchReset
    cls := classifierReset
    hbm := hbmReset
    met := meteringReset
    flow := flowReset
    skip := skipReset
    pair := pairReset
    pwr := powerReset
    boot := bootReset
    out := outputsReset
    draws := 0
    small := false
    pending := [] }

end Sys2Proof.Machine
end

