-- ==== Sys2Proof/Machine/Fields.lean ====
section
/-! DEFINITION. The configuration fields (R8, R42 and the field tables of the chapters): where each lies, its class,
its reset value, its range, and who may stage it; the configuration store; object groups. -/

namespace Sys2Proof.Machine

open Sys2Proof

/-- Configuration classes (Table 0.4). -/
inductive FieldClass where
  | lv | st | qr
deriving DecidableEq, Repr

/-- A field of an object: subsystem, OBJ_FIELD, lowest bit, width, reset value, class, least and greatest value,
whether ring 1 may stage it for its tenants (R77), whether it is diagnostic (R77). -/
structure FieldDef where
  sub : Nat
  fld : Nat
  lo : Nat
  width : Nat
  reset : Nat
  cls : FieldClass
  vmin : Nat
  vmax : Nat
  ring1 : Bool
  diag : Bool
deriving DecidableEq, Repr

def fd (sub fld lo width reset : Nat) (cls : FieldClass) (vmin vmax : Nat) (ring1 diag : Bool) : FieldDef :=
  { sub := sub, fld := fld, lo := lo, width := width, reset := reset, cls := cls, vmin := vmin, vmax := vmax,
    ring1 := ring1, diag := diag }

/-- The port fields (Table 4.2). PORT_LOOPBACK is held and read back: the spec names its modes and gives no effect of theirs on frames, and
the model gives them none. (Log: DESIGN CHOICE, log entry 91.) -/
def fieldsOf1 : List FieldDef :=
  [ /- GROUP_MODE -/ fd 1 0x1 0 2 0 .qr 0 1 false false
  , /- QUAD0 -/ fd 1 0x1 2 2 0 .qr 0 1 false false
  , /- QUAD1 -/ fd 1 0x1 4 2 0 .qr 0 1 false false
  , /- PORT_ENABLE -/ fd 1 0x2 0 1 0 .lv 0 1 false false
  , /- PORT_SPEED -/ fd 1 0x3 0 1 0 .qr 0 1 false false
  , /- PORT_FEC -/ fd 1 0x4 0 2 0 .qr 0 2 false false
  , /- AN_EN -/ fd 1 0x5 0 1 1 .qr 0 1 false false
  , /- LT_EN -/ fd 1 0x5 1 1 1 .qr 0 1 false false
  , /- PORT_MAX_FRAME -/ fd 1 0x6 0 14 9600 .lv 64 9600 false false
  , /- PAUSE_MODE -/ fd 1 0x7 0 2 0 .lv 0 2 false false
  , /- PFC_RX_MASK -/ fd 1 0x7 8 8 0 .lv 0 255 false false
  , /- PFC_TX_MASK -/ fd 1 0x7 16 8 0 .lv 0 255 false false
  , /- DOWN_HOLD -/ fd 1 0x8 0 16 0 .lv 0 65535 false false
  , /- UP_HOLD -/ fd 1 0x8 16 16 977 .lv 0 65535 false false
  , /- PORT_LOOPBACK -/ fd 1 0x9 0 2 0 .qr 0 2 false true
  , /- TX_INVERT -/ fd 1 0xa 0 1 0 .qr 0 1 false true
  , /- RX_INVERT -/ fd 1 0xa 1 1 0 .qr 0 1 false true
  , /- PORT_MAC -/ fd 1 0xb 0 48 0 .lv 0 281474976710655 false false ]

def fieldsOf2 : List FieldDef :=
  [ /- PASS_LIMIT -/ fd 2 0x1 0 3 2 .lv 1 4 false false
  , /- PARSE_ERR_DROP -/ fd 2 0x1 3 1 1 .lv 0 1 false false
  , /- STAGE_ENABLE -/ fd 2 0x2 0 1 0 .lv 0 1 false false
  , /- STAGE_KIND -/ fd 2 0x3 0 2 0 .qr 0 3 false false
  , /- TCAM_WIDTH -/ fd 2 0x3 2 3 1 .qr 1 4 false false
  , /- EXACT_WIDE -/ fd 2 0x3 5 1 0 .qr 0 1 false false
  , /- TCAM_BLOCKS -/ fd 2 0x4 0 24 0 .qr 0 16777215 false false
  , /- EXACT_BLOCKS -/ fd 2 0x5 0 64 0 .qr 0 18446744073709551615 false false
  , /- RANGE_BLOCKS -/ fd 2 0x6 0 8 0 .qr 0 255 false false
  , /- KEY_CHUNK0 used -/ fd 2 0x10 0 1 0 .lv 0 1 false false
  , /- length - 1 -/ fd 2 0x10 16 5 0 .lv 0 31 false false
  , /- offset -/ fd 2 0x10 21 10 0 .lv 0 1023 false false
  , /- source -/ fd 2 0x10 31 1 0 .lv 0 1 false false
  , /- KEY_CHUNK1 used -/ fd 2 0x11 0 1 0 .lv 0 1 false false
  , /- length - 1 -/ fd 2 0x11 16 5 0 .lv 0 31 false false
  , /- offset -/ fd 2 0x11 21 10 0 .lv 0 1023 false false
  , /- source -/ fd 2 0x11 31 1 0 .lv 0 1 false false
  , /- KEY_CHUNK2 used -/ fd 2 0x12 0 1 0 .lv 0 1 false false
  , /- length - 1 -/ fd 2 0x12 16 5 0 .lv 0 31 false false
  , /- offset -/ fd 2 0x12 21 10 0 .lv 0 1023 false false
  , /- source -/ fd 2 0x12 31 1 0 .lv 0 1 false false
  , /- KEY_CHUNK3 used -/ fd 2 0x13 0 1 0 .lv 0 1 false false
  , /- length - 1 -/ fd 2 0x13 16 5 0 .lv 0 31 false false
  , /- offset -/ fd 2 0x13 21 10 0 .lv 0 1023 false false
  , /- source -/ fd 2 0x13 31 1 0 .lv 0 1 false false
  , /- KEY_CHUNK4 used -/ fd 2 0x14 0 1 0 .lv 0 1 false false
  , /- length - 1 -/ fd 2 0x14 16 5 0 .lv 0 31 false false
  , /- offset -/ fd 2 0x14 21 10 0 .lv 0 1023 false false
  , /- source -/ fd 2 0x14 31 1 0 .lv 0 1 false false
  , /- KEY_CHUNK5 used -/ fd 2 0x15 0 1 0 .lv 0 1 false false
  , /- length - 1 -/ fd 2 0x15 16 5 0 .lv 0 31 false false
  , /- offset -/ fd 2 0x15 21 10 0 .lv 0 1023 false false
  , /- source -/ fd 2 0x15 31 1 0 .lv 0 1 false false
  , /- KEY_CHUNK6 used -/ fd 2 0x16 0 1 0 .lv 0 1 false false
  , /- length - 1 -/ fd 2 0x16 16 5 0 .lv 0 31 false false
  , /- offset -/ fd 2 0x16 21 10 0 .lv 0 1023 false false
  , /- source -/ fd 2 0x16 31 1 0 .lv 0 1 false false
  , /- KEY_CHUNK7 used -/ fd 2 0x17 0 1 0 .lv 0 1 false false
  , /- length - 1 -/ fd 2 0x17 16 5 0 .lv 0 31 false false
  , /- offset -/ fd 2 0x17 21 10 0 .lv 0 1023 false false
  , /- source -/ fd 2 0x17 31 1 0 .lv 0 1 false false
  , /- MISS_ACTION_LO -/ fd 2 0x18 0 64 0 .lv 0 18446744073709551615 false false
  , /- MISS_ACTION_HI -/ fd 2 0x19 0 64 0 .lv 0 18446744073709551615 false false
  , /- PM_DEPTH -/ fd 2 0x20 0 5 16 .lv 1 16 false false
  , /- PM_OVER -/ fd 2 0x20 5 1 0 .lv 0 1 false false
  , /- PM_STREAM -/ fd 2 0x20 6 1 0 .lv 0 1 false false
  , /- PM_GROUPS -/ fd 2 0x20 16 16 65535 .lv 0 65535 false false ]

def fieldsOf3 : List FieldDef :=
  [ /- FLOW_SEED1 -/ fd 3 0x1 0 32 0 .qr 0 4294967295 false false
  , /- FLOW_SEED2 -/ fd 3 0x2 0 32 0 .qr 0 4294967295 false false
  , /- LEARN_EN -/ fd 3 0x3 0 1 1 .lv 0 1 false false
  , /- LEARN_AGE_CLASS -/ fd 3 0x3 4 4 0 .lv 0 15 false false
  , /- AGE_LIMIT -/ fd 3 0x4 0 31 57 .lv 0 2147483647 false false
  , /- AGE_PRESSURE -/ fd 3 0x5 0 9 256 .lv 1 256 false false
  , /- AGE_PRESS_MIN -/ fd 3 0x5 16 9 64 .lv 1 256 false false
  , /- CACHE_CLEAN_MIN -/ fd 3 0x6 0 4 2 .lv 1 11 false false
  , /- CACHE_CLEAN_LO -/ fd 3 0x6 8 4 1 .lv 0 11 false false
  , /- CACHE_CLEAN_HI -/ fd 3 0x6 12 4 6 .lv 0 11 false false
  , /- LONG_INS_MAX -/ fd 3 0x7 0 9 320 .lv 0 340 false false
  , /- FLOW_EVT_MASK -/ fd 3 0x8 0 8 56 .lv 0 255 false false
  , /- AGE_SCAN_RATE -/ fd 3 0x9 0 9 16 .lv 1 256 false false ]

def fieldsOf4 : List FieldDef :=
  [ /- SKIP_CLUSTER_EN -/ fd 4 0x1 0 32 4294967295 .lv 0 4294967295 false false
  , /- DECIDE_SLOT -/ fd 4 0x2 0 3 7 .lv 0 7 false false
  , /- DISPATCH_SPAN -/ fd 4 0x2 4 4 4 .lv 1 8 false false
  , /- HOLD_MAX -/ fd 4 0x2 8 4 8 .lv 1 8 false false
  , /- PARK_THRESH -/ fd 4 0x3 0 12 256 .lv 0 4095 false false
  , /- WAKE_LEAD -/ fd 4 0x3 16 12 48 .lv 0 4095 false false
  , /- REPLAY_MAX -/ fd 4 0x4 0 4 4 .lv 1 15 false false
  , /- SKIP_WATCHDOG -/ fd 4 0x4 16 16 256 .lv 32 65535 false false
  , /- SKIP_FAIL_ACT -/ fd 4 0x5 0 1 0 .lv 0 1 false false
  , /- SKIP_FAIL_REASON -/ fd 4 0x5 1 7 127 .lv 1 127 false false
  , /- LB_BUCKET -/ fd 4 0x10 0 6 0 .lv 0 63 true false
  , /- BE_ENABLED -/ fd 4 0x11 0 1 0 .lv 0 1 true false
  , /- BE_WEIGHT -/ fd 4 0x11 1 8 1 .lv 1 255 true false
  , /- BE_ADDR_HI -/ fd 4 0x12 0 64 0 .st 0 18446744073709551615 true false
  , /- BE_ADDR_LO -/ fd 4 0x13 0 64 0 .st 0 18446744073709551615 true false
  , /- BE_PORT -/ fd 4 0x14 0 16 0 .st 0 65535 true false
  , /- BE_V6 -/ fd 4 0x14 16 1 0 .st 0 1 true false
  , /- LB_AUTO -/ fd 4 0x15 0 1 0 .lv 0 1 false false
  , /- LB_TOL -/ fd 4 0x15 1 8 32 .lv 1 255 false false
  , /- LB_MIN_BUCKETS -/ fd 4 0x15 9 8 1 .lv 0 255 false false
  , /- LB_TENANT -/ fd 4 0x15 24 24 0 .lv 0 16777215 false false ]

def fieldsOf6 : List FieldDef :=
  [ /- CONT_RESERVE -/ fd 6 0x1 0 16 1024 .lv 0 65535 false false
  , /- ALPHA_EXP -/ fd 6 0x2 0 3 0 .lv 0 7 false false
  , /- ALPHA_MIN_EXP -/ fd 6 0x3 0 3 5 .lv 0 7 false false
  , /- ALPHA_MAX_EXP -/ fd 6 0x3 4 3 3 .lv 0 7 false false
  , /- QMIN -/ fd 6 0x4 0 12 0 .st 0 4095 false false
  , /- QALPHA_CLASS -/ fd 6 0x5 0 3 0 .lv 0 7 false false
  , /- FWD_MODE -/ fd 6 0x6 0 8 0 .lv 0 255 false false
  , /- PG_XOFF -/ fd 6 0x7 0 16 0 .st 0 65535 false false
  , /- PG_XON -/ fd 6 0x7 16 16 0 .st 0 65535 false false
  , /- PG_HDRM -/ fd 6 0x7 32 16 0 .st 0 65535 false false
  , /- PAUSE_QUANTA -/ fd 6 0x8 0 16 65535 .st 0 65535 false false
  , /- PAUSE_REFRESH -/ fd 6 0x8 16 16 32 .st 1 65535 false false
  , /- SOUND_EN -/ fd 6 0x9 0 1 0 .lv 0 1 false false
  , /- SOUND_ALL -/ fd 6 0x9 1 1 0 .lv 0 1 false false
  , /- SOUND_NM1 -/ fd 6 0x9 2 24 0 .lv 0 16777215 false false
  , /- SOUND_LEN -/ fd 6 0x9 26 2 3 .lv 0 3 false false
  , /- LOG_EN -/ fd 6 0xa 0 1 1 .lv 0 1 false false
  , /- LOG_DROPS -/ fd 6 0xa 1 1 0 .lv 0 1 false false
  , /- LOG_OVF_EN -/ fd 6 0xa 2 1 1 .lv 0 1 false false
  , /- LOG_RATE -/ fd 6 0xb 0 6 32 .lv 1 32 false false
  , /- SOUND_RATE -/ fd 6 0xb 16 7 102 .lv 1 102 false false
  , /- MC_BASE -/ fd 6 0xc 0 17 0 .st 0 131071 false false
  , /- MC_COUNT -/ fd 6 0xc 17 10 0 .st 0 512 false false
  , /- MC_SRC_PRUNE -/ fd 6 0xc 27 1 0 .st 0 1 false false
  , /- MEMBER_QUEUE -/ fd 6 0xd 0 17 0 .st 0 131071 false false
  , /- MEMBER_VALID -/ fd 6 0xd 17 1 0 .st 0 1 false false ]

def fieldsOf7 : List FieldDef :=
  [ /- TQ_PORT -/ fd 7 0x1 0 7 0 .qr 0 127 false false
  , /- TQ_VALID -/ fd 7 0x1 7 1 0 .qr 0 1 false false
  , /- TQ_TENANT -/ fd 7 0x2 0 24 0 .lv 0 16777215 false false
  , /- DRR_WEIGHT -/ fd 7 0x3 0 10 16 .lv 1 1023 true false
  , /- TM_SHP_CIR -/ fd 7 0x4 0 19 0 .st 0 400000 true false
  , /- TM_SHP_PIR -/ fd 7 0x5 0 19 400000 .st 1 400000 true false
  , /- TM_SHP_CBS -/ fd 7 0x6 0 24 0 .st 0 16777215 true false
  , /- TM_SHP_PBS -/ fd 7 0x6 24 24 51200 .st 64 16777215 true false
  , /- SHP_ON_CHANGE -/ fd 7 0x6 48 1 0 .st 0 1 true false
  , /- PFC_PRIO -/ fd 7 0x7 0 3 0 .lv 0 7 false false
  , /- TC_QUEUE -/ fd 7 0x8 0 17 0 .lv 0 131071 false false
  , /- POL_EN -/ fd 7 0x9 0 1 0 .st 0 1 true false
  , /- POL_ON_CHANGE -/ fd 7 0x9 1 1 0 .st 0 1 true false
  , /- POL_RATE -/ fd 7 0x9 2 19 400000 .st 1 400000 true false
  , /- POL_BURST -/ fd 7 0xa 0 24 51200 .st 64 16777215 true false
  , /- WATCH_QUEUE -/ fd 7 0xb 0 17 0 .lv 0 131071 false false
  , /- WATCH_VALID -/ fd 7 0xb 17 1 0 .lv 0 1 false false ]

def fieldsOf8 : List FieldDef :=
  [ /- POOL_GIB -/ fd 8 0x1 0 6 0 .qr 1 38 false false
  , /- RSV_MIN -/ fd 8 0x2 0 29 0 .st 0 536870911 false false
  , /- ACCT_MAX -/ fd 8 0x2 32 29 0 .st 0 536870911 false false
  , /- POOL_LOW_MARK -/ fd 8 0x3 0 29 0 .lv 0 536870911 false false ]

def fieldsOf9 : List FieldDef :=
  [ /- PAGE_IDLE -/ fd 9 0x1 0 8 32 .lv 1 255 false false
  , /- HIT_STREAK -/ fd 9 0x1 8 4 8 .lv 1 15 false false
  , /- ROW_HOLD -/ fd 9 0x2 0 8 96 .lv 48 255 false false
  , /- WQ_HIGH -/ fd 9 0x3 0 6 48 .st 0 63 false false
  , /- WQ_LOW -/ fd 9 0x3 8 6 16 .st 0 63 false false
  , /- WQ_AGE -/ fd 9 0x3 16 12 2048 .st 256 4095 false false
  , /- PD_IDLE -/ fd 9 0x4 0 12 256 .lv 0 4095 false false
  , /- RETRAIN_FIX -/ fd 9 0x5 0 24 65536 .lv 0 16777215 false false
  , /- RETRAIN_DTEMP -/ fd 9 0x5 24 8 10 .lv 1 255 false false
  , /- SCRUB_HOURS -/ fd 9 0x6 0 8 24 .lv 0 168 false false ]

def fieldsOf10 : List FieldDef :=
  [ /- ARB_WEIGHTS -/ fd 10 0x1 0 48 11064238682266 .st 0 281474976710655 false false
  , /- ARB_BORROW -/ fd 10 0x2 0 1 1 .lv 0 1 false false ]

def fieldsOf11 : List FieldDef :=
  [ /- PTP_ENABLE -/ fd 11 0x1 0 1 0 .lv 0 1 false false
  , /- CLOCK_MODE -/ fd 11 0x1 1 2 0 .qr 0 3 false false
  , /- ONE_STEP -/ fd 11 0x1 3 1 0 .qr 0 1 false false
  , /- PTP_PROFILE -/ fd 11 0x1 4 2 0 .qr 0 1 false false
  , /- PTP_DOMAIN -/ fd 11 0x1 8 8 0 .qr 0 255 false false
  , /- STEP_THRESH -/ fd 11 0x2 0 31 65536 .lv 1024 2147483647 false false
  , /- HOLDOVER_LIMIT -/ fd 11 0x3 0 16 300 .lv 1 65535 false false
  , /- PPS_OUT_EN -/ fd 11 0x4 0 1 0 .lv 0 1 false false
  , /- PPS_OUT_WIDTH -/ fd 11 0x4 1 20 1000 .lv 1 999999 false false
  , /- PPS_IN_MODE -/ fd 11 0x5 0 2 0 .lv 0 2 false false
  , /- CAP0_EDGE -/ fd 11 0x6 0 2 0 .lv 0 3 false false
  , /- CAP1_EDGE -/ fd 11 0x6 2 2 0 .lv 0 3 false false
  , /- PTP_PORT_EN -/ fd 11 0x7 0 1 0 .lv 0 1 false false
  , /- PTP_TRANSPORT -/ fd 11 0x7 1 2 0 .qr 0 2 false false
  , /- TS_ADJ_RX -/ fd 11 0x8 0 16 0 .lv 0 65535 false false
  , /- TS_ADJ_TX -/ fd 11 0x8 16 16 0 .lv 0 65535 false false ]

def fieldsOf12 : List FieldDef :=
  [ /- EP_VALID -/ fd 12 0x1 0 1 0 .lv 0 1 false false
  , /- EP_TENANT -/ fd 12 0x2 0 24 0 .qr 0 16777215 false false
  , /- BILL_RATE -/ fd 12 0x3 0 7 64 .lv 1 64 false false ]

def fieldsOf13 : List FieldDef :=
  [ /- PAIR_PREF -/ fd 13 0x2 0 2 0 .lv 0 3 false false
  , /- TAKEOVER_AUTO -/ fd 13 0x2 2 2 3 .lv 0 3 false false
  , /- PAIR_ID -/ fd 13 0x3 0 16 0 .qr 0 65535 false false
  , /- PEER_TIMEOUT -/ fd 13 0x4 0 8 32 .lv 16 255 false false
  , /- PAIR_EXT_HALF -/ fd 13 0x5 0 1 0 .qr 0 1 false false
  , /- MIRROR_EN -/ fd 13 0x6 0 1 1 .lv 0 1 false false
  , /- RESYNC_SCAN -/ fd 13 0x7 0 13 2048 .lv 256 4096 false false ]

def fieldsOf14 : List FieldDef :=
  [ /- REACT_MASK -/ fd 14 0x1 0 5 1 .lv 0 31 false false
  , /- QUIET_FIX -/ fd 14 0x2 0 24 976563 .lv 1024 16777215 false false
  , /- RECOV_LIMIT -/ fd 14 0x3 0 5 8 .lv 1 31 false false
  , /- FAULT_IRQ -/ fd 14 0x4 0 6 0 .lv 0 63 false false
  , /- ISO_OPEN -/ fd 14 0x10 0 1 0 .qr 0 1 false false
  , /- ISO_MASK_LO -/ fd 14 0x100 0 64 0 .qr 0 18446744073709551615 false false
  , /- ISO_MASK_HI -/ fd 14 0x101 0 64 0 .qr 0 18446744073709551615 false false ]

def fieldsOf15 : List FieldDef :=
  [ /- PERF_EVENT -/ fd 15 0x1 0 16 0 .lv 0 65535 false false
  , /- PERF_PRIV_MASK -/ fd 15 0x1 16 6 63 .lv 0 63 false false
  , /- PERF_CLASS_MASK -/ fd 15 0x1 32 16 65535 .lv 0 65535 false false
  , /- PERF_EN -/ fd 15 0x1 48 1 0 .lv 0 1 false false
  , /- PERF_MASTER_VAL -/ fd 15 0x2 0 12 0 .lv 0 4095 false false
  , /- PERF_MASTER_MASK -/ fd 15 0x2 16 12 0 .lv 0 4095 false false
  , /- PERF_ADDR_LO -/ fd 15 0x3 0 40 0 .lv 0 1099511627775 false false
  , /- PERF_ADDR_HI -/ fd 15 0x4 0 40 1099511627775 .lv 0 1099511627775 false false
  , /- PERF_THRESH -/ fd 15 0x5 0 64 0 .lv 0 18446744073709551615 false false
  , /- PERF_IRQ -/ fd 15 0x10 0 6 0 .lv 0 63 false false
  , /- PERF_IRQ_EN -/ fd 15 0x10 6 1 0 .lv 0 1 false false
  , /- MON_EN -/ fd 15 0x20 0 1 0 .lv 0 1 false false
  , /- MON_MARK_EN -/ fd 15 0x20 1 1 0 .lv 0 1 false false
  , /- MON_PROB -/ fd 15 0x20 16 16 0 .lv 0 65535 false false
  , /- MON_MAX -/ fd 15 0x21 0 3 4 .lv 1 4 false false ]

def fieldsOf18 : List FieldDef :=
  [ /- MAX_STATE -/ fd 18 0x1 0 2 1 .lv 0 3 false false
  , /- MARGIN_FIX -/ fd 18 0x1 8 8 8 .lv 1 255 false false
  , /- RX_QUIET -/ fd 18 0x1 16 16 1024 .lv 1 65535 false false
  , /- DOMAIN_HOLD_OFF -/ fd 18 0x2 0 64 0 .lv 0 18446744073709551615 false false
  , /- WAKE_PORTS_LO -/ fd 18 0x3 0 64 0 .lv 0 18446744073709551615 false false
  , /- WAKE_PORTS_HI -/ fd 18 0x4 0 64 0 .lv 0 18446744073709551615 false false
  , /- KEEP_SERDES -/ fd 18 0x5 0 4 0 .lv 0 15 false false
  , /- PTP_EARLY -/ fd 18 0x6 0 20 100000 .lv 0 1000000 false false
  , /- SR_IDLE -/ fd 18 0x7 0 12 1024 .lv 256 4095 false false
  , /- THERM_WARN_C -/ fd 18 0x8 0 8 100 .lv 85 105 false false ]

/-- The field rows of a subsystem (Table 1.1 numbers). -/
def fieldsOf (sub : Nat) : List FieldDef :=
  if sub = 1 then fieldsOf1 else if sub = 2 then fieldsOf2 else if sub = 3 then fieldsOf3
  else if sub = 4 then fieldsOf4 else if sub = 6 then fieldsOf6 else if sub = 7 then fieldsOf7
  else if sub = 8 then fieldsOf8 else if sub = 9 then fieldsOf9 else if sub = 10 then fieldsOf10
  else if sub = 11 then fieldsOf11 else if sub = 12 then fieldsOf12 else if sub = 13 then fieldsOf13
  else if sub = 14 then fieldsOf14 else if sub = 15 then fieldsOf15 else if sub = 18 then fieldsOf18
  else []

/-- Object ID (Table 2.3). -/
def oid (sub fld idx : Nat) : Obj := sub * 2 ^ 56 + fld * 2 ^ 40 + idx

def objSub (o : Obj) : Nat := bitsOf o 56 8
def objFld (o : Obj) : Nat := bitsOf o 40 16
def objIdx (o : Obj) : Nat := bitsOf o 0 40

def objFields (o : Obj) : List FieldDef := (fieldsOf (objSub o)).filter (fun f => f.fld == objFld o)

/-- The indices that exist for a field, as its chapter defines them. -/
def idxOk (sub fld idx : Nat) : Bool :=
  if sub = 1 then (if fld = 1 then idx < 16 else if fld = 0xA then idx < 132 else idx < 128)
  else if sub = 2 then
    (if fld = 1 then idx < 4
     else if fld < 0x10 then idx < 48
     else if fld < 0x20 then idx % 256 < 48 && idx / 256 < 2
     else idx < 16)
  else if sub = 3 then (if fld ≤ 2 then idx = 0 else if fld = 4 then idx < 16 else idx < 4)
  else if sub = 4 then
    (if fld < 0x10 then idx = 0 else if fld = 0x10 then idx < 65536 else if fld = 0x15 then idx < 256
     else idx < 16384)
  else if sub = 6 then
    (if fld = 1 || fld = 0xB then idx = 0
     else if fld = 2 || fld = 3 then idx < 8
     else if fld = 4 || fld = 5 then idx < 131072
     else if fld = 6 || fld = 8 || fld = 9 then idx < 128
     else if fld = 7 then idx < 1024
     else if fld = 0xA then idx < 4
     else if fld = 0xC then idx < 65536
     else idx < 131072)
  else if sub = 7 then
    (if fld ≤ 3 then 512 ≤ idx && idx < 131072
     else if fld ≤ 7 then idx < 131072
     else if fld = 8 then idx < 1024
     else if fld ≤ 0xA then idx < 262144
     else idx < 16)
  else if sub = 8 then
    (if fld = 1 then 3 ≤ idx && idx ≤ 5 else if fld = 2 then idx < 128 && idx % 8 < 7 else idx < 7)
  else if sub = 9 || sub = 10 then idx < 6
  else if sub = 11 then (if fld = 7 || fld = 8 then idx < 128 else idx = 0)
  else if sub = 12 then (if fld = 3 then idx = 0 else idx < 262144)
  else if sub = 13 then idx = 0
  else if sub = 14 then
    (if fld = 1 || fld = 3 then 1 ≤ idx && idx ≤ 0x16
     else if fld = 2 then idx = 1 || idx = 2
     else if fld = 4 then idx = 0
     else if fld = 0x10 then idx < 128
     else idx < 2 ^ 24)
  else if sub = 15 then
    (if fld ≤ 5 then idx < 256 else if fld = 0x20 then idx < 4 else idx = 0)
  else if sub = 18 then idx = 0
  else false

/-- The object is a configuration field. -/
def objExists (o : Obj) : Bool :=
  decide (o < 2 ^ 64) && !(objFields o).isEmpty && idxOk (objSub o) (objFld o) (objIdx o)

/-! ### Reset values -/

/-- Buffers of a pool at given GiB sizes of pools 3 to 5 (Table 12.1). -/
def poolBuffers (gib : Nat → Nat) (pool : Nat) : Nat :=
  if pool = 0 then 32768 else if pool = 1 then 24576 else if pool = 2 then 2048
  else if pool = 3 then gib 3 * 2 ^ 23 else if pool = 4 then gib 4 * 2 ^ 21
  else if pool = 5 then gib 5 * 2 ^ 19 else if pool = 6 then 524288 else 0

def poolGibReset (small : Bool) (pool : Nat) : Nat :=
  let big := if pool = 5 then 8 else 16
  if small then big / 2 else big

/-- Default reserved minimum (Table 12.2). -/
def rsvReset (acct pool : Nat) : Nat :=
  if acct ≤ 3 then (if pool ≤ 1 then 4096 else 0)
  else if acct = 8 then (if pool = 2 then 512 else 0)
  else if acct = 10 then
    (if pool = 2 then 64 else if pool = 3 || pool = 4 || pool = 5 then 256 else if pool = 6 then 128 else 0)
  else 0

def acctMaxReset (small : Bool) (acct pool : Nat) : Nat :=
  if 4 ≤ acct && acct ≤ 7 && pool = 6 then 131040 else poolBuffers (poolGibReset small) pool

/-- Default REACT_MASK (Table 16.5). -/
def reactReset (src : Nat) : Nat :=
  if src = 0x07 then 0x04 else if src = 0x11 then 0x15 else if src = 0x12 || src = 0x13 then 0x11 else 0x01

/-- The reset value of an object. The seeds are draws of the random source (R186). (Log: DEDUCED, log entry 63.) -/
def objReset (small : Bool) (o : Obj) : Nat :=
  let sub := objSub o
  let fld := objFld o
  let idx := objIdx o
  if sub = 3 && fld = 1 then (Config.random 0).toNat % 2 ^ 32
  else if sub = 3 && fld = 2 then (Config.random 1).toNat % 2 ^ 32
  else if sub = 7 && fld = 7 then (if idx < 512 then idx % 4 else 0)
  else if sub = 7 && fld = 8 then 4 * (idx / 8)
  else if sub = 8 && fld = 1 then poolGibReset small idx
  else if sub = 8 && fld = 2 then rsvReset (idx / 8) (idx % 8) + acctMaxReset small (idx / 8) (idx % 8) * 2 ^ 32
  else if sub = 8 && fld = 3 then poolBuffers (poolGibReset small) idx / 16
  else if sub = 14 && fld = 1 then reactReset idx
  else if sub = 14 && fld = 2 then (if idx = 1 then 976563 else 97657)
  else (objFields o).foldl (fun a f => a + f.reset * 2 ^ f.lo) 0

/-! ### The configuration store -/

/-- The active value of an object (R42). -/
def objVal (s : State) (o : Obj) : Nat :=
  match kfind s.ctl.cfg o with
  | some v => v.toNat
  | none => objReset s.small o

/-- Bits [lo+w-1 : lo] of the active value of a field. -/
def fv (s : State) (sub fld idx lo w : Nat) : Nat := bitsOf (objVal s (oid sub fld idx)) lo w

/-- Write an active value; an object at its reset value is not listed. -/
def objWrite (o : Obj) (v : Nat) (s : State) : State :=
  if v = objReset s.small o then { s with ctl.cfg := kdel s.ctl.cfg o }
  else { s with ctl.cfg := kput s.ctl.cfg o (BitVec.ofNat 64 v) }

def setField (sub fld idx lo w v : Nat) (s : State) : State :=
  let o := oid sub fld idx
  objWrite o (setBits (objVal s o) lo w v) s

/-- Field values that no range names: the signed alpha exponents lie in −3 to 3, so 0b100 is refused (chapter 10's table). -/
def alphaCodeOk (o : Obj) (v : Nat) : Bool :=
  objSub o != 6 || (if objFld o = 2 then bitsOf v 0 3 != 4 else objFld o != 3 || (bitsOf v 0 3 != 4 && bitsOf v 4 3 != 4))

/-- Every reserved bit of the value is zero and every field lies in its range (R7 and the field tables). -/
def valueOk (o : Obj) (v : Nat) : Bool :=
  let fs := objFields o
  let used := fs.foldl (fun a f => a + (2 ^ f.width - 1) * 2 ^ f.lo) 0
  decide (v &&& used = v) && fs.all (fun f => decide (f.vmin ≤ bitsOf v f.lo f.width) && decide (bitsOf v f.lo f.width ≤ f.vmax))
    && alphaCodeOk o v

/-- Bits of an object that fields of a class hold. -/
def classMask (o : Obj) (c : FieldClass) : Nat :=
  ((objFields o).filter (fun f => f.cls == c)).foldl (fun a f => a + (2 ^ f.width - 1) * 2 ^ f.lo) 0

/-- Going from a to b changes a bit of class c. -/
def changesClass (o : Obj) (c : FieldClass) (a b : Nat) : Bool :=
  (a ^^^ b) &&& classMask o c != 0

/-- Generation-banked classifier fields (R147, Table 6.8). -/
def genBanked (o : Obj) : Bool := objSub o == 2 && decide (0x10 ≤ objFld o) && decide (objFld o ≤ 0x19)

/-! ### Port layouts (R88, R89) -/

/-- The port layout under a PG_PROFILE value: is the lane of the group a port. -/
def portInLayout (pg lane : Nat) : Bool :=
  let l := lane % 8
  if bitsOf pg 0 2 = 0 then true
  else
    let quad := bitsOf pg (if l < 4 then 2 else 4) 2
    if quad = 0 then l % 4 = 0 else l % 2 = 0

def pgVal (s : State) (port : Nat) : Nat := objVal s (oid 1 1 (port / 8))

def isPort (s : State) (p : Nat) : Bool := decide (p < 128) && portInLayout (pgVal s p) p

/-- Profile of a port: 0 is A, 1 is B, 2 is C (R89). -/
def portProfile (s : State) (p : Nat) : Nat :=
  let pg := pgVal s p
  if bitsOf pg 0 2 = 0 then 2
  else if bitsOf pg (if p % 8 < 4 then 2 else 4) 2 = 0 then 0 else 1

/-- The port that a lane belongs to, if any (R88). -/
def portOfLane (s : State) (lane : Nat) : Option Nat :=
  if 128 ≤ lane then none
  else if isPort s lane then some lane
  else if isPort s (lane / 2 * 2) then some (lane / 2 * 2)
  else if isPort s (lane / 4 * 4) then some (lane / 4 * 4)
  else none

/-- The lanes of a port. -/
def portLanes (s : State) (p : Nat) : List Nat :=
  let k := portProfile s p
  (List.range (if k = 0 then 4 else if k = 1 then 2 else 1)).map (fun i => p + i)

/-- Row of Table 4.1. -/
def portMode (s : State) (p : Nat) : Nat :=
  let k := portProfile s p
  if k = 0 then 0 else if k = 1 then 1
  else if fv s 1 3 p 0 1 = 0 then 2
  else 3 + fv s 1 4 p 0 2

/-- Port speed in Mb/s. -/
def portMbps (s : State) (p : Nat) : Nat :=
  let m := portMode s p
  if m = 0 then 400000 else if m = 1 then 200000 else if m = 2 then 100000 else 50000

/-! ### Groups, tenants and authority (R54, R77, Table 2.6) -/

def grp (kind idx : Nat) : Nat := kind * 2 ^ 28 + idx

/-- The port of a queue: strict queues 4p to 4p+3, tenant queues where they are assigned (R273). -/
def queuePort (s : State) (q : Nat) : Option Nat :=
  if q < 512 then some (q / 4)
  else if fv s 7 1 q 7 1 = 1 then some (fv s 7 1 q 0 7) else none

/-- The tenant with which the owning chapter tags an object, if any (R77). -/
def objTenant (s : State) (o : Obj) : Option Nat :=
  let sub := objSub o
  let fld := objFld o
  let idx := objIdx o
  if sub = 4 && 0x10 ≤ fld then
    let pool := if fld = 0x10 then idx / 256 else if fld = 0x15 then idx else idx / 64
    some (fv s 4 0x15 pool 24 24)
  else if sub = 7 && 1 ≤ fld && fld ≤ 7 && 512 ≤ idx then some (fv s 7 2 idx 0 24)
  else if sub = 7 && (fld = 9 || fld = 0xA) then some (fv s 12 2 idx 0 24)
  else if sub = 12 && (fld = 1 || fld = 2) then some (fv s 12 2 idx 0 24)
  else if sub = 14 && (fld = 0x100 || fld = 0x101) then some idx
  else none

/-- The ports whose kind-2 group holds the object. -/
def objPorts (s : State) (o : Obj) : List Nat :=
  let sub := objSub o
  let fld := objFld o
  let idx := objIdx o
  if sub = 1 then
    (if fld = 1 then (List.range 8).map (fun i => 8 * idx + i)
     else if fld = 0xA then (portOfLane s idx).toList else [idx])
  else if sub = 6 && (fld = 4 || fld = 5) then (queuePort s idx).toList
  else if sub = 6 && (fld = 6 || fld = 8 || fld = 9) then [idx]
  else if sub = 6 && fld = 7 then [idx / 8]
  else if sub = 7 && 1 ≤ fld && fld ≤ 7 then (queuePort s idx).toList
  else if sub = 7 && fld = 8 then [idx / 8]
  else if sub = 11 && (fld = 7 || fld = 8) then [idx]
  else if sub = 14 && fld = 0x10 then [idx]
  else []

/-- The classifier-stage group of an object: pipeline × 12 + stage − 1. -/
def objStage (o : Obj) : Option Nat :=
  let fld := objFld o
  let idx := objIdx o
  if objSub o = 2 then
    (if 2 ≤ fld && fld < 0x20 then some (idx % 256)
     else if fld = 0x101 then some idx else none)
  else none

/-- Groups to which an object belongs. Group 0, the whole device, holds every object. -/
def objGroups (s : State) (o : Obj) : List Nat :=
  [0, grp 4 (objSub o)] ++ ((objTenant s o).map (grp 1)).toList ++ (objPorts s o).map (grp 2)
    ++ ((objStage o).map (grp 3)).toList

def inGroup (s : State) (g : Nat) (o : Obj) : Bool := (objGroups s o).contains g

/-- GRP_KIND and GRP_INDEX are legal (Table 2.6). -/
def groupOk (g : Nat) : Bool :=
  let k := bitsOf g 28 4
  let i := bitsOf g 0 28
  if k = 0 then i = 0 else if k = 1 then i < 2 ^ 24 else if k = 2 then i < 128 else if k = 3 then i < 48
  else if k = 4 then 1 ≤ i && i ≤ 18 else false

/-- Ring 3 may write the object: a diagnostic object, or one of subsystem 0x0F (R55, R77). -/
def ring3Obj (o : Obj) : Bool := objSub o == 15 || (objFields o).any (fun f => f.diag)

/-- Ring 1 may stage the object's field (R77 and the chapters). -/
def ring1Obj (o : Obj) : Bool :=
  let fs := objFields o
  !fs.isEmpty && fs.all (fun f => f.ring1)
    && !(objSub o == 7 && decide (4 ≤ objFld o) && decide (objFld o ≤ 6) && decide (objIdx o < 512))

end Sys2Proof.Machine
end

