-- ==== Sys2Proof/Machine/Ops.lean ====
section
/-! DEFINITION. The named operations that every block's meaning uses: time, random draws, memory bytes, host writes,
interrupts, counting events, raising fault messages, completing commands. -/

namespace Sys2Proof.Machine

open Sys2Proof

/-! ### Status codes (Table 3.8) -/

def stOK : Nat := 0
def stSUPERSEDED : Nat := 1
def stBUSY : Nat := 2
def stNOBUF : Nat := 3
def stSTALE : Nat := 4
def stDENIED : Nat := 5
def stBADARG : Nat := 6
def stBADOP : Nat := 7
def stTIMEOUT : Nat := 8
def stQUIESCE : Nat := 9
def stFAULTED : Nat := 10
def stAUTH : Nat := 11
def stNOTFOUND : Nat := 12
def stEXISTS : Nat := 13
def stPARTIAL : Nat := 14
def stLOCKORDER : Nat := 15
def stLOCKTIMEOUT : Nat := 16

/-! ### Time -/

def fixN (s : State) : Nat := s.clock.fix.toNat

/-- TIME_NS (R10, R103). -/
def timeNs (s : State) : Nat := fixN s * 1024 + s.clock.sub.toNat

/-- Extended TAI nanoseconds as Binnacle keeps them (R104). -/
def taiNs (s : State) : Nat := s.clock.tai + s.clock.sub.toNat

/-- (a − b) modulo 2^22. (Log: DESIGN CHOICE, log entry 30.) -/
def fixSub (a b : Nat) : Nat := (a + 2 ^ 22 - b % 2 ^ 22) % 2 ^ 22

/-- (a − b) modulo 2^32. -/
def ns32 (a b : Nat) : Nat := (a + 2 ^ 32 - b % 2 ^ 32) % 2 ^ 32

def fixOf (n : Nat) : FixNo := BitVec.ofNat 22 n

/-- The event happens at ns of the Fix in progress; time does not run back within a Fix. (Log: DESIGN CHOICE, log entry 30.) -/
def atNs (ns : BitVec 10) (s : State) : State :=
  if s.clock.sub.toNat < ns.toNat then { s with clock.sub := ns } else s

/-! ### Open values -/

/-- The next draw of the root of trust's random source. Draws 0 and 1 are the flow seeds of reset. (Log: DESIGN CHOICE, log entry 10.) -/
def randomDraw (s : State) : U64 := Config.random (s.draws + 2)

/-- A value the spec leaves open, by a label. (Log: DESIGN CHOICE, log entry 10.) -/
def openDraw (label : Nat) (s : State) : U64 := Config.freeValue label s.draws

/-- Log: DESIGN CHOICE, log entry 10. -/
def advanceDraws (n : Nat) (s : State) : State := { s with draws := s.draws + n }

/-! ### Counters -/

def inc64 (c : U64) (n : Nat) : U64 := c + BitVec.ofNat 64 n

/-! ### Ports -/

def portOf (s : State) (p : Nat) : Port := kget portReset s.ports p

def modPort (p : Nat) (f : Port → Port) (s : State) : State :=
  { s with ports := kset portReset s.ports p (f (portOf s p)) }

/-- A power domain of Table 17.1 is on. -/
def domainOn (s : State) (d : Nat) : Bool := s.pwr.on.getLsbD d

/-- The SerDes domain of a lane (Table 17.1). -/
def serdesOn (s : State) (p : Nat) : Bool := domainOn s (56 + p / 32)

/-- Set a bit of MAC_STICKY (Table 20.8): none while the lane's domain is off (R454). -/
def stickPort (p bit : Nat) (s : State) : State :=
  if serdesOn s p then modPort p (fun k => { k with sticky := k.sticky ||| (1 <<< bit) }) s else s

/-- Time since reset, unaffected by steps: 1,024 ns to a boundary. (Log: DESIGN CHOICE, log entry 30.) -/
def monoNs (s : State) : Nat := s.clock.boundaries * 1024 + s.clock.sub.toNat

def pwrOfCode (n : Nat) : PwrState := if n = 0 then .flight else if n = 1 then .basking else if n = 2 then .roost else .cocoon

def isSleep (st : PwrState) : Bool := st == .roost || st == .cocoon

/-- A power order of the manager, as an input of rank 1. -/
def powerInput (n : Nat) (s : State) : Input :=
  { rank := 1, sub := 0, due := s.clock.fix + 1, body := .order (.powerState n) }

/-- An order to an awake state waits for the next sample. -/
def exitQueued (s : State) : Bool := s.ctl.queue.any (fun i => i.body == .order (.powerState 0))

/-- An order of the manager that enters a sleep state. -/
def entryOrder (i : Input) : Bool := i.body == .order (.powerState 2) || i.body == .order (.powerState 3)

/-- In Roost or Cocoon an exit order is presented for the next boundary (R403), once; an entry order of the same sample is
withdrawn (R404). -/
def orderExit (s : State) : State :=
  if !isSleep s.pwr.st || s.pwr.transit.any (fun t => !t.entry) || exitQueued s then s
  else { s with ctl.queue := s.ctl.queue.filter (fun i => !entryOrder i) ++ [powerInput 0 s] }

/-- Roost or Cocoon is in force, being entered or being left: the device forwards nothing (R399). -/
def asleep (s : State) : Bool := s.pwr.st == .roost || s.pwr.st == .cocoon || s.pwr.transit.isSome

/-! ### Sparse bytes of memory -/

/-- A byte of a sparse memory; an unlisted address reads 0 (R194). (Log: DESIGN CHOICE, log entry 9.) -/
def memByte (m : List Host.Cell) (a : Nat) : Byte := kget 0 m a

/-- Write one byte, keeping the canonical form: a byte equal to what an unlisted address reads as is not listed. -/
def memPut (m : List Host.Cell) (a : Nat) (b : Byte) : List Host.Cell := kset 0 m a b

def memReadN (m : List Host.Cell) (a : Nat) : Nat → Bytes
  | 0 => []
  | n + 1 => memByte m a :: memReadN m (a + 1) n

def memWriteN (m : List Host.Cell) (a : Nat) : Bytes → List Host.Cell
  | [] => m
  | b :: bs => memWriteN (memPut m a b) (a + 1) bs

/-- Addresses strictly rise from lo. -/
def memSorted : Nat → List Host.Cell → Bool
  | _, [] => true
  | lo, (a, _) :: m => decide (lo ≤ a) && memSorted (a + 1) m

/-- The canonical form of a memory: strictly rising addresses, no entry that reads as an unlisted address does. -/
def memWf (m : List Host.Cell) : Bool := memSorted 0 m && m.all (fun c => c.2 != 0)

/-! ### What leaves over PCI Express -/

def hostOut (w : HostWrite) (s : State) : State := { s with out.host := s.out.host ++ [w] }

def hostMem (addr : Nat) (bs : Bytes) (s : State) : State :=
  if bs.isEmpty then s else hostOut (.mem (BitVec.ofNat 64 addr) bs) s

/-- An MSI-X vector: sent, or held pending while its table entry is masked (Table 3.1, Table 3.2). -/
def sendMsix (v : BitVec 6) (s : State) : State :=
  let e := kget (2 ^ 96 : BitVec 128) s.host.msix v.toNat
  if e.getLsbD 96 then { s with host.pba := s.host.pba ||| (1 <<< v.toNat) }
  else hostOut (.msix v) s

/-! ### Counting events (R433 to R435) -/

/-- The counters whose selection is not at reset: their numbers. -/
def perfSelected (s : State) : List Nat :=
  (s.ctl.cfg.filter (fun e => objSub e.1 == 15 && objFld e.1 == 1)).map (fun e => objIdx e.1)

/-- The filter of R434; while domain 63 is off nothing is counted (R445). -/
def perfAdmits (s : State) (c ev priv master addr cls : Nat) : Bool :=
  domainOn s 63 && fv s 15 1 c 48 1 == 1 && fv s 15 1 c 0 16 == ev && (fv s 15 1 c 16 6).testBit priv
    && ((master ^^^ fv s 15 2 c 0 12) &&& fv s 15 2 c 16 12) == 0
    && decide (fv s 15 3 c 0 40 ≤ addr) && decide (addr ≤ fv s 15 4 c 0 40)
    && (fv s 15 1 c 32 16).testBit cls

/-- Add n to a counter, with its overflow and threshold flags (R435). -/
def perfBump (thresh n : Nat) (k : PerfCounter) : PerfCounter :=
  let old := k.value.toNat
  let sum := old + n
  let new := sum % 2 ^ 64
  let cross := thresh ≠ 0 && decide (old < thresh) && decide (thresh ≤ sum)
  { k with value := BitVec.ofNat 64 new, ovf := k.ovf || decide (2 ^ 64 ≤ sum), hit := k.hit || cross,
           crossed := k.crossed || cross }

/-- Report n occurrences of an event with its four attributes to the counters. (Log: DEDUCED, log entry 70.) -/
def perfEvent (ev priv master addr cls n : Nat) (s : State) : State :=
  (perfSelected s).foldl (fun s c =>
    if perfAdmits s c ev priv master addr cls then
      { s with perf.counters := kmod perfCounterReset s.perf.counters c (perfBump (objVal s (oid 15 5 c)) n) }
    else s) s

/-! ### Fault messages (R379) -/

/-- Source, kind and class of a message (Tables 16.5 and 16.6). -/
abbrev FaultKind := Nat × Nat × Nat

def mkFault (k : FaultKind) (addr : Nat) (ports endpoints : List Nat) : FaultMsg :=
  { source := byteN k.1, kind := byteN k.2.1, cls := Fin.ofNat 4 k.2.2, addr := BitVec.ofNat 40 addr,
    ports := ports, endpoints := endpoints, injected := false }

/-- A block sends a message to Lodestar, where it arrives as a FAULT_MESSAGE event (R379). -/
def raiseScoped (k : FaultKind) (addr : Nat) (ports endpoints : List Nat) (s : State) : State :=
  { s with lod.wire := s.lod.wire ++ [mkFault k addr ports endpoints] }

def raiseFault (k : FaultKind) (addr : Nat) (s : State) : State := raiseScoped k addr [] [] s

def fkLINK_UP : FaultKind := (0x01, 1, 3)
def fkLINK_DOWN : FaultKind := (0x01, 2, 3)
def fkTCAM_MISMATCH : FaultKind := (0x03, 3, 1)
def fkMETA_PARITY : FaultKind := (0x03, 4, 1)
def fkGEN_DRAIN_STUCK : FaultKind := (0x03, 5, 2)
def fkREC_CRC : FaultKind := (0x05, 1, 1)
def fkOWNER_LOST : FaultKind := (0x05, 2, 2)
def fkSTASH_FULL : FaultKind := (0x05, 6, 3)
def fkSK_WATCHDOG : FaultKind := (0x07, 5, 2)
def fkSK_ILLEGAL : FaultKind := (0x07, 6, 2)
def fkDECIDE_FAIL : FaultKind := (0x07, 7, 3)
def fkUC_REJECT : FaultKind := (0x08, 3, 2)
def fkSELFTEST_FAIL : FaultKind := (0x08, 4, 2)
def fkCELL_AUDIT : FaultKind := (0x09, 6, 2)
def fkFLUSH_STUCK : FaultKind := (0x09, 7, 2)
def fkDOUBLE_FREE : FaultKind := (0x0B, 1, 2)
def fkFOREIGN_FREE : FaultKind := (0x0B, 2, 2)
def fkFREE_RANGE : FaultKind := (0x0B, 3, 2)
def fkPOOL_LOW : FaultKind := (0x0B, 6, 3)
def fkHBM_ECC_CORR : FaultKind := (0x0C, 1, 3)
def fkHBM_ECC_UNCORR : FaultKind := (0x0C, 2, 2)
def fkHBM_TRAIN_FAIL : FaultKind := (0x0C, 4, 2)
def fkHBM_PC_DEAD : FaultKind := (0x0C, 5, 0)
def fkHBM_TEMP_HIGH : FaultKind := (0x0C, 6, 3)
def fkSYNC_LOCKED : FaultKind := (0x0E, 1, 3)
def fkSYNC_LOST : FaultKind := (0x0E, 2, 3)
def fkHOLDOVER_END : FaultKind := (0x0E, 3, 3)
def fkTIME_STEP : FaultKind := (0x0E, 4, 3)
def fkCAP_OVERRUN : FaultKind := (0x0E, 5, 3)
def fkMETER_TENANT_MISMATCH : FaultKind := (0x0F, 3, 3)
def fkBILL_OVERRUN : FaultKind := (0x0F, 4, 2)
def fkCKPT_LATE : FaultKind := (0x0F, 5, 2)
def fkPAIR_UP : FaultKind := (0x10, 1, 3)
def fkPAIR_MISMATCH : FaultKind := (0x10, 2, 2)
def fkPEER_LOST : FaultKind := (0x10, 3, 2)
def fkHOME_ACTIVE : FaultKind := (0x10, 4, 3)
def fkMIRROR_OVERFLOW : FaultKind := (0x10, 5, 2)
def fkMIRROR_NOROOM : FaultKind := (0x10, 6, 2)
def fkPAIR_COLLISION : FaultKind := (0x10, 7, 3)
def fkLEASE_EXPIRED : FaultKind := (0x11, 1, 3)
def fkINBAND_AUTH : FaultKind := (0x11, 2, 3)
def fkOTP_ECC_UNCORR : FaultKind := (0x12, 1, 0)
def fkKEY_CHECK : FaultKind := (0x12, 2, 0)
def fkRNG_HEALTH : FaultKind := (0x12, 3, 2)
def fkIMAGE_REJECT : FaultKind := (0x12, 4, 2)
def fkDOMAIN_FAIL : FaultKind := (0x13, 1, 2)
def fkTHERM_WARN : FaultKind := (0x13, 2, 3)
def fkTHERM_TRIP : FaultKind := (0x13, 3, 0)
def fkFETCH_ERR : FaultKind := (0x14, 1, 2)
def fkFLR : FaultKind := (0x14, 2, 3)
def fkTENANT_REJECT : FaultKind := (0x15, 1, 1)
def fkTAG_CRC : FaultKind := (0x15, 2, 1)
def fkTRAILER_MISMATCH : FaultKind := (0x15, 3, 1)
def fkCHECKER_DISAGREE : FaultKind := (0x15, 4, 1)
def fkCHECKER_SELFTEST : FaultKind := (0x15, 5, 1)

/-! ### Completions (R69, R73 to R75) -/

def outOk (result : Nat) : CmdOut := { status := 0, winRank := 0, result := result, data := [] }
/-- An outcome whose RESULT no chapter defines. (Log: DESIGN CHOICE, log entry 75.) -/
def outErr (status : Nat) : CmdOut := { status := status, winRank := 0, result := 0, data := [], free := true }
def outErrAt (status result : Nat) : CmdOut := { status := status, winRank := 0, result := result, data := [] }
def outData (result : Nat) (data : Bytes) : CmdOut := { status := 0, winRank := 0, result := result, data := data }

/-- OK with a payload and a RESULT that no chapter defines. (Log: DESIGN CHOICE, log entry 75.) -/
def outOpen (data : Bytes) : CmdOut := { status := 0, winRank := 0, result := 0, data := data, free := true }

/-- The completion entry's bytes (Table 3.6). -/
def cplBytes (c : Cpl) : Bytes :=
  leBytes 4 c.tag.toNat ++ [byteN c.status, byteN c.winRank, 0, 0] ++ leBytes 4 c.fix.toNat
    ++ leBytes 4 c.result.toNat

def ringOf (s : State) (n : Nat) : Ring := s.host.rings.getD n ringReset

def modRing (n : Nat) (f : Ring → Ring) (s : State) : State :=
  { s with host.rings := modAt s.host.rings n f }

/-- Entries of a ring of log2 size k. -/
def ringSize (k : U32) : Nat := 2 ^ (bitsOf k.toNat 0 5)

/-- Bytes of a context string in ASCII. -/
def asciiB (cs : List Nat) : Bytes := cs.map byteN

/-- "SUEVO-IR" (R85). -/
def ctxIR : Bytes := asciiB [83, 85, 69, 86, 79, 45, 73, 82]
/-- "SUEVO-IB" (R84). -/
def ctxIB : Bytes := asciiB [83, 85, 69, 86, 79, 45, 73, 66]
/-- "SUEVO-FT" (R394). -/
def ctxFT : Bytes := asciiB [83, 85, 69, 86, 79, 45, 70, 84]

/-- UNIQUE_ID, byte 0 first (R478). -/
def uniqueIdB : Bytes := beBytes 16 Config.uniqueId.toNat

/-- PORT_MAC of a port, as it stands in a frame (R477). -/
def portMacB (s : State) (p : Nat) : Bytes := beBytes 6 (fv s 1 0xB p 0 48)

/-- A frame without FCS, with its FCS (least significant byte first on the wire). -/
def withFcs (bs : Bytes) : Bytes :=
  let b := padTo (max 60 bs.length) bs
  b ++ leBytes 4 (crc32 b)

/-- A frame that the device originates waits for the highest strict queue of its port (R85, R107). -/
def originate (p : Nat) (frame : Bytes) (s : State) : State :=
  { s with ctl.origin := s.ctl.origin ++ [(p, frame)] }

/-- The signed response frame of R85 (Table 3.12), to the requester's address. It carries the VLAN tag of IB_VLAN unless that is
0xFFFF: the spec does not say whether it has a tag. (Log: DESIGN CHOICE, log entry 79.) -/
def inbandResponse (seq : U64) (port : Nat) (mac : BitVec 48) (c : Cpl) (data : Bytes) (s : State) : State :=
  let body := [1, 0xFF] ++ beBytes 2 data.length ++ zerosB 4 ++ beBytes 8 seq.toNat ++ cplBytes c ++ data
  let sig := padTo 114 (Config.signIdentity (ctxIR ++ uniqueIdB) body)
  let tagB : Bytes := if s.ctl.ibVlan = 0xFFFF then [] else [0x81, 0x00] ++ beBytes 2 (s.ctl.ibVlan.toNat % 4096)
  originate port (withFcs (beBytes 6 mac.toNat ++ portMacB s port ++ tagB ++ beBytes 2 s.ctl.ibEthertype.toNat
    ++ body ++ sig)) s

def privOf (src : CmdSrc) : Nat :=
  match src with
  | .ring n => n.val
  | .inband _ _ _ _ _ => 4

/-- A command reaches its outcome: its payload and completion entry are written (ring), or its response frame is sent
(in-band). Completion entries gather in `ctl.cpls` until the write of R69. A ring that owes no completion is one that
the host interface has been reset under: nothing is written (R86). A RESULT that no chapter defines is a free value. (Log: DEDUCED, log entry 25; DESIGN CHOICE, log entry 75.) -/
def complete (code : Nat) (p : CmdPkt) (o : CmdOut) (fix : FixNo) (s : State) : State :=
  let c : Cpl := { tag := p.tag, status := o.status, winRank := o.winRank, fix := fix,
                   result := BitVec.ofNat 32 (if o.free then (openDraw 24 s).toNat else o.result), irq := p.flags.getLsbD 1 }
  let s := if o.free then advanceDraws 1 s else s
  let s := perfEvent 0x1003 (privOf p.src) 0 code (min 15 o.status) 1 s
  match p.src with
  | .ring n =>
    if (ringOf s n.val).promised = 0 then s
    else
      let s := hostMem p.payloadAddr.toNat o.data s
      { s with ctl.cpls := s.ctl.cpls ++ [(n.val, c)] }
  | .inband _ seq port mac _ => inbandResponse seq port.val mac c o.data s

/-- A request to the host has a 64-bit address exactly where the upper 32 bits are not zero (R61). -/
def wideRequest (a : U64) : Bool := decide (2 ^ 32 ≤ a.toNat)

/-- Write one completion entry of a ring (R69) at its place in host memory. -/
def writeCpl (n : Nat) (c : Cpl) (s : State) : State :=
  let r := ringOf s n
  let idx := r.cqTail
  let s := hostOut (.cpl (Fin.ofNat 4 n) idx (r.cqBase + BitVec.ofNat 64 (16 * idx)) (cplBytes c)) s
  modRing n (fun r => { r with cqTail := (idx + 1) % ringSize r.cqSize, promised := r.promised - 1 }) s

/-- A draining ring with nothing left to complete goes idle (R66). -/
def ringSettle (r : Ring) : Ring :=
  if r.state == .draining && r.promised == 0 && r.waiting.isEmpty && r.inFetch.isEmpty then
    { r with state := .idle } else r

/-- The completions of one ring: entries, then the shadow word, then the interrupt (R69). -/
def flushRing (n : Nat) (s : State) : State :=
  let cs := (s.ctl.cpls.filter (fun e => e.1 == n)).map (fun e => e.2)
  if cs.isEmpty then s
  else
    let s := cs.foldl (fun s c => writeCpl n c s) s
    let r := ringOf s n
    let s := if r.shadow = 0 then s else hostMem r.shadow.toNat (leBytes 4 r.cqTail) s
    let s := if cs.any (fun c => c.irq) then sendMsix r.irq s else s
    modRing n ringSettle s

/-- Write every gathered completion (Table 2.2, step 9). -/
def flushCpls (s : State) : State :=
  let s := flushRing 3 (flushRing 2 (flushRing 1 (flushRing 0 s)))
  { s with ctl.cpls := [] }

end Sys2Proof.Machine
end

