-- ==== Sys2Proof/Machine/Pools.lean ====
section
/-! DEFINITION. The buffer pool manager (chapter 12): grants, refusals, frees, and the events at its ports. -/

namespace Sys2Proof.Machine

open Sys2Proof

/-- POOL_GIB in force (R302). -/
def poolGib (s : State) (pool : Nat) : Nat := fv s 8 1 pool 0 6

def poolSize (s : State) (pool : Nat) : Nat := poolBuffers (poolGib s) pool

/-- Bytes of a pool's buffer (Table 12.1). -/
def bufBytes (pool : Nat) : Nat :=
  if pool = 0 then 64 else if pool = 1 then 256 else if pool = 2 then 1024 else if pool = 3 then 128
  else if pool = 4 then 512 else if pool = 5 then 2048 else 8192

/-- Account of an owner ID (Table 12.2). -/
def acctOf (owner : Nat) : Nat :=
  if owner < 0x200 then 8
  else if owner ≤ 0x203 then 9
  else if 0x210 ≤ owner && owner ≤ 0x213 then owner - 0x210
  else if 0x230 ≤ owner && owner ≤ 0x233 then 4 + (owner - 0x230)
  else if owner = 0x240 then 10
  else if owner = 0x250 then 11
  else if owner = 0x260 then 12
  else 13

/-- The pools an account may use (Table 12.2). -/
def acctPools (acct : Nat) : List Nat :=
  if acct ≤ 3 then [0, 1] else if acct ≤ 7 then [6] else if acct = 8 then [0, 1, 2, 3, 4, 5]
  else if acct = 9 then [3, 4, 5] else if acct = 10 then [2, 3, 4, 5, 6] else if acct = 11 then [3, 4, 5]
  else if acct = 12 then [1, 2] else []

def acctUse (s : State) (acct pool : Nat) : AcctUse := kget acctUseReset s.pools.acct (acct * 8 + pool)
def rsvMin (s : State) (acct pool : Nat) : Nat := fv s 8 2 (acct * 8 + pool) 0 29
def acctMax (s : State) (acct pool : Nat) : Nat := fv s 8 2 (acct * 8 + pool) 32 29

def sumAccts (f : Nat → Nat) : Nat := (List.range 16).foldl (fun a k => a + f k) 0

/-- SHARED and the shared use of a pool (R297). -/
def poolShared (s : State) (pool : Nat) : Nat := poolSize s pool - sumAccts (fun a => rsvMin s a pool)
def poolSharedUse (s : State) (pool : Nat) : Nat := sumAccts (fun a => (acctUse s a pool).use - rsvMin s a pool)

def poolUse (s : State) (pool : Nat) : Nat := sumAccts (fun a => (acctUse s a pool).use)

/-- Free buffers: buffer 0 of pool 3 is never granted (R306). -/
def poolFreeCount (s : State) (pool : Nat) : Nat :=
  poolSize s pool - (if pool = 3 then 1 else 0) - poolUse s pool

def bufRef (pool idx : Nat) : Nat := pool * 2 ^ 29 + idx
def refPool (ref : Nat) : Nat := ref / 2 ^ 29
def refIdx (ref : Nat) : Nat := ref % 2 ^ 29

/-- The first free buffer index of the n indices from lo, at or after i, in a circle. Which free buffer is granted is
left open by the spec: the starting point is a free value. (Log: DESIGN CHOICE, log entry 48.) -/
def findFree (s : State) (pool lo n : Nat) : Nat → Nat → Nat
  | 0, i => lo + i % n
  | fuel + 1, i =>
    let k := lo + i % n
    if (kfind s.pools.alloc (bufRef pool k)).isSome || (pool == 3 && k == 0) then findFree s pool lo n fuel (i + 1)
    else k

/-- The indices from which a pool grants: outside SOLO, half of pools 3 to 5 (R352). First index and count. -/
def poolHalf (s : State) (pool : Nat) : Nat × Nat :=
  let n := poolSize s pool
  if s.pair.st = .solo || pool < 3 || 5 < pool then (0, n)
  else if fv s 13 5 0 0 1 = 0 then (0, n / 2) else (n / 2, n - n / 2)

/-- The half from which a pool grants has a free buffer. -/
def halfFree (s : State) (pool : Nat) : Bool :=
  let h := poolHalf s pool
  let used := (s.pools.alloc.filter (fun e => refPool e.1 == pool && decide (h.1 ≤ refIdx e.1)
    && decide (refIdx e.1 < h.1 + h.2))).length
  decide (used + (if pool = 3 && h.1 = 0 then 1 else 0) < h.2)

/-- The decision of R297. -/
def poolDecide (s : State) (acct pool : Nat) : Bool :=
  let u := (acctUse s acct pool).use
  if acctMax s acct pool ≤ u then false
  else if poolFreeCount s pool = 0 || !halfFree s pool then false
  else if u < rsvMin s acct pool then true
  else decide (poolSharedUse s pool < poolShared s pool)

def modPoolCnt (pool : Nat) (f : PoolCounts → PoolCounts) (s : State) : State :=
  { s with pools.cnt := kmod poolCountsReset s.pools.cnt pool f }

def modAcct (acct pool : Nat) (f : AcctUse → AcctUse) (s : State) : State :=
  { s with pools.acct := kmod acctUseReset s.pools.acct (acct * 8 + pool) f }

/-- SHARED less the shared use may have fallen: POOL_LOW is raised where it reaches the mark (Table 12.4). -/
def poolLowCheck (pool : Nat) (s : State) : State :=
  let left := poolShared s pool - poolSharedUse s pool
  if left ≤ fv s 8 3 pool 0 29 then
    (if s.pools.low.contains pool then s
     else raiseFault fkPOOL_LOW (pool * 2 ^ 32 + left) { s with pools.low := pool :: s.pools.low })
  else { s with pools.low := s.pools.low.filter (fun p => p != pool) }

def poolRefuse (owner acct pool : Nat) (size : Bool) (s : State) : State :=
  let s := perfEvent 0x0802 5 owner 0 pool 1 s
  let s := modAcct acct pool (fun a => { a with nobuf := a.nobuf + 1 }) s
  modPoolCnt pool (fun c => if size then { c with nobuf := c.nobuf + 1, sizeRefused := c.sizeRefused + 1 }
                            else { c with nobuf := c.nobuf + 1 }) s

/-- A request for a buffer of a pool by an owner, charged to an account; `buyer` is the owner ID that the buffer carries
at first (R296, R297, R299). (Log: DESIGN CHOICE, log entry 48.) -/
def poolTake (owner acct pool : Nat) (s : State) : Option Nat × State :=
  if !(acctPools acct).contains pool then (none, poolRefuse owner acct pool true s)
  else if poolDecide s acct pool then
    let h := poolHalf s pool
    let i := findFree s pool h.1 h.2 (s.pools.alloc.length + 2) ((openDraw 12 s).toNat)
    let ref := bufRef pool i
    let s := advanceDraws 1 { s with pools.alloc := kput s.pools.alloc ref owner }
    let s := modAcct acct pool (fun a => { a with use := a.use + 1, high := max a.high (a.use + 1) }) s
    let s := modPoolCnt pool (fun c => { c with allocs := c.allocs + 1 }) s
    let s := perfEvent 0x0801 5 owner ref pool 1 s
    (some ref, poolLowCheck pool s)
  else (none, poolRefuse owner acct pool false s)

/-- The smallest pool of the medium whose buffer holds the size (R295). -/
def poolFor (hbm : Bool) (size : Nat) : Option Nat :=
  if hbm then
    (if size ≤ 128 then some 3 else if size ≤ 512 then some 4 else if size ≤ 2048 then some 5
     else if size ≤ 8192 then some 6 else none)
  else (if size ≤ 64 then some 0 else if size ≤ 256 then some 1 else if size ≤ 1024 then some 2 else none)

/-- A request by medium and size (R295). A size beyond every pool is counted against the largest pool of the medium. -/
def poolRequest (owner : Nat) (hbm : Bool) (size : Nat) (s : State) : Option Nat × State :=
  match poolFor hbm size with
  | some pool => poolTake owner (acctOf owner) pool s
  | none => (none, poolRefuse owner (acctOf owner) (if hbm then 6 else 2) true s)

/-- Why a free is refused (R301). -/
inductive FreeRefusal where
  | double | foreign | range
deriving DecidableEq, Repr

/-- The check of a free; `may` says whether the freeing party may free a buffer of that owner. -/
def freeCheck (s : State) (ref : Nat) (may : Nat → Bool) : Option FreeRefusal :=
  let pool := refPool ref
  if pool = 7 || poolSize s pool ≤ refIdx ref || (pool = 3 && refIdx ref = 0) then some .range
  else match kfind s.pools.alloc ref with
    | none => some .double
    | some o => if o ≠ 0xFFF && may o then none else some .foreign

/-- The account to which an allocated buffer is charged: a provisional one is charged to its final owner (R299). (Log: DEDUCED, log entry 49.) -/
def chargedAcct (s : State) (ref : Nat) : Nat :=
  match kfind s.pools.prov ref with
  | some o => acctOf o
  | none => acctOf (kget 0 s.pools.alloc ref)

/-- SHARED less the shared use may have risen above the mark: POOL_LOW may be raised again. -/
def poolRiseCheck (pool : Nat) (s : State) : State :=
  if poolShared s pool - poolSharedUse s pool ≤ fv s 8 3 pool 0 29 then s
  else { s with pools.low := s.pools.low.filter (fun p => p != pool) }

/-- A party gives a buffer of its own back. A quarantined buffer stays as it is (R305). -/
def poolRelease (ref : Nat) (s : State) : State :=
  if kfind s.pools.alloc ref = some 0xFFF then s else
  let pool := refPool ref
  let acct := chargedAcct s ref
  let s := { s with pools.alloc := kdel s.pools.alloc ref, pools.prov := kdel s.pools.prov ref }
  let s := modAcct acct pool (fun a => { a with use := a.use - 1 }) s
  let s := modPoolCnt pool (fun c => { c with frees := c.frees + 1 }) s
  poolRiseCheck pool s

/-- A free by a party of an account (R301): applied, or refused with its message. -/
def poolFree (acct ref : Nat) (may : Nat → Bool) (s : State) : Option FreeRefusal × State :=
  match freeCheck s ref may with
  | none => (none, poolRelease ref s)
  | some r =>
    let addr := acct * 2 ^ 32 + ref
    let pool := refPool ref
    match r with
    | .double => (some r, raiseFault fkDOUBLE_FREE addr (modPoolCnt pool (fun c => { c with doubleFree := c.doubleFree + 1 }) s))
    | .foreign => (some r, raiseFault fkFOREIGN_FREE addr (modPoolCnt pool (fun c => { c with foreignFree := c.foreignFree + 1 }) s))
    | .range => (some r, raiseFault fkFREE_RANGE addr s)

/-- Every buffer whose owner ID is the given one is freed (R299: an engine's loss). -/
def poolFreeOwner (owner : Nat) (s : State) : State :=
  ((s.pools.alloc.filter (fun e => e.2 == owner)).map (fun e => e.1)).foldl (fun s r => poolRelease r s) s

/-- EXT_PTR of a buffer of pools 3 to 5 (R294). -/
def extPtrOf (s : State) (ref : Nat) : Nat :=
  let pool := refPool ref
  let b := if pool = 3 then 0 else if pool = 4 then poolGib s 3 * 2 ^ 30 else (poolGib s 3 + poolGib s 4) * 2 ^ 30
  (b + refIdx ref * bufBytes pool) / 128

/-- The buffer reference at an EXT_PTR, if it is the first line of one (R294). -/
def refOfExt (s : State) (ext : Nat) : Nat :=
  let a := ext * 128
  let b4 := poolGib s 3 * 2 ^ 30
  let b5 := (poolGib s 3 + poolGib s 4) * 2 ^ 30
  if a < b4 then bufRef 3 (a / 128) else if a < b5 then bufRef 4 ((a - b4) / 512) else bufRef 5 ((a - b5) / 2048)

/-- POOL_REQUEST: the requests of one cycle, served from the port `start` upward, wrapping (R298). -/
def doPoolRequest (start : Fin 46) (reqs : List PoolReq) (s : State) : State :=
  let ordered := sortBy (fun r : PoolReq => (r.port.val + 46 - start.val) % 46) reqs
  ordered.foldl (fun s r =>
    let (a, s) := poolRequest r.owner.toNat r.hbm r.size s
    { s with pools.answers := s.pools.answers ++ [(r.port.val, a)] })
    { s with pools.start := start.val, pools.answers := [] }

/-- BUFFER_FREE: a free presented at the manager by an owner (R301). -/
def doBufferFree (owner : BitVec 12) (ref : U32) (s : State) : State :=
  (poolFree (acctOf owner.toNat) ref.toNat (fun o => o == owner.toNat) s).2

end Sys2Proof.Machine
end

