-- ==== Sys2Proof/Machine/Bus.lean ====
section
/-! DEFINITION. The metadata bus (Table 6.4), packets in the device, Monarch checkpoints, damaged words. -/

namespace Sys2Proof.Machine

open Sys2Proof

/-! ### Metadata bus fields: lowest bit and width (Table 6.4) -/

abbrev BusField := Nat × Nat

def bING_TS : BusField := (0, 32)
def bING_PORT : BusField := (32, 7)
def bPASS : BusField := (39, 2)
def bGEN : BusField := (41, 1)
def bRECIRC_CAUSE : BusField := (42, 3)
def bTENANT : BusField := (45, 24)
def bTENANT_CRC : BusField := (69, 8)
def bENDPOINT : BusField := (77, 18)
def bENCAP : BusField := (95, 2)
def bPARSE_ERR : BusField := (97, 4)
def bFLOW_STATUS : BusField := (101, 3)
def bFLOW_HANDLE : BusField := (104, 32)
def bFLOW_ACTION : BusField := (136, 32)
def bFLOW_GEN : BusField := (168, 16)
def bPM_STATUS : BusField := (184, 3)
def bPM_PATTERN : BusField := (187, 16)
def bDEST_KIND : BusField := (203, 2)
def bDEST : BusField := (205, 17)
def bTC : BusField := (222, 3)
def bDROP : BusField := (225, 1)
def bDROP_REASON : BusField := (226, 8)
def bMARKS : BusField := (234, 3)
def bFLOW_REQ : BusField := (237, 3)
def bSTAGE_HIT : BusField := (240, 12)
def bRECIRC : BusField := (252, 1)
def bDECAP : BusField := (253, 1)
def bEP_SET : BusField := (254, 1)
def bHDR_VALID : BusField := (320, 64)
def bUSER : BusField := (384, 128)

def busGet (b : BitVec 512) (f : BusField) : Nat := bitsOf b.toNat f.1 f.2
def busSet (b : BitVec 512) (f : BusField) (v : Nat) : BitVec 512 := BitVec.ofNat 512 (setBits b.toNat f.1 f.2 v)

def pget (k : Pkt) (f : BusField) : Nat := busGet k.bus f
def pset (f : BusField) (v : Nat) (k : Pkt) : Pkt := { k with bus := busSet k.bus f v }

/-! ### Packets -/

/-- Pipeline of a port (R14). -/
def pipeOf (port : Nat) : Nat := port / 32

/-- A packet with its ingress timestamp in 1/16 ns (R112). -/
def pktReset (port : Nat) (stamp : BitVec 36) : Pkt :=
  { port := port, rx := [], tx := [], tail := .open, ingTs := BitVec.ofNat 32 (stamp.toNat / 16), ingSub := BitVec.ofNat 4 stamp.toNat,
    bus := busSet (busSet 0 bING_TS (stamp.toNat / 16)) bING_PORT port, stage := .ingress, part := .staging, cells := 0,
    refs := 0, multicast := false, hv := [], payOff := 1048576, lvl2 := none, levels := [], skipTo := 0,
    pmClass := none, pmKept := [], pmScanned := 0, pmWhole := false, streamHit := none, streamGap := false, laneMiss := false, ans := none, failDrop := none, epoch := none, wasHeld := false, coming := [], ingMet := 0, pg := 0,
    counted := false, bufs := [], system := false, monarch := false, ptp := false, maxLen := 0, passCfg := [],
    members := [], starved := false }

def pktOf (s : State) (h : Nat) : Option Pkt := kfind s.sw.pkts h

def putPkt (h : Nat) (k : Pkt) (s : State) : State := { s with sw.pkts := kput s.sw.pkts h k }
def dropPkt (h : Nat) (s : State) : State := { s with sw.pkts := kdel s.sw.pkts h }

def modPipe (i : Nat) (f : ScPipe → ScPipe) (s : State) : State := { s with sw.pipes := modAt s.sw.pipes i f }
def pipeState (s : State) (i : Nat) : ScPipe := s.sw.pipes.getD i scPipeReset
def modPipeCnt (i : Nat) (f : PipeCounts → PipeCounts) (s : State) : State :=
  { s with cls.cnt := modAt s.cls.cnt i f }

/-- The length of a frame as received (R476): what has arrived and what is still to come. -/
def rxLen (k : Pkt) : Nat := k.rx.length + k.coming.length

def isWhole (k : Pkt) : Bool := k.tail != .open

/-- The pipelines' fields in force. -/
def pipeCfg (s : State) : KMap U64 := s.ctl.cfg.filter (fun e => objSub e.1 == 2)

/-- The state as a packet in a pipeline sees it: with the pipeline's fields as its pass found them (R8, R41). -/
def passView (k : Pkt) (s : State) : State :=
  { s with ctl.cfg := s.ctl.cfg.filter (fun e => decide (objSub e.1 < 2)) ++ k.passCfg
                        ++ s.ctl.cfg.filter (fun e => decide (2 < objSub e.1)) }

/-- A packet leaves the count of its generation (R148). -/
def uncount (k : Pkt) (s : State) : State :=
  if k.counted then { s with cls.genCount := modAt s.cls.genCount (pget k bGEN) (fun n => n - 1) } else s

/-! ### The tenant tag (R20, R138) -/

/-- TENANT_CRC (R138): CRC-8, polynomial 0x2F, initial value 0xFF, over 43 bits, most significant first. -/
def crc8Bits (v : Nat) : Nat → Nat → Nat
  | 0, c => c
  | n + 1, c =>
    let top := (c.testBit 7) != (v.testBit n)
    let sh := (c * 2) % 256
    crc8Bits v n (if top then sh ^^^ 0x2F else sh)

def tenantCrc (epSet endpoint tenant : Nat) : Nat :=
  crc8Bits (epSet * 2 ^ 42 + endpoint * 2 ^ 24 + tenant) 43 0xFF

/-- The tag of a packet holds (R20). -/
def tagOk (k : Pkt) : Bool :=
  k.system || pget k bTENANT_CRC == tenantCrc (pget k bEP_SET) (pget k bENDPOINT) (pget k bTENANT)

/-! ### Monarch (R439 to R442) -/

/-- Deltas in ns from ING_TS, saturating (R441). -/
def monDelta (s : State) (ts : U32) : Nat := min 16777215 (ns32 (timeNs s) ts.toNat)

/-- A checkpoint of a tagged packet (Table 19.2). -/
def monPoint (h : Nat) (kind : Nat) (k : Pkt) (s : State) : State :=
  if k.monarch then
    let w := BitVec.ofNat 32 (kind + pget k bPASS * 16 + monDelta s k.ingTs * 256)
    { s with perf.store := modAt s.perf.store (pipeOf k.port) (fun rs =>
        rs.map (fun r => if r.pkt = h && decide (r.points.length < 24) then { r with points := r.points ++ [w] } else r)) }
  else s

/-- Tag a packet if a token and a store entry remain (R439, R440). (Log: DESIGN CHOICE, log entry 35.) -/
def monTag (h : Nat) (byMark : Bool) (k : Pkt) (s : State) : Bool × State :=
  let pipe := pipeOf k.port
  if s.perf.tokens = 0 then (false, { s with perf.skipped := s.perf.skipped + 1 })
  else if 64 ≤ (s.perf.store.getD pipe []).length then (false, { s with perf.storeFull := s.perf.storeFull + 1 })
  else
    let seq := s.perf.tagSeq.getD pipe 0
    let r : MonRec := { pkt := h, tagId := BitVec.ofNat 32 (pipe * 2 ^ 30 + seq), ingTs := k.ingTs, byMark := byMark,
                        points := [] }
    (true, { s with perf.tokens := s.perf.tokens - 1, perf.tagged := s.perf.tagged + 1,
                    perf.tagSeq := setAt s.perf.tagSeq pipe ((seq + 1) % 2 ^ 30),
                    perf.store := modAt s.perf.store pipe (fun rs => rs ++ [r]) })

/-! ### Damaged words (R157, R395) -/

/-- Set bits of a 64-bit value. -/
def popCount (v : U64) : Nat := (List.range 64).foldl (fun n i => if v.getLsbD i then n + 1 else n) 0

def damageAt (s : State) (src kind addr : Nat) : Option Damage :=
  s.lod.damage.find? (fun d => d.source.toNat == src && d.kind.toNat == kind && d.addr.toNat == addr)

def clearDamage (src kind addr : Nat) (s : State) : State :=
  { s with lod.damage := s.lod.damage.filter (fun d =>
      !(d.source.toNat == src && d.kind.toNat == kind && d.addr.toNat == addr)) }

/-- A fault message that an injected damage causes carries INJECTED (R395). -/
def raiseInjected (k : FaultKind) (addr : Nat) (ports endpoints : List Nat) (s : State) : State :=
  { s with lod.wire := s.lod.wire ++ [{ mkFault k addr ports endpoints with injected := true }] }

/-- A SEC-DED word is used (Table 16.2): a word with one flipped bit is corrected, one with more is uncorrectable. (Log: DEDUCED, log entry 32.) -/
def useWord (corr uncorr : FaultKind) (addr : Nat) (s : State) : Bool × State :=
  let d := match damageAt s corr.1 corr.2.1 addr with
    | some d => some d
    | none => damageAt s uncorr.1 uncorr.2.1 addr
  match d with
  | none => (false, s)
  | some d =>
    if popCount d.flip ≤ 1 then
      (false, raiseInjected corr addr [] [] (clearDamage d.source.toNat d.kind.toNat addr s))
    else (true, raiseInjected uncorr addr [] [] s)

def fkPG_CORR : FaultKind := (0x02, 1, 3)
def fkPG_UNCORR : FaultKind := (0x02, 2, 1)
def fkCLS_CORR : FaultKind := (0x03, 1, 3)
def fkCLS_UNCORR : FaultKind := (0x03, 2, 1)
def fkPM_CORR : FaultKind := (0x04, 1, 3)
def fkPM_UNCORR : FaultKind := (0x04, 2, 2)
def fkCELL_CORR : FaultKind := (0x09, 1, 3)
def fkCELL_UNCORR : FaultKind := (0x09, 2, 2)
def fkMC_UNCORR : FaultKind := (0x09, 5, 1)

/-- A group or member word of the multicast tables is used (R271, Table 10.9). Table 10.9 has no message for one that is corrected.
(Log: DEDUCED, log entry 32.) -/
def useMcWord (addr : Nat) (s : State) : Bool × State :=
  match damageAt s 0x09 5 addr with
  | none => (false, s)
  | some d =>
    if popCount d.flip ≤ 1 then (false, clearDamage 0x09 5 addr s) else (true, raiseInjected fkMC_UNCORR addr [] [] s)

end Sys2Proof.Machine
end

