-- ==== Sys2Proof/Machine/Rewrite.lean ====
section
/-! DEFINITION. The address and port rewrite of FLOW_ACTION (R167) and the check sums that it updates. -/

namespace Sys2Proof.Machine

open Sys2Proof

/-- Header offsets after n bytes have been removed from the front (R143); a header removed is none. -/
def levelShift (n : Nat) (l : Level) : Level :=
  let sh := fun (o : Option Nat) => match o with
    | some x => if n ≤ x then some (x - n) else none
    | none => none
  { l with ipOff := sh l.ipOff, l4Off := sh l.l4Off }

/-- One's complement sum of 16-bit words, folded. -/
def fold16 (n : Nat) : Nat :=
  let a := n % 65536 + n / 65536
  let b := a % 65536 + a / 65536
  b % 65536 + b / 65536

def sum16 : Bytes → Nat
  | [] => 0
  | [a] => a.toNat * 256
  | a :: b :: bs => a.toNat * 256 + b.toNat + sum16 bs

/-- A check sum after `old` has been replaced by `new` (bytes of even length). -/
def csumUpdate (c : Nat) (old new : Bytes) : Nat :=
  65535 - fold16 ((65535 - c) + sum16 (old.map (fun b => 255 - b)) + sum16 new)

/-- Replace n bytes of a frame at an offset and update the check sums at the offsets given. -/
def replaceCs (o : Nat) (new : Bytes) (cs : List Nat) (fr : Bytes) : Bytes :=
  let old := sliceB fr o new.length
  let fr := spliceB fr o new
  cs.foldl (fun fr c => spliceB fr c (beBytes 2 (csumUpdate (beAt fr c 2) old new))) fr

/-- Offset of the check sum of the transport header: TCP, or UDP where one is carried. (Log: DEDUCED, log entry 40.) -/
def l4Csum (fr : Bytes) (l : Level) : List Nat :=
  match l.l4Off with
  | none => []
  | some o =>
    if l.frag then []
    else if l.l4Role = 4 then [o + 16]
    else if l.l4Role = 5 then (if beAt fr (o + 6) 2 = 0 then [] else [o + 6])
    else []

/-- SNAT (ACT_OP 2) or DNAT (ACT_OP 3) on the headers of the key's level. -/
def rewriteFrame (a : Answer) (fr : Bytes) : Bytes :=
  let op := bitsOf a.action.toNat 0 4
  let l := a.level
  if op ≠ 2 && op ≠ 3 then fr
  else match l.ipOff with
    | none => fr
    | some ip =>
      let v6 := l.ipRole = 2
      let n := if v6 then 16 else 4
      let at_ := ip + (if v6 then (if op = 2 then 8 else 24) else (if op = 2 then 12 else 16))
      let cs := l4Csum fr l
      let fr := replaceCs at_ (beBytes n a.rwAddr) (if v6 then cs else (ip + 10) :: cs) fr
      match l.l4Off with
      | none => fr
      | some o =>
        if a.rwPort = 0 || l.frag || (l.l4Role ≠ 4 && l.l4Role ≠ 5) then fr
        else replaceCs (o + (if op = 2 then 0 else 2)) (beBytes 2 a.rwPort) cs fr

/-- FLOW_ACTION sets metadata fields when the answer is applied (Table 7.4). -/
def applyFlowAction (a : Answer) (k : Pkt) : Pkt :=
  let w := a.action.toNat
  let k := pset bFLOW_STATUS a.status (pset bFLOW_HANDLE a.handle.toNat (pset bFLOW_ACTION w (pset bFLOW_GEN a.gen.toNat k)))
  let k := if w.testBit 4 && bitsOf w 0 4 ≠ 1 then pset bDEST_KIND (bitsOf w 5 2) (pset bDEST (bitsOf w 7 17) k) else k
  let k := if w.testBit 27 then pset bTC (bitsOf w 24 3) k else k
  let k := if w.testBit 28 then pset bMARKS (pget k bMARKS ||| 1) k else k
  if bitsOf w 0 4 = 1 then pset bDROP_REASON (bitsOf w 7 7) (pset bDROP 1 k) else k

end Sys2Proof.Machine
end

