-- ==== Sys2Proof/Machine/Ptp.lean ====
section
/-! DEFINITION. PTP messages inside frames: where they stand, and what the egress MAC writes into them (R107, R108). -/

namespace Sys2Proof.Machine

open Sys2Proof

/-- The offset of the EtherType after up to two VLAN tags. -/
def etherOff (bs : Bytes) : Nat :=
  let tag := fun o => beAt bs o 2 == 0x8100 || beAt bs o 2 == 0x88A8
  if tag 12 then (if tag 16 then 20 else 16) else 12

/-- A PTP message in a frame: its transport (0 Ethernet, 1 UDP/IPv4, 2 UDP/IPv6), its offset, and the offset of the UDP
check sum. -/
def ptpHeader (bs : Bytes) : Option (Nat × Nat × Option Nat) :=
  let e := etherOff bs
  let ip := e + 2
  let udp := fun (kind o : Nat) =>
    if beAt bs (o + 2) 2 = 319 ∨ beAt bs (o + 2) 2 = 320 then some (kind, o + 8, some (o + 6)) else none
  if beAt bs e 2 = 0x88F7 then some (0, e + 2, none)
  else if beAt bs e 2 = 0x0800 ∧ beAt bs (ip + 9) 1 = 17 then udp 1 (ip + 4 * (beAt bs ip 1 % 16))
  else if beAt bs e 2 = 0x86DD ∧ beAt bs (ip + 6) 1 = 17 then udp 2 (ip + 40)
  else none

def ptpType (bs : Bytes) (o : Nat) : Nat := beAt bs o 1 % 16

/-- Event messages have types 0 to 3. -/
def ptpEvent (bs : Bytes) (o : Nat) : Bool := decide (ptpType bs o ≤ 3)

/-- Replace bytes of even length at an even distance from the UDP check sum's data, updating it if one is carried. -/
def ptpReplace (o : Nat) (cs : Option Nat) (new bs : Bytes) : Bytes :=
  replaceCs o new (match cs with
    | some c => if beAt bs c 2 = 0 then [] else [c]
    | none => []) bs

/-- The transparent clock's residence time, given in 1/16 ns, is added to correctionField, in units of 2^-16 ns. -/
def ptpResidence (sixteenths : Nat) (bs : Bytes) : Bytes :=
  match ptpHeader bs with
  | none => bs
  | some (_, o, cs) => ptpReplace (o + 8) cs (beBytes 8 ((beAt bs (o + 8) 8 + sixteenths * 4096) % 2 ^ 64)) bs

/-- originTimestamp, or preciseOriginTimestamp: 48 bits of seconds, 32 bits of nanoseconds. -/
def ptpStamp (tai : Nat) (bs : Bytes) : Bytes :=
  match ptpHeader bs with
  | none => bs
  | some (_, o, cs) => ptpReplace (o + 34) cs (beBytes 6 (tai / 1000000000) ++ beBytes 4 (tai % 1000000000)) bs

/-- The extended TAI time of a 32-bit timestamp near the present. -/
def taiOf (s : State) (ts : U32) : Nat :=
  let d := ns32 (timeNs s) ts.toNat
  if d < 2 ^ 31 then taiNs s - d else taiNs s + (2 ^ 32 - d)

/-- The message is one that the port's configuration takes (R107): PTP_PORT_EN, transport and domain. -/
def ptpOurs (s : State) (p : Nat) (bs : Bytes) : Option (Nat × Option Nat) :=
  match ptpHeader bs with
  | none => none
  | some (kind, o, cs) =>
    if fv s 11 7 p 0 1 = 1 ∧ fv s 11 7 p 1 2 = kind ∧ beAt bs (o + 4) 1 = fv s 11 1 0 8 8 then
      some (o, cs) else none

/-- CLOCK_MODE (Table 5.7): 0 and 1 ordinary clock, slave only and master-capable, 2 boundary clock, 3 transparent clock. -/
def clockMode (s : State) : Nat := fv s 11 1 0 1 2

/-- A packet that carries an event message through the transparent clock: its residence time is added at egress (R107). -/
def ptpTransit (s : State) (k : Pkt) : Bool :=
  clockMode s == 3 && (match ptpOurs s k.port k.rx with
    | some (o, _) => ptpEvent k.rx o
    | none => false)

/-- Messages of the delay request-response mechanism that a clock of a mode sends (Table 5.2): Delay_Req wherever it may be a slave,
Sync, Follow_Up, Delay_Resp and Announce where it may be a master; a transparent clock sends none. Messages of the features that R106
leaves out are never sent. (Log: PRESUMED, log entry 81.) -/
def ptpModeSends (mode type : Nat) : Bool :=
  if type = 1 then decide (mode ≤ 2) else (mode == 1 || mode == 2) && [0, 8, 9, 11].contains type

/-- The interval that a message announces under the data-centre profile (Table 5.2): 1/16 s, and 1/4 s for Announce. (Log: PRESUMED,
log entry 81.) -/
def ptpIntervalOk (profile type interval : Nat) : Bool :=
  profile != 1 || type == 1 || interval == (if type = 11 then 0xFE else 0xFC)

/-- A message that the PTP engine may send through a port: the engine runs, the port takes part, and transport, domain, kind and
interval are those of the configuration (R106, R107). -/
def ptpSends (s : State) (p : Nat) (bs : Bytes) : Bool :=
  isPort s p && fv s 11 1 0 0 1 == 1 && (match ptpOurs s p bs with
    | some (o, _) => ptpModeSends (clockMode s) (ptpType bs o) && ptpIntervalOk (fv s 11 1 0 4 2) (ptpType bs o) (beAt bs (o + 33) 1)
    | none => false)

/-- The servo measures by Sync, Follow_Up and Delay_Resp, and the best master is chosen by Announce (Table 5.2). (Log: PRESUMED, log
entry 81.) -/
def ptpServes (s : State) (bs : Bytes) (o : Nat) : Bool :=
  fv s 11 1 0 0 1 == 1 && [0, 8, 9, 11].contains (ptpType bs o)

/-! ### Frames for Binnacle -/

/-- Where the EtherType of an in-band frame stands under IB_VLAN (R82). -/
def ibTypeOff (s : State) : Nat := if s.ctl.ibVlan = 0xFFFF then 12 else 16

/-- The frame's destination address, VLAN and EtherType are those of the in-band settings (R82). A frame that is to carry IB_VLAN has
one tag, of TPID 0x8100; the spec does not say which tags match. (Log: DESIGN CHOICE, log entry 82.) -/
def ibMatch (s : State) (bs : Bytes) : Bool :=
  s.ctl.ibEnable && beAt bs 0 6 == s.ctl.ibMac.toNat && beAt bs (ibTypeOff s) 2 == s.ctl.ibEthertype.toNat
    && (s.ctl.ibVlan == 0xFFFF || (beAt bs 12 2 == 0x8100 && beAt bs 14 2 % 4096 == s.ctl.ibVlan.toNat))

/-- The frame leaves the pipeline for Binnacle: an in-band frame, or a PTP message where the clock is not transparent
(R82, R107). -/
def toBinnacle (s : State) (p : Nat) (bs : Bytes) : Bool :=
  ibMatch s bs || ((ptpOurs s p bs).isSome && clockMode s != 3)

end Sys2Proof.Machine
end

