-- ==== Sys2Proof/Machine/FlowRec.lean ====
section
/-! DEFINITION. Flow keys, hashes, handles and record layouts (chapter 7, Tables 7.1 to 7.6). -/

namespace Sys2Proof.Machine

open Sys2Proof

/-! ### Hashes and places (R159, R160) -/

def flowH1 (s : State) (key : Bytes) : Nat := crcN (fv s 3 1 0 0 32) 0x82F63B78 key
def flowH2 (s : State) (key : Bytes) : Nat := crcN (fv s 3 2 0 0 32) 0xEDB88320 key

/-- Buckets per slice. -/
def sliceN (s : State) : Nat := if s.small then 2 ^ 25 else 2 ^ 26

def keySlice (s : State) (key : Bytes) : Nat := flowH1 s key / 2 ^ 30
def keyPrimary (s : State) (key : Bytes) : Nat := keySlice s key * sliceN s + flowH1 s key % sliceN s

/-- The second candidate bucket b2. -/
def keySecond (s : State) (key : Bytes) : Nat :=
  let b := keySlice s key * sliceN s + flowH2 s key % sliceN s
  if b = keyPrimary s key then b ^^^ 1 else b

def keySet (s : State) (key : Bytes) : Nat := flowH1 s key % 2 ^ 14

/-- The key's home of preference (R349): H1[29] + 1. -/
def keyHome (s : State) (key : Bytes) : Nat := bitsOf (flowH1 s key) 29 1 + 1

def chartOf (s : State) (p : Nat) : Bool := kget false s.flow.chart p

/-- The chosen bucket of a key (R161). -/
def chosenBucket (s : State) (key : Bytes) : Nat :=
  if chartOf s (keyPrimary s key) then keySecond s key else keyPrimary s key

def bucketSlice (s : State) (b : Nat) : Nat := b / sliceN s % 4

/-! ### Handles (Table 7.6) -/

def mkHandle (bucket slot : Nat) : Nat := bucket % 2 ^ 28 + slot * 2 ^ 28
def stashHandle (slice entry : Nat) : Nat := 2 ^ 29 + slice * 8 + entry
def isStash (h : Nat) : Bool := h.testBit 29
def hBucket (h : Nat) : Nat := h % 2 ^ 28
def hSlot (h : Nat) : Nat := bitsOf h 28 1
def hSlice (s : State) (h : Nat) : Nat := if isStash h then bitsOf h 3 2 else bucketSlice s (hBucket h)
def hEntry (h : Nat) : Nat := h % 8

/-! ### Record fields (Tables 7.2 and 7.3): places in a short and in a long record -/

abbrev RecField := BusField × BusField

def rVALID : RecField := ((0, 1), (0, 1))
def rLONG : RecField := ((1, 1), (1, 1))
def rSTATE : RecField := ((2, 2), (2, 2))
def rAGE_CLASS : RecField := ((4, 4), (4, 4))
def rMIRRORED : RecField := ((8, 1), (8, 1))
def rHOME : RecField := ((9, 1), (9, 1))
def rGEN : RecField := ((16, 16), (16, 16))
def rACTION : RecField := ((32, 32), (32, 32))
def rSRC : RecField := ((64, 32), (64, 128))
def rDST : RecField := ((96, 32), (192, 128))
def rSPORT : RecField := ((128, 16), (320, 16))
def rDPORT : RecField := ((144, 16), (336, 16))
def rPROTO : RecField := ((160, 8), (352, 8))
def rTENANT : RecField := ((168, 24), (360, 24))
def rLAST : RecField := ((192, 32), (512, 32))
def rFIRST : RecField := ((224, 32), (544, 32))
def rEXT : RecField := ((256, 32), (576, 32))
def rOCTETS : RecField := ((288, 48), (608, 48))
def rPKTS : RecField := ((336, 40), (656, 40))
def rTCPF : RecField := ((376, 8), (696, 8))
def rREWRITE : RecField := ((384, 64), (704, 192))
def rENDPOINT : RecField := ((448, 18), (384, 18))
def rEXILED : RecField := ((466, 8), (402, 8))

/-- Bit 1 of byte 0. -/
def recLong (r : Bytes) : Bool := (r.getD 0 0).getLsbD 1
def recValid (r : Bytes) : Bool := (r.getD 0 0).getLsbD 0

def rget (f : RecField) (r : Bytes) : Nat :=
  let p := if recLong r then f.2 else f.1
  bitsOf (leNat r) p.1 p.2

def rset (f : RecField) (v : Nat) (r : Bytes) : Bytes :=
  let p := if recLong r then f.2 else f.1
  leBytes r.length (setBits (leNat r) p.1 p.2 v)

/-- A record that matches a key: live or decision pending (R168, R180). -/
def recMatches (r : Bytes) : Bool := recValid r && (rget rSTATE r == 0 || rget rSTATE r == 2)

def recLive (r : Bytes) : Bool := recValid r && rget rSTATE r == 0

/-- The IPv4-mapped beginning of an address. -/
def v4Mapped : Bytes := zerosB 10 ++ [0xFF, 0xFF]

def isV4 (a : Bytes) : Bool := a.take 12 == v4Mapped

/-- A key that needs a long record (R163). -/
def keyLong (key : Bytes) : Bool := !(isV4 (sliceB key 4 16) && isV4 (sliceB key 20 16))

def keyTenant (key : Bytes) : Nat := beAt key 0 3

/-- The key of a record (Table 7.1). -/
def recKey (r : Bytes) : Bytes :=
  let addr := fun (v : Nat) => if recLong r then beBytes 16 v else v4Mapped ++ beBytes 4 v
  beBytes 3 (rget rTENANT r) ++ beBytes 1 (rget rPROTO r) ++ addr (rget rSRC r) ++ addr (rget rDST r)
    ++ beBytes 2 (rget rSPORT r) ++ beBytes 2 (rget rDPORT r)

/-- A record with a key and every other field zero but VALID and LONG. -/
def blankRec (key : Bytes) : Bytes :=
  let long := keyLong key
  let r := leBytes (if long then 128 else 64) (if long then 3 else 1)
  let addr := fun (o : Nat) => if long then beAt key o 16 else beAt key (o + 12) 4
  rset rSRC (addr 4) (rset rDST (addr 20) (rset rSPORT (beAt key 36 2) (rset rDPORT (beAt key 38 2)
    (rset rPROTO (beAt key 3 1) (rset rTENANT (keyTenant key) r)))))

/-! ### REC_CRC (R164) -/

def unitCrc (handle : Nat) (u : Bytes) : Nat := crcN handle 0x82F63B78 (u.take 60)

def sealUnit (handle : Nat) (u : Bytes) : Bytes := u.take 60 ++ leBytes 4 (unitCrc handle u)

/-- REC_CRC of every unit of a record. -/
def sealRec (handle : Nat) (r : Bytes) : Bytes :=
  if r.length ≤ 64 then sealUnit handle r
  else sealUnit handle (r.take 64) ++ sealUnit (handle + 2 ^ 28) (r.drop 64)

/-- A unit fails its check: not all zero, and REC_CRC does not hold. -/
def unitFails (handle : Nat) (u : Bytes) : Bool := !isZeros u && leAt u 60 4 != unitCrc handle u

/-- FLOW_GEN goes on (R166). -/
def genBump (r : Bytes) : Bytes := rset rGEN (if rget rGEN r = 0xFFFF then 1 else rget rGEN r + 1) r

/-! ### Slices -/

def sliceOf (s : State) (i : Nat) : Slice := s.flow.slices.getD i sliceReset
def modSlice (i : Nat) (f : Slice → Slice) (s : State) : State :=
  { s with flow.slices := modAt s.flow.slices i f }

/-! ### The key of a packet (R158, R475) -/

/-- A transport header lies wholly within the frame. -/
def l4Whole (fr : Bytes) (o role : Nat) : Bool := decide (o + (if role = 4 then 20 else 8) ≤ fr.length)

/-- The frame as the parser reads it: without the FCS once whole. -/
def parsedFrame (k : Pkt) : Bytes := if isWhole k then k.tx.take (k.tx.length - 4) else k.tx

/-- The transport header that the key uses, with its role. -/
def keyL4 (fr : Bytes) (l : Level) : Option (Nat × Nat) :=
  match l.l4Off with
  | none => none
  | some o => if l.frag || !l4Whole fr o l.l4Role then none else some (o, l.l4Role)

def keyPorts (fr : Bytes) (l : Level) : Nat × Nat :=
  match keyL4 fr l with
  | none => (0, 0)
  | some (o, role) =>
    let t := beAt fr o 1
    if role = 4 || role = 5 then (beAt fr o 2, beAt fr (o + 2) 2)
    else if (role = 6 && (t = 8 || t = 0)) || (role = 7 && (t = 128 || t = 129)) then (beAt fr (o + 4) 2, 0)
    else (0, 0)

/-- The 40-byte key of a packet at a level. -/
def pktKey (k : Pkt) (l : Level) : Bytes :=
  let fr := parsedFrame k
  let ip := l.ipOff.getD 0
  let addr := fun (o4 o6 : Nat) => if l.ipRole = 2 then sliceB fr (ip + o6) 16 else v4Mapped ++ sliceB fr (ip + o4) 4
  let ports := keyPorts fr l
  beBytes 3 (pget k bTENANT) ++ [byteN l.nextHdr] ++ addr 12 8 ++ addr 16 24 ++ beBytes 2 ports.1 ++ beBytes 2 ports.2

/-- TCP flags of a packet, 0 where its level has no usable TCP header. -/
def pktTcpFlags (k : Pkt) (l : Level) : Nat :=
  match keyL4 (parsedFrame k) l with
  | some (o, 4) => beAt (parsedFrame k) (o + 13) 1
  | _ => 0

end Sys2Proof.Machine
end

