-- ==== Sys2Proof/Machine/Classify.lean ====
section
/-! DEFINITION. The parser and the classifier stages of a pipeline (chapter 6). -/

namespace Sys2Proof.Machine

open Sys2Proof

/-! ### Parse-graph nodes (Table 6.1) -/

def nodeKey (pipe gen node : Nat) : Nat := (pipe * 2 + gen) * 64 + node

/-- A node's record; an absent one is invalid. (Log: DEDUCED, log entry 34.) -/
def nodeRec (s : State) (pipe gen node : Nat) : Bytes := kget (zerosB 80) s.cls.nodes (nodeKey pipe gen node)

def nByte (r : Bytes) (o : Nat) : Nat := (r.getD o 0).toNat
def nodeValid (r : Bytes) : Bool := (nByte r 1).testBit 0
def nodeRole (r : Bytes) : Nat := nByte r 1 / 16

/-- The header length L at an offset of the frame (R130, Table 6.1). -/
def nodeLen (r : Bytes) (lenByte : Nat) : Nat :=
  if nByte r 6 = 0 then nByte r 5
  else ((((lenByte &&& nByte r 8) >>> (nByte r 9 % 8)) <<< ((nByte r 9 / 16) % 4))) + leAt r 10 2

/-- The next node for a selector value: a valid transition of that value, else DEFAULT_NEXT. -/
def nodeNext (r : Bytes) (sel : Nat) : Nat :=
  let t := (List.range 16).find? (fun i =>
    let w := leAt r (16 + 4 * i) 4
    w.testBit 30 && w % 2 ^ 24 == sel)
  match t with
  | some i => bitsOf (leAt r (16 + 4 * i) 4) 24 6
  | none => nByte r 14

/-- The parser's progress through one pass. -/
structure Parse where
  hv : List Host.Cell
  visits : List Nat
  level : Nat
  exts : Nat
  levels : List Level
  lvl2 : Option (Nat × Nat)
  payOff : Nat
  err : Nat
  hdrs : Nat
deriving DecidableEq, Repr

/-- A header of a role is recorded in the level in hand (R475): the first IP header, the first transport header after it, the
protocol, and whether the level is a non-first fragment. `f` reads the header's bytes. -/
def levelSee (role off : Nat) (ext : Bool) (f : Nat → Nat) (l : Level) : Level :=
  let isIp := (role == 1 || role == 2) && l.ipOff.isNone
  let isL4 := decide (4 ≤ role) && decide (role ≤ 7) && l.ipOff.isSome && l.l4Off.isNone
  let l := if isIp then { l with ipOff := some off, ipRole := role } else l
  let next :=
    if l.ipRole = 1 then (if isIp then f 9 else l.nextHdr)
    else if l.l4Off.isSome || isL4 then l.nextHdr
    else if role = 2 then f 6
    else if role = 3 || ext then f 0
    else l.nextHdr
  let frag := (isIp && role == 1 && (f 6 * 256 + f 7) % 8192 != 0) || (role == 3 && (f 2 * 256 + f 3) / 8 != 0)
  let l := { l with nextHdr := next, frag := l.frag || frag }
  if isL4 then { l with l4Off := some off, l4Role := role } else l

/-- Walk the graph from a node at a frame offset (R130 to R133). `n` is the length of the frame without its FCS, `rec`
the node records, and fuel bounds the visits of a pass. (Log: DEDUCED, log entry 33.) -/
def parseWalk (rec : Nat → Bytes) (fr : Bytes) (n : Nat) : Nat → Nat → Nat → Bool → Parse → Parse
  | 0, _, _, _, st => { st with err := 4 }
  | fuel + 1, node, off, start, st =>
    let r := rec node
    let fl := nByte r 1
    if 64 ≤ node || !nodeValid r then { st with err := 7 }
    else if fl.testBit 1 && !start && st.level = 2 then { st with level := 3, payOff := off }
    else if 24 ≤ st.visits.length then { st with err := 4 }
    else
      let k := st.visits.count node
      if nByte r 15 ≤ k then { st with err := 3 }
      else
        let newLvl := fl.testBit 1 && !start
        let exts := (if newLvl then 0 else st.exts) + (if fl.testBit 3 then 1 else 0)
        if 4 < exts then { st with err := 5 }
        else
          let lenByte := (fr.getD (off + nByte r 7) 0).toNat
          let len := nodeLen r lenByte
          if nByte r 6 = 1 && n ≤ off + nByte r 7 then { st with err := 1 }
          else if len = 0 || (nByte r 6 = 1 && len ≤ nByte r 7) then { st with err := 6 }
          else if n < off + len then { st with err := 1 }
          else if 1024 < off + len then { st with err := 2 }
          else
            let ext := nByte r 4
            let hv := memWriteN st.hv (leAt r 2 2 + k * ext) ((fr.drop off).take (min len ext))
            let lv := if newLvl then 2 else st.level
            let levels := if newLvl then st.levels ++ [levelReset] else st.levels
            let f := fun i => (fr.getD (off + i) 0).toNat
            let levels := modAt levels (lv - 1) (levelSee (nodeRole r) off (fl.testBit 3) f)
            let st := { st with hv := hv, visits := node :: st.visits, level := lv, exts := exts, levels := levels,
                                lvl2 := if newLvl then some (off, node) else st.lvl2,
                                payOff := if fl.testBit 2 then off + len else st.payOff,
                                hdrs := st.hdrs ||| 2 ^ node }
            let sb := nByte r 13
            let so := off + nByte r 12
            if sb ≠ 0 && n < so + sb then { st with err := 1 }
            else if sb ≠ 0 && 1024 < so + sb then { st with err := 2 }
            else
              let nx := if sb = 0 then nByte r 14 else nodeNext r (beAt fr so sb)
              if nx = 0xFF then st else parseWalk rec fr n fuel nx (off + len) false st

/-- A pass's parse from a start node and offset 0 of the frame as it stands; the FCS is no part of any header. Where no TERMINAL header
is parsed and no third level is met, the packet has no payload: the spec does not say where one would begin. (Log: DESIGN CHOICE, log
entry 86.) -/
def parsePass (rec : Nat → Bytes) (fr : Bytes) (whole : Bool) (start : Nat) : Parse :=
  parseWalk rec fr (if whole then fr.length - 4 else fr.length) 25 start 0 true
    -- no TERMINAL header parsed: no payload (Log: DESIGN CHOICE, log entry 86.)
    { hv := [], visits := [], level := 1, exts := 0, levels := [levelReset], lvl2 := none, payOff := 1048576,
      err := 0, hdrs := 0 }

/-! ### Stage configuration (R134 to R136, Table 6.8) -/

def stageIdx (pipe stage : Nat) : Nat := pipe * 12 + stage - 1

/-- The blocks of a bit map in ascending order. -/
def blockList (map width : Nat) : List Nat := (List.range width).filter (fun i => map.testBit i)

def stKind (s : State) (si : Nat) : Nat := fv s 2 3 si 0 2
def stWidth (s : State) (si : Nat) : Nat := fv s 2 3 si 2 3
def stWide (s : State) (si : Nat) : Bool := fv s 2 3 si 5 1 == 1

/-- The blocks that name a stage's entries: the lowest block of each run, way or range block. -/
def runHeads (step : Nat) (bs : List Nat) : List Nat :=
  (List.range (bs.length / step)).map (fun i => bs.getD (i * step) 0)

def stageBlocks (s : State) (si : Nat) : List Nat :=
  let k := stKind s si
  if k = 0 then runHeads (if stWide s si then 2 else 1) (blockList (objVal s (oid 2 5 si)) 64)
  else if k = 3 then blockList (objVal s (oid 2 6 si)) 8
  else runHeads (max 1 (stWidth s si)) (blockList (objVal s (oid 2 4 si)) 24)

/-- Entries per block of a stage kind. -/
def blockRows (kind : Nat) : Nat := if kind = 0 then 8192 else if kind = 3 then 512 else 1024

/-- The physical place of entry i of a stage, if it exists (R135). (Log: DEDUCED, log entry 34.) -/
def entryPhys (s : State) (si i : Nat) : Option Nat :=
  let rows := blockRows (stKind s si)
  let bs := stageBlocks s si
  if stKind s si = 0 then
    (if bs.contains (i / rows) then some i else none)
  else if i / rows < bs.length then some (bs.getD (i / rows) 0 * rows + i % rows) else none

def entryKey (si phys : Nat) : Nat := si * 2 ^ 20 + phys

/-- The stage's entries with their physical places, in index order. -/
def stageEntries (s : State) (si : Nat) : List (Nat × ClsEntry) :=
  (s.cls.entries.filter (fun e => e.1 / 2 ^ 20 == si)).map (fun e => (e.1 % 2 ^ 20, e.2))

def chunkVal (s : State) (si gen k : Nat) : Nat := objVal s (oid 2 (0x10 + k) (si + gen * 256))
def chunkUsed (v : Nat) : Bool := v.testBit 0
def chunkLen (v : Nat) : Nat := bitsOf v 16 5 + 1
def chunkOff (v : Nat) : Nat := bitsOf v 21 10
def chunkBus (v : Nat) : Bool := v.testBit 31

/-- The key bytes of one chunk (R136). -/
def chunkBytes (hv : List Host.Cell) (bus : BitVec 512) (v : Nat) : Bytes :=
  if chunkBus v then beBytes (chunkLen v) (bitsOf bus.toNat (8 * chunkOff v) (8 * chunkLen v))
  else memReadN hv (chunkOff v) (chunkLen v)

/-- The used chunks of a stage in chunk order: number and value. -/
def usedChunks (s : State) (si gen : Nat) : List (Nat × Nat) :=
  ((List.range 8).map (fun k => (k, chunkVal s si gen k))).filter (fun c => chunkUsed c.2)

def stageKeyLen (s : State) (si gen : Nat) : Nat := (usedChunks s si gen).foldl (fun n c => n + chunkLen c.2) 0

def stageKey (s : State) (si gen : Nat) (k : Pkt) : Bytes :=
  ((usedChunks s si gen).map (fun c => chunkBytes k.hv k.bus c.2)).flatten

/-- The four primitives of a stage's MISS_ACTION (R135). -/
def missActions (s : State) (si gen : Nat) : List U32 :=
  let lo := objVal s (oid 2 0x18 (si + gen * 256))
  let hi := objVal s (oid 2 0x19 (si + gen * 256))
  [BitVec.ofNat 32 lo, BitVec.ofNat 32 (lo / 2 ^ 32), BitVec.ofNat 32 hi, BitVec.ofNat 32 (hi / 2 ^ 32)]

/-! ### Matching (R135) -/

def admitsGen (e : ClsEntry) (gen : Nat) : Bool := e.gens.getLsbD gen && !e.disabled

/-- Log: DEDUCED, log entry 34. -/
def ternaryMatch (key : Bytes) (e : ClsEntry) : Bool :=
  (List.range key.length).all (fun i =>
    let m := e.mask.getD i 0
    (key.getD i 0 ^^^ e.key.getD i 0) &&& m == 0)

def prefixMatch (key : Bytes) (e : ClsEntry) : Bool :=
  let n := 8 * key.length
  let drop := n - min n e.prefLen
  beNat key / 2 ^ drop == beNat (padTo key.length e.key) / 2 ^ drop

def rangeMatch (s : State) (si gen : Nat) (k : Pkt) (e : ClsEntry) : Bool :=
  ((usedChunks s si gen).filter (fun c => decide (c.1 < 4))).all (fun c =>
    let v := beNat (chunkBytes k.hv k.bus c.2)
    decide (leAt e.key (4 * c.1) 4 ≤ v) && decide (v ≤ leAt e.mask (4 * c.1) 4))

/-- The slot of a key in the way whose block (or lower block) is b. -/
def exactSlot (b : Nat) (key : Bytes) : Nat := crcN b 0x82F63B78 key % 8192

/-- The entry that wins a lookup, with its physical place. -/
def stageLookup (s : State) (si : Nat) (k : Pkt) : Option (Nat × ClsEntry) :=
  let gen := pget k bGEN
  let kind := stKind s si
  let key := stageKey s si gen k
  let es := (stageEntries s si).filter (fun e => admitsGen e.2 gen)
  if kind = 0 then
    let cand := (stageBlocks s si).map (fun b => b * 8192 + exactSlot b key)
    es.find? (fun e => cand.contains e.1 && e.2.key == key)
  else if kind = 1 then es.find? (fun e => ternaryMatch key e.2)
  else if kind = 2 then
    (es.filter (fun e => prefixMatch key e.2)).foldl (fun best e => match best with
      | none => some e
      | some b => if b.2.prefLen < e.2.prefLen then some e else best) none
  else es.find? (fun e => rangeMatch s si gen k e.2)

/-! ### Actions (R138 to R140) -/

/-- Set DROP with a reason. -/
def setDrop (reason : Nat) (k : Pkt) : Pkt := pset bDROP_REASON reason (pset bDROP 1 k)

/-- One primitive at a stage (Table 6.5). Bit 2 of MARK on a packet that is not tagged asks Monarch (R439). -/
def applyPrim (h : Nat) (w : U32) (ks : Pkt × State) : Pkt × State :=
  let k := ks.1
  let s := ks.2
  let op := bitsOf w.toNat 27 5
  let a := bitsOf w.toNat 0 27
  let pipe := pipeOf k.port
  let first := pget k bPASS = 0
  if op = 1 then
    (if first then (pset bTENANT a k, s)
     else (k, modPipeCnt pipe (fun c => { c with tenantIgnored := c.tenantIgnored + 1 }) s))
  else if op = 2 then
    (if first then (pset bEP_SET 1 (pset bENDPOINT a k), s)
     else (k, modPipeCnt pipe (fun c => { c with tenantIgnored := c.tenantIgnored + 1 }) s))
  else if op = 3 then (pset bDEST_KIND (a / 2 ^ 17) (pset bDEST a k), s)
  else if op = 4 then (pset bTC a k, s)
  else if op = 5 then (setDrop (a % 128) k, s)
  else if op = 6 then ({ k with pmClass := some (a % 16) }, s)
  else if op = 7 then (pset bFLOW_REQ a k, s)
  else if op = 8 then
    (let k := pset bRECIRC 1 k
     if a % 2 = 1 then pset bDECAP 1 k else k, s)
  else if op = 9 then
    let k1 := pset bMARKS (pget k bMARKS ||| (a % 4)) k
    if a / 4 % 2 = 1 && !k.monarch then
      (if fv s 15 0x20 pipe 1 1 = 1 then
         match monTag h true k s with
         | (true, s) =>
           let k2 := { pset bMARKS (pget k1 bMARKS ||| 4) k1 with monarch := true }
           (k2, monPoint h 12 k2 s)
         | (false, s) => (k1, s)
       else (k1, s))
    else (k1, s)
  else if op = 10 then ({ k with skipTo := a % 16 }, s)
  else if op = 11 then
    let slot := bitsOf a 24 3
    (pset (384 + 16 * slot, 16) a k, s)
  else (k, s)

def applyActions (h : Nat) (ws : List U32) (ks : Pkt × State) : Pkt × State :=
  ws.foldl (fun ks w => applyPrim h w ks) ks

/-- An integrity failure has dropped the packet (R139, R157): no later stage acts on it. (Log: DEDUCED, log entry 32.) -/
def integrityFailed (k : Pkt) : Bool := pget k bDROP == 1 && pget k bDROP_REASON == 0x83

/-- The address of a classifier message: pipeline, stage − 1, entry (Table 6.10). -/
def clsAddr (si phys : Nat) : Nat := (si / 12) * 2 ^ 38 + (si % 12) * 2 ^ 32 + phys

/-- The address of a stage's MISS_ACTION word of a generation: the spec numbers no entry for it. (Log: DESIGN CHOICE, log entry 87.) -/
def missAddr (si gen : Nat) : Nat := clsAddr si (0xFFFFFFFE + gen)

/-! ### Payload matcher (R151, R152) -/

def lower (b : Byte) : Byte := if 0x41 ≤ b.toNat && b.toNat ≤ 0x5A then b + 0x20 else b

/-- A byte as the automaton has it: a byte, or 256 and a letter in lower case where its case no longer matters. -/
abbrev Sym := Nat

def symOf (b : Byte) : Sym := b.toNat

/-- The symbol without its case. -/
def symFold (x : Sym) : Nat := (lower (byteN x)).toNat

/-- A letter whose case no longer matters. -/
def symLoose (x : Sym) : Sym := if 97 ≤ symFold x && symFold x ≤ 122 then 256 + symFold x else x

/-- A byte of a pattern matches a symbol (R151). -/
def patEq (p : Pattern) (a : Byte) (x : Sym) : Bool := if p.nocase then (lower a).toNat == symFold x else x == a.toNat

/-- The pattern bytes ps stand at the start of xs. -/
def startsWith (p : Pattern) : Bytes → List Sym → Bool
  | [], _ => true
  | _ :: _, [] => false
  | a :: ps, x :: xs => patEq p a x && startsWith p ps xs

def occursIn (p : Pattern) : List Sym → Bool
  | [] => p.bytes.isEmpty
  | x :: xs => startsWith p p.bytes (x :: xs) || occursIn p xs

/-- The symbols are a beginning of the pattern. -/
def beginsPat (t : List Sym) (p : Pattern) : Bool := decide (t.length ≤ p.bytes.length) && startsWith p (p.bytes.take t.length) t

/-- The longest suffix of the input that is a beginning of some pattern: the automaton's state (chapter 6, Stream state). -/
def autoState (pats : List Pattern) : List Sym → List Sym
  | [] => []
  | x :: xs => if pats.any (beginsPat (x :: xs)) then x :: xs else autoState pats xs

/-- A state in one form for all inputs that lead to it: case matters only from where a pattern that distinguishes it begins. -/
def canonState (pats : List Pattern) : List Sym → List Sym
  | [] => []
  | x :: xs => if pats.any (fun p => !p.nocase && beginsPat (x :: xs) p) then x :: xs else symLoose x :: canonState pats xs

/-- The beginnings of a pattern as symbols, shortest first. -/
def beginnings (p : Pattern) : List (List Sym) := (List.range p.bytes.length).map (fun i => (p.bytes.take (i + 1)).map symOf)

/-- The automaton's states but the start state: the distinct beginnings of the patterns, a beginning of a pattern without case once for
each ending that a pattern with case tells apart. (Log: DEDUCED, log entry 34.) -/
def autoStates (pats : List Pattern) : List (List Sym) :=
  let strict := ((pats.filter (fun p => !p.nocase)).map beginnings).flatten
  let loose := ((pats.filter (fun p => p.nocase)).map beginnings).flatten
  let all := strict ++ (loose.map (fun b => b :: (strict.filter (fun c => decide (c.length < b.length))).filterMap (fun c =>
    if (b.drop (b.length - c.length)).map symFold = c.map symFold then some (b.take (b.length - c.length) ++ c) else none))).flatten
  (all.map (canonState pats)).foldl (fun acc x => if acc.contains x then acc else acc ++ [x]) []

/-- The number of an automaton state: 0 is the start state. The numbering is the model's. (Log: DEDUCED, log entry 34.) -/
def stateNum (pats : List Pattern) (st : List Sym) : Nat := if st.isEmpty then 0 else 1 + (autoStates pats).idxOf (canonState pats st)

def stateSyms (pats : List Pattern) (n : Nat) : List Sym := if n = 0 then [] else (autoStates pats).getD (n - 1) []

def bankOf (s : State) (gen : Nat) : Bank := s.cls.banks.getD gen bankReset

/-- The patterns of a bank that a class scans. -/
def classPats (s : State) (gen cls : Nat) : List Pattern :=
  (bankOf s gen).compiled.filter (fun p => (fv s 2 0x20 cls 16 16).testBit p.group)

def lowestId (ps : List Pattern) : Option Nat :=
  ps.foldl (fun best p => match best with
    | none => some p.id
    | some b => some (min b p.id)) none

/-- The payload window of a selected packet: after the last header, within the first 2,048 bytes, without the FCS. (Log: DEDUCED, log entry 33.) -/
def payWindow (k : Pkt) : Bytes :=
  let fr := if isWhole k then k.tx.take (k.tx.length - 4) else k.tx
  (fr.take 2048).drop k.payOff

/-- The bytes of the payload as it is known: from the end of the last header to the FCS (R129). -/
def payTotal (k : Pkt) : Nat := k.tx.length + k.coming.length - 4 - k.payOff

/-- The automaton words that a scan uses: those of the states that it passes through, where a word of the pipeline is damaged (R157). The
words are numbered by bank and state. (Log: DEDUCED, log entry 34.) -/
def scanWords (s : State) (pipe gen : Nat) (scan : List Sym) : List Nat :=
  if s.lod.damage.any (fun d => d.source.toNat == 4 && d.addr.toNat / 2 ^ 38 == pipe) then
    let pats := (bankOf s gen).compiled
    (List.range (scan.length + 1)).map (fun i => pipe * 2 ^ 38 + gen * 2 ^ 21 + stateNum pats (autoState pats (scan.take i)))
  else []

/-- SEC-DED words are used one after another: whether one of them is beyond correction. -/
def useWords (corr uncorr : FaultKind) (addrs : List Nat) (s : State) : Bool × State :=
  (dedupN addrs).foldl (fun x a => let r := useWord corr uncorr a x.2; (x.1 || r.1, r.2)) (false, s)

/-- What a scan over a word beyond correction finds: the spec gives no result. (Log: DESIGN CHOICE, log entry 10.) -/
def openHit (s : State) : Option Nat :=
  let d := (openDraw 28 s).toNat
  if d % 2 = 1 then some (d / 2 % 65536) else none

/-- Stage 4's scan of a selected packet (R151, R152). -/
def pmScan (laneFree : Bool) (k : Pkt) (s : State) : Pkt × State :=
  match k.pmClass with
  | none => (k, s)
  | some c =>
    if integrityFailed k then (k, s) else
    let pipe := pipeOf k.port
    let gen := pget k bGEN
    let scan := (payWindow k).take (64 * fv s 2 0x20 c 0 5)
    let n := scan.length
    let dropIt := fv s 2 0x20 c 5 1 = 1
    let left := s.cls.budget.getD pipe 0
    let unscanned := fun (st : Nat) (s : State) =>
      let k := pset bPM_STATUS st k
      if dropIt then (setDrop 0x82 k, s) else (k, s)
    if left < n then
      unscanned 4 (modPipeCnt pipe (fun d => { d with unscannedBudget := d.unscannedBudget + 1 }) s)
    else if !laneFree || !domainOn s (4 + pipeOf k.port) then
      unscanned 5 (modPipeCnt pipe (fun d => { d with unscannedLane := d.unscannedLane + 1 }) s)
    else
      let s := { s with cls.budget := setAt s.cls.budget pipe (left - n) }
      let (bad, s) := useWords fkPM_CORR fkPM_UNCORR (scanWords s pipe gen (scan.map symOf)) s
      let hit := if bad then openHit s
        else lowestId ((classPats s gen c).filter (fun p => occursIn p (scan.map symOf)))
      let s := if bad then advanceDraws 1 s else s
      let k := { k with pmKept := scan.take 63, pmScanned := n, pmWhole := n == payTotal k }
      let k := match hit with
        | some id => pset bPM_PATTERN id (pset bPM_STATUS 2 k)
        | none => pset bPM_STATUS 1 k
      (k, perfEvent 0x0203 5 0 pipe (pget k bPM_STATUS) n s)

/-! ### Running stages -/

/-- One match stage: lookup, integrity of the matched word, actions (R135, R140, R157). -/
def runStage (h stage : Nat) (parityBad : Bool) (ks : Pkt × State) : Pkt × State :=
  let k := ks.1
  let s := ks.2
  let si := stageIdx (pipeOf k.port) stage
  if integrityFailed k then (k, s)
  else if parityBad then
    (setDrop 0x83 k, raiseFault fkMETA_PARITY ((si / 12) * 2 ^ 38 + (si % 12) * 2 ^ 32) s)
  else if fv s 2 2 si 0 1 = 0 || stage < k.skipTo then (k, s)
  else
    match stageLookup s si k with
    | none =>
      let (bad, s) := useWord fkCLS_CORR fkCLS_UNCORR (missAddr si (pget k bGEN)) s
      if bad then (setDrop 0x83 k, s) else applyActions h (missActions s si (pget k bGEN)) (k, s)
    | some (phys, e) =>
      let addr := clsAddr si phys
      match damageAt s 0x03 3 addr with
      | some _ => (setDrop 0x83 k, raiseInjected fkTCAM_MISMATCH addr [] [] s)
      | none =>
        let (bad, s) := useWord fkCLS_CORR fkCLS_UNCORR addr s
        if bad then (setDrop 0x83 k, s)
        else
          let k := pset bSTAGE_HIT (pget k bSTAGE_HIT ||| 2 ^ (stage - 1)) k
          applyActions h e.actions (k, perfEvent 0x0202 5 0 si (pget k bGEN) 1 s)

/-- The end of stage 5 in the first pass fixes the tag's CRC (R138). -/
def setTenantCrc (k : Pkt) : Pkt :=
  if pget k bPASS = 0 then
    pset bTENANT_CRC (tenantCrc (pget k bEP_SET) (pget k bENDPOINT) (pget k bTENANT)) k
  else k

/-- The level that a lookup names, with an IP header (R141, R475). -/
def lookupLevel (k : Pkt) : Option Level :=
  let two := (pget k bFLOW_REQ).testBit 2
  match k.levels[if two then 1 else 0]? with
  | some l => if l.ipOff.isSome then some l else none
  | none => none

/-- Packets of a pipeline that wait for a miss (R172). -/
def waitingOf (s : State) (pipe : Nat) : Nat :=
  (s.flow.guards.map (fun g => (g.pkts.filter (fun h => match pktOf s h with
    | some k => pipeOf k.port == pipe
    | none => false)).length)).sum

def fifoOf (s : State) (sl pipe : Nat) : List Nat := (sliceOf s sl).fifo.getD pipe []

/-- A lookup of a pipeline may be issued to a slice: its FIFO and the pipeline's wait store have room (R17, R172). -/
def issueOk (s : State) (sl pipe : Nat) : Bool := decide ((fifoOf s sl pipe).length < 64) && decide (waitingOf s pipe < 4096)

/-- Stage 6 issues the lookup of a packet to the slice that owns its flow, or holds the packet and with it the pipeline. -/
def issueLookup (h : Nat) (k : Pkt) (l : Level) (s : State) : State :=
  let pipe := pipeOf k.port
  let sl := keySlice s (pktKey k l)
  if issueOk s sl pipe then
    let s := monPoint h 2 k s
    let s := modSlice sl (fun x => { x with fifo := modAt x.fifo pipe (fun q => q ++ [h]) }) s
    putPkt h { k with stage := .lookup } (modPipe pipe (fun p => { p with hold6 := none }) s)
  else putPkt h { k with stage := .stage6 } (modPipe pipe (fun p => { p with hold6 := some h }) s)

/-- A packet at stage 6 with its lookup to be issued. -/
def stage6Pass (h : Nat) (s : State) : State :=
  match pktOf s h with
  | none => s
  | some k =>
    match lookupLevel k with
    | none => s
    | some l => if k.stage = .stage6 then issueLookup h k l s else s

/-- What stage 6 of a pipeline holds is issued once there is room. -/
def stage6Resume (pipe : Nat) (s : State) : State :=
  match (pipeState s pipe).hold6 with
  | none => s
  | some h => if (pktOf s h).isNone then modPipe pipe (fun p => { p with hold6 := none }) s else stage6Pass h s

def stage6Resumes (s : State) : State := [0, 1, 2, 3].foldl (fun s p => stage6Resume p s) s

/-- The end of stage 6: a lookup is to be issued, or the request is ignored (R141). `skipped`: a GOTO of an earlier stage skips stage 6. -/
def stage6Issue (skipped : Bool) (ks : Pkt × State) : Pkt × State :=
  let k := ks.1
  let s := ks.2
  if pget k bFLOW_REQ % 4 = 0 || skipped || integrityFailed k then (k, s)
  else if pget k bFLOW_STATUS ≠ 0 || (lookupLevel k).isNone then
    (k, modPipeCnt (pipeOf k.port) (fun c => { c with flowReqIgnored := c.flowReqIgnored + 1 }) s)
  else ({ k with stage := .stage6 }, s)

def runStages (h : Nat) (bad : Option (Fin 12)) (stages : List Nat) (ks : Pkt × State) : Pkt × State :=
  stages.foldl (fun ks st => runStage h st (bad == some (Fin.ofNat 12 (st - 1))) ks) ks

/-- Stage 8 sets what the stitch unit found (R153, Table 6.7). -/
def streamResult (ks : Pkt × State) : Pkt × State :=
  let k := ks.1
  let s := ks.2
  let st := pget k bPM_STATUS
  let pipe := pipeOf k.port
  if k.laneMiss && st = 1 then
    (pset bPM_STATUS 5 k, modPipeCnt pipe (fun c => { c with unscannedLane := c.unscannedLane + 1 }) s)
  else if k.streamGap && st = 1 then
    (pset bPM_STATUS 6 k, modPipeCnt pipe (fun c => { c with streamGap := c.streamGap + 1 }) s)
  else match k.streamHit with
    | some id => if st ≠ 2 || id < pget k bPM_PATTERN then (pset bPM_STATUS 3 (pset bPM_PATTERN id k), s) else (k, s)
    | none => (k, s)

/-- Stages 7 to 12 and what stage 12's end does with a parse error (R133), under the values that the pass found (R41). -/
def lateStages (h : Nat) (bad : Option (Fin 12)) (ks : Pkt × State) : Pkt × State :=
  let r := lateBody h bad (ks.1, passView ks.1 ks.2)
  (r.1, { r.2 with ctl.cfg := ks.2.ctl.cfg })
where
  lateBody (h : Nat) (bad : Option (Fin 12)) (ks : Pkt × State) : Pkt × State :=
  let ks := runStages h bad [7] ks
  let ks := streamResult ks
  let ks := runStages h bad [8, 9, 10, 11, 12] ks
  let k := ks.1
  let s := ks.2
  let pipe := pipeOf k.port
  let (k, s) :=
    if pget k bPARSE_ERR ≠ 0 && fv s 2 1 pipe 3 1 = 1 && pget k bDROP = 0 then (setDrop 0x80 k, s) else (k, s)
  ({ k with stage := .stage12 }, s)

/-- Parse and stages 1 to 6 of a pass (R129 to R141); without a lookup the pass goes on through stage 12. (Log: DESIGN CHOICE, log entry 35.) -/
def runPass (h : Nat) (start : Nat) (bad : Option (Fin 12)) (laneFree : Bool) (k : Pkt) (s : State) : Pkt × State :=
  let pipe := pipeOf k.port
  let gen := pget k bGEN
  let s := monPoint h 1 k s
  let s := perfEvent 0x0201 5 0 pipe (pget k bPASS) 1 s
  let pr := parsePass (nodeRec s pipe gen) k.tx (isWhole k) start
  let (pgBad, s) := useWords fkPG_CORR fkPG_UNCORR
    ((start :: pr.visits.reverse).map (fun n => pipe * 2 ^ 38 + gen * 2 ^ 37 + n)) s
  let k := { k with passCfg := pipeCfg s }
  let k := { k with hv := pr.hv, levels := pr.levels, lvl2 := pr.lvl2, payOff := pr.payOff, skipTo := 0,
                    pmClass := none, pmKept := [], pmScanned := 0, pmWhole := false,
                    streamHit := none, streamGap := false, laneMiss := false }
  let k := pset bENCAP pr.level (pset bPARSE_ERR pr.err (pset bHDR_VALID pr.hdrs k))
  let k := if pgBad then setDrop 0x83 k else k
  let ks := runStages h bad [1, 2, 3] (k, s)
  let ks := pmScan laneFree ks.1 ks.2
  let ks := runStages h bad [4, 5] ks
  let ks := (setTenantCrc ks.1, ks.2)
  let skipped := decide (6 < ks.1.skipTo)
  let ks := stage6Issue skipped (runStages h bad [6] ks)
  if ks.1.stage = .stage6 then ks else lateStages h bad ks

/-- PARSE_START: the first pass of a packet whose first 2,048 bytes, or whole frame, have been received (R129). A pipeline whose
stage 6 is held takes none (R17). -/
def doParseStart (h : Nat) (bad : Option (Fin 12)) (laneFree : Bool) (s : State) : State :=
  match pktOf s h with
  | none => s
  | some k =>
    if k.stage != .ingress || k.counted || (!isWhole k && k.rx.length < 2048) || (pipeState s (pipeOf k.port)).hold6.isSome then s
    else if (k.tail == .open || k.tail == .good) && toBinnacle s k.port k.rx then s
    else
      let pipe := pipeOf k.port
      let gen := b2n s.cls.activeGen
      let k := { pset bGEN gen k with counted := true }
      let s := { s with cls.genCount := modAt s.cls.genCount gen (fun n => n + 1) }
      let draw := (openDraw 19 s).toNat % 65536
      let want := fv s 15 0x20 pipe 0 1 = 1 && draw < fv s 15 0x20 pipe 16 16
      let (tag, s) := if want then monTag h false k s else (false, s)
      let s := if fv s 15 0x20 pipe 0 1 = 1 then advanceDraws 1 s else s
      let k := if tag then { pset bMARKS 4 k with monarch := true } else k
      let (k, s) := runPass h 0 bad laneFree k s
      stage6Pass h (putPkt h k s)

/-- What a packet keeps for its next pass (R143). -/
def nextPassBus (k : Pkt) : BitVec 512 :=
  let keep : List BusField := [bING_TS, bING_PORT, bGEN, bTENANT, bTENANT_CRC, bENDPOINT, bEP_SET, bFLOW_STATUS,
    bFLOW_HANDLE, bFLOW_ACTION, bFLOW_GEN, bDEST_KIND, bDEST, bTC, bMARKS, bUSER]
  let b := keep.foldl (fun b f => busSet b f (pget k f)) 0
  let b := busSet b bPASS (pget k bPASS + 1)
  busSet b bRECIRC_CAUSE (if pget k bDECAP = 1 then 2 else 1)

/-- RECIRC_PASS_START: the head of a pipeline's recirculation FIFO starts its next pass (R143, R144). A packet that re-enters behind a
decision at the head waits for DECIDE_REENTER (R18). -/
def doRecircPassStart (pipe : Fin 4) (bad : Option (Fin 12)) (laneFree : Bool) (s : State) : State :=
  match (pipeState s pipe.val).recirc with
  | [] => s
  | h :: rest =>
    let pop := modPipe pipe.val (fun p => { p with recirc := rest }) s
    match pktOf s h with
    | none => pop
    | some k =>
      if k.stage != .recirc || (pipeState s pipe.val).hold6.isSome then s else
      let s := pop
      let s := freePayloadBufs k.bufs s
      let decap := pget k bDECAP = 1
      let (start, off) := if decap then (match k.lvl2 with
        | some (o, n) => (n, o)
        | none => (0, 0)) else (0, 0)
      let k := { k with bus := nextPassBus k, tx := k.tx.drop off, bufs := [], stage := .ingress,
                        ans := k.ans.map (fun a => { a with level := levelShift off a.level }) }
      let (k, s) := runPass h start bad laneFree k s
      stage6Pass h (putPkt h k s)
where
  freePayloadBufs (bufs : List Nat) (s : State) : State := bufs.foldl (fun s r => poolRelease r s) s

end Sys2Proof.Machine
end

