-- ==== Sys2Proof/Machine/Operands.lean ====
section
/-! DEFINITION. Operand forms: the fields of a command packet (Table 3.5), what each opcode allows (R72), and who may
issue it (R77). -/

namespace Sys2Proof.Machine

open Sys2Proof

/-- The inline field of n bytes at packet offset o, 16 to 47 (Table 3.5). -/
def par (p : CmdPkt) (o n : Nat) : Nat := bitsOf p.inl.toNat (8 * (o - 16)) (8 * n)

/-- The 32 inline bytes, offset 16 first. -/
def inlBytes (p : CmdPkt) : Bytes := leBytes 32 p.inl.toNat

/-- The payload as its PARAM_LEN bytes. -/
def payBytes (p : CmdPkt) : Bytes := padTo p.paramLen.toNat (p.payload.getD [])

def flagStage (p : CmdPkt) : Bool := p.flags.getLsbD 0
def flagIrq (p : CmdPkt) : Bool := p.flags.getLsbD 1
def flagFence (p : CmdPkt) : Bool := p.flags.getLsbD 2

/-- The payload direction of an opcode with its bounds of PARAM_LEN (R71). -/
inductive PayDir where
  | none
  | toHost (min : Nat)
  | toDev (min max : Nat)
  /-- FAULT_INJECT_UNLOCK (R71): MODE at 16 is 0 with 16 bytes to the host, or 1 with 114 bytes to the device. -/
  | byMode
deriving DecidableEq, Repr

/-- Every inline byte outside the used ranges (offset, size) is zero (R7, R72). -/
def inlineZero (used : List (Nat × Nat)) (p : CmdPkt) : Bool :=
  (List.range 32).all (fun i =>
    let o := 16 + i
    used.any (fun u => decide (u.1 ≤ o) && decide (o < u.1 + u.2)) || par p o 1 == 0)

/-- The ring whose authority a sender has: the ring, or the PRIV that step 4 of R84 has set. Before that step it is the
authority of the key; 4 stands for a key that is not set. -/
def authOf (s : State) (src : CmdSrc) : Nat :=
  match src with
  | .ring n => n.val
  | .inband k _ _ _ priv =>
    if priv ≠ 0 then priv.val
    else match kfind s.ctl.ibKeys k.val with
      | some key => if key.authority = 0 then 4 else key.authority
      | none => 4

/-- PRIV is set from the key's authority (R84, step 4): it stays with the command, whatever becomes of the key. -/
def setPriv (s : State) (p : CmdPkt) : CmdPkt :=
  match p.src with
  | .ring _ => p
  | .inband k seq port mac _ =>
    let a := authOf s p.src
    { p with src := .inband k seq port mac (if a < 3 then Fin.ofNat 3 a else 0) }

/-- The owner of staged entries and leases: ring n is n, the in-band source is 4 (R49, R54). -/
def ownerOf (src : CmdSrc) : Nat :=
  match src with
  | .ring n => n.val
  | .inband _ _ _ _ _ => 4

def isInband (src : CmdSrc) : Bool :=
  match src with
  | .ring _ => false
  | .inband _ _ _ _ _ => true

/-- The tenant set of a sender with ring-1 authority (R77, R83). -/
def tenantsOf (s : State) (src : CmdSrc) : List Nat :=
  match src with
  | .ring _ => s.ctl.tenants
  | .inband k _ _ _ _ => ((kfind s.ctl.ibKeys k.val).map (fun key => key.tenants)).getD []

/-- The tenant is in the sender's set, where the sender has ring-1 authority. -/
def mayTenant (s : State) (p : CmdPkt) (t : Nat) : Bool := authOf s p.src != 1 || (tenantsOf s p.src).contains t

/-- The object is tagged with a tenant of the sender's set, where the sender has ring-1 authority (R77). -/
def mayObj (s : State) (p : CmdPkt) (o : Obj) : Bool :=
  authOf s p.src != 1 || (match objTenant s o with
    | some t => (tenantsOf s p.src).contains t
    | none => false)

/-- What a command's body answers: done with a completion, a multi-Fix command in progress, or a completion that the
owning block gives later. -/
inductive Reply where
  | done (o : CmdOut)
  | multi (m : Multi)
  | wait
deriving DecidableEq, Repr

/-- An opcode: who may issue it, its operands, its checks, what it claims, what it touches (group IDs of each object it
writes, and whether ring 3 may write it: R56), and its effect at its boundary. -/
structure Op where
  code : Nat
  rings : List Nat
  dir : PayDir
  used : List (Nat × Nat)
  isRead : Bool
  isMulti : Bool
  /-- Inputs that change no value in force (R474). -/
  inert : Bool
  arg : State → CmdPkt → Nat
  tenant : State → CmdPkt → Bool
  claims : State → CmdPkt → List Obj
  touch : State → CmdPkt → List (List Nat × Bool)
  body : CmdPkt → List Nat → State → State × Reply

/-- What one unit of a multi-Fix command leaves: the command in progress, or its outcome (R80). -/
inductive MStep where
  | more (m : Multi)
  | fin (o : CmdOut)
deriving DecidableEq, Repr

/-- The number of a slot that no multi-Fix command in progress has. -/
def freeSlot (s : State) : Nat := ((List.range 17).find? (fun i => !(s.ctl.multi.any (fun m => m.slot == i)))).getD 17

/-- A multi-Fix command (R80): its first unit at its first boundary, the others at later boundaries by the same unit. -/
def multiOp (code : Nat) (rings : List Nat) (dir : PayDir) (used : List (Nat × Nat)) (limit : Nat)
    (arg : State → CmdPkt → Nat) (tenant : State → CmdPkt → Bool) (claims : State → CmdPkt → List Obj)
    (touch : State → CmdPkt → List (List Nat × Bool)) (start : State → CmdPkt → Nat)
    (unit : Multi → State → State × MStep) : Op :=
  { code := code, rings := rings, dir := dir, used := used, isRead := false, isMulti := true, inert := false,
    arg := arg, tenant := tenant, claims := claims, touch := touch,
    body := fun p bufs s =>
      let st := start s p
      if st ≠ 0 then (s, .done (outErrAt st 0))
      else
        let m : Multi := { slot := freeSlot s, code := code, p := p, count := 1, limit := limit, units := 0,
                           lastFix := s.clock.fix, pos := 0, aux := [], bufs := bufs }
        match unit m s with
        | (s, .more m) => (s, .multi m)
        | (s, .fin o) => (s, .done o) }

def noTouch : State → CmdPkt → List (List Nat × Bool) := fun _ _ => []
def noClaims : State → CmdPkt → List Obj := fun _ _ => []
def anyTenant : State → CmdPkt → Bool := fun _ _ => true

/-- Touch the objects that the command claims. -/
def touchOf (claims : State → CmdPkt → List Obj) : State → CmdPkt → List (List Nat × Bool) :=
  fun s p => (claims s p).map (fun o => (objGroups s o, ring3Obj o))

/-- A read command: claims and touches nothing. -/
def readOp (code : Nat) (rings : List Nat) (min : Nat) (used : List (Nat × Nat)) (arg : State → CmdPkt → Nat)
    (tenant : State → CmdPkt → Bool) (body : CmdPkt → State → State × CmdOut) : Op :=
  { code := code, rings := rings, dir := .toHost min, used := used, isRead := true, isMulti := false, inert := false,
    arg := arg, tenant := tenant, claims := noClaims, touch := noTouch,
    body := fun p _ s => let r := body p s; (r.1, .done r.2) }

/-- A command that acts at one boundary and claims objects. -/
def actOp (code : Nat) (rings : List Nat) (dir : PayDir) (used : List (Nat × Nat)) (arg : State → CmdPkt → Nat)
    (claims : State → CmdPkt → List Obj) (body : CmdPkt → State → State × CmdOut) : Op :=
  { code := code, rings := rings, dir := dir, used := used, isRead := false, isMulti := false, inert := false,
    arg := arg, tenant := anyTenant, claims := claims, touch := touchOf claims,
    body := fun p _ s => let r := body p s; (r.1, .done r.2) }

def okArg : State → CmdPkt → Nat := fun _ _ => 0

/-- A refusal with a RESULT, as a check answers it: the status in the low byte, one more than the RESULT above. -/
def refuseAt (status result : Nat) : Nat := status + 256 * (result + 1)

/-- The outcome of a check that failed: its RESULT is open where the check gives none. -/
def refusal (st : Nat) : CmdOut := { outErrAt (st % 256) (st / 256 - 1) with free := st / 256 == 0 }

/-- BADARG unless the condition holds. -/
def argIf (c : Bool) : Nat := if c then 0 else stBADARG

/-! ### The checks of R72 that need no buffer -/

/-- PARAM_LEN lies in the bounds of the direction (R71); an in-band payload is at most 2,048 bytes (R84). -/
def lenOk (d : PayDir) (p : CmdPkt) : Bool :=
  let n := p.paramLen.toNat
  match d with
  | .none => n == 0
  | .toHost m => decide (m ≤ n) && decide (n ≤ (if isInband p.src then 2048 else 1048576))
  | .toDev lo hi => decide (lo ≤ n) && decide (n ≤ hi) && decide (n ≤ 1048576)
  | .byMode => if par p 16 1 = 0 then decide (16 ≤ n) && decide (n ≤ (if isInband p.src then 2048 else 1048576))
               else par p 16 1 == 1 && n == 114

def addrOk (p : CmdPkt) : Bool :=
  if isInband p.src then p.payloadAddr == 0
  else p.payloadAddr.toNat % 8 == 0 && (p.paramLen != 0 || p.payloadAddr == 0)

/-- Reserved bits and bytes, the target's upper bits, PARAM_LEN and PAYLOAD_ADDR (R72, check 3). A staging flag is for
commands that write configurable fields (R51). (Log: DEDUCED, log entry 17.) -/
def formOk (op : Op) (p : CmdPkt) : Bool :=
  decide (p.flags.toNat < 8) && (!flagStage p || op.code == 0x0010) && decide (p.target.toNat < 2 ^ 22)
    && p.rsv == 0 && lenOk op.dir p && addrOk p && inlineZero op.used p

def hasPayloadIn (op : Op) (p : CmdPkt) : Bool :=
  match op.dir with
  | .toDev _ _ => p.paramLen != 0
  | .byMode => par p 16 1 == 1
  | _ => false

/-- Checks 1 to 4 of R72 and the states in which no command is served (R59, R385, R387): the status of the first that
fails. (Log: DEDUCED, log entry 12; DEDUCED, log entry 27.) -/
def earlyCheck (op : Op) (p : CmdPkt) (s : State) : Option Nat :=
  if !s.ctl.ready || s.ctl.restarting then some stBUSY
  else if !op.rings.contains (authOf s p.src) then some stDENIED
  else if !op.tenant s p then some stDENIED
  else if !formOk op p then some stBADARG
  else if s.lod.grave && !op.isRead && op.code != 0x0E01 then some stFAULTED
  else if hasPayloadIn op p && p.payload.isNone then some stFAULTED
  else none

/-- Buffers for a payload of n bytes (R295): references taken so far, newest first, or none where one is refused. -/
def takeMany : Nat → List Nat → State → Option (List Nat) × State
  | 0, acc, s => (some acc, s)
  | k + 1, acc, s =>
    match poolRequest 0x240 true 8192 s with
    | (some r, s) => takeMany k (r :: acc) s
    | (none, s) => (none, acc.foldl (fun s r => poolRelease r s) s)

def takePayload (n : Nat) (s : State) : Option (List Nat) × State :=
  if n = 0 then (some [], s)
  else if n ≤ 8192 then
    match poolRequest 0x240 true n s with
    | (some r, s) => (some [r], s)
    | (none, s) => (none, s)
  else takeMany ((n + 8191) / 8192) [] s

def freePayload (bufs : List Nat) (s : State) : State := bufs.foldl (fun s r => poolRelease r s) s

/-- The distance of a target from the Fix in progress (R38). -/
def targetDist (p : CmdPkt) (s : State) : Nat := fixSub p.target.toNat (fixN s)

/-- Opcodes of multi-Fix commands (R80). -/
def multiCodes : List Nat := [0x0331, 0x0332, 0x0404, 0x0502, 0x0510, 0x0904, 0x0A02, 0x0E01, 0x0E04, 0x0E05]

/-- An input that is a multi-Fix command before its first boundary. -/
def startsMulti (i : Input) : Bool :=
  match i.body with
  | .cmd code _ _ => multiCodes.contains code
  | _ => false

/-- Multi-Fix commands that have been checked and have not completed: those in a slot, and those whose first boundary is still to
come (R81). (Log: DEDUCED, log entry 19.) -/
def multiTaken (s : State) : Nat :=
  s.ctl.multi.length + (s.ctl.queue.filter startsMulti).length
    + (s.ctl.sched.filter (fun c => multiCodes.contains c.code)).length
    + (s.pwr.held.filter (fun c => multiCodes.contains c.code)).length
    + (s.ctl.apply.filter (fun r => startsMulti r.inp && r.verdict == .accepted)).length

/-- A checked command's target is the boundary whose sample is closed already (R37). -/
def missesSample (p : CmdPkt) (s : State) : Bool := s.ctl.closed && p.target != 0 && fixOf p.target.toNat == s.clock.fix + 1

/-- Checks 6 and 7 of R72, and the limit of R81. A command that passes them and misses the sample of its target is STALE (R37). -/
def lateCheck (op : Op) (p : CmdPkt) (s : State) : Option Nat :=
  let d := targetDist p s
  if p.target ≠ 0 && (d = 0 || 2 ^ 21 ≤ d) then some stSTALE
  else if p.target ≠ 0 && 4096 ≤ s.ctl.sched.length then some stBUSY
  else if op.isMulti && 16 ≤ multiTaken s then some stBUSY
  else
    let a := op.arg s p
    if a ≠ 0 then some a else if missesSample p s then some stSTALE else none

/-- An object of a group leased by another owner is touched (R56); a lease of ring 3 covers only what ring 3 may
write (R55). -/
def leaseBlocks (s : State) (owner : Nat) (touch : List (List Nat × Bool)) : Bool :=
  touch.any (fun t => s.ctl.leases.any (fun l =>
    l.owner != owner && t.1.contains l.group && (l.owner != 3 || t.2)))

/-- Complete a command at the Fix in progress and give back its payload buffers. -/
def finishCmd (op : Op) (p : CmdPkt) (bufs : List Nat) (o : CmdOut) (s : State) : State :=
  complete op.code p o s.clock.fix (freePayload bufs s)

/-- The outcome of a command that a boundary turns away: a multi-Fix command reports the units applied, none (R80). -/
def ended (op : Op) (status : Nat) : CmdOut := if op.isMulti then outErrAt status 0 else outErr status

/-- A command takes effect at the boundary of the Fix in progress: leases and tenants are judged there (R56, R78). (Log: DESIGN CHOICE, log entry 13.) -/
def applyCmd (op : Op) (p : CmdPkt) (bufs : List Nat) (s : State) : State :=
  if !op.tenant s p || leaseBlocks s (ownerOf p.src) (op.touch s p) then finishCmd op p bufs (ended op stDENIED) s
  else
    match op.body p bufs s with
    | (t, .done o) =>
      if p.paramLen.toNat < o.data.length then finishCmd op p bufs (ended op stBADARG) s
      else finishCmd op p bufs o t
    | (t, .multi m) => { t with ctl.multi := t.ctl.multi ++ [{ m with ord := t.ctl.serial }] }
    | (t, .wait) => t

/-- A command is checked (R72): refused at once, held for its target (R38), or handed on. -/
inductive Checked where
  | refused (status : Nat)
  | held
  | now (bufs : List Nat)
deriving DecidableEq, Repr

/-- Log: DESIGN CHOICE, log entry 13. -/
def checkCmd (op : Op) (p : CmdPkt) (s : State) : Checked × State :=
  match earlyCheck op p s with
  | some st => (.refused st, s)
  | none =>
    match takePayload (if hasPayloadIn op p then p.paramLen.toNat else 0) s with
    | (none, s) => (.refused stNOBUF, s)
    | (some bufs, s) =>
      match lateCheck op p s with
      | some st => (.refused st, freePayload bufs s)
      | none =>
        if p.target = 0 then (.now bufs, s)
        else
          let c : Sched := { code := op.code, p := setPriv s p, target := fixOf p.target.toNat, bufs := bufs, ord := s.ctl.serial }
          (.held, { s with ctl.sched := s.ctl.sched ++ [c], ctl.serial := s.ctl.serial + 1 })

/-- A completion entry is promised to a ring command (R65). (Log: DESIGN CHOICE, log entry 13.) -/
def promise (src : CmdSrc) (s : State) : State :=
  match src with
  | .ring n => modRing n.val (fun r => { r with promised := r.promised + 1 }) s
  | .inband _ _ _ _ _ => s

end Sys2Proof.Machine
end

