-- ==== Sys2Proof/Machine/ClassifyCmds.lean ====
section
/-! DEFINITION. Commands of the classifier and parser (group 0x03xx, R147 to R156), what a change of its fields does,
and its boundary work. -/

namespace Sys2Proof.Machine

open Sys2Proof

/-! ### Generations and the pending swap (R146 to R150) -/

/-- A swap flipped ACTIVE_GEN at the boundary of the Fix in progress. -/
def swapNow (s : State) : Bool :=
  match s.cls.swap with
  | some w => w.fix == s.clock.fix && w.count == 0
  | none => false

/-- The generation in force before the boundary of the Fix in progress (R149). -/
def genBefore (s : State) : Nat := b2n (if swapNow s then !s.cls.activeGen else s.cls.activeGen)

/-- A swap of an earlier boundary is pending: writes complete BUSY (R149). -/
def swapHolds (s : State) : Bool := s.cls.swap.isSome && !swapNow s

/-- The active generation's copy of a generation-banked field: no write may change it (R147). -/
def activeCopy (s : State) (o : Obj) : Bool := genBanked o && objIdx o / 256 % 2 == genBefore s

def multiRunning (s : State) (code : Nat) : Bool := s.ctl.multi.any (fun m => m.code == code)

/-- RULESET_SWAP (R148, R149). -/
def opRulesetSwap : Op :=
  { code := 0x0310, rings := [0], dir := .none, used := [], isRead := false, isMulti := false, inert := false,
    arg := okArg, tenant := anyTenant, claims := fun _ _ => [oid 2 0x100 0], touch := fun _ _ => [([0, grp 4 2], false)],
    body := fun p _ s =>
      if s.cls.swap.isSome || multiRunning s 0x0331 then (s, .done (outErr stBUSY))
      else if !(bankOf s (b2n (!s.cls.activeGen))).built then (s, .done (outErr stBADARG))
      else
        ({ s with cls.activeGen := !s.cls.activeGen, cls.lastFlip := s.clock.fix,
                  cls.swap := some { fix := s.clock.fix, count := 0, p := p } }, .wait) }

/-- Step 4: the old-generation count is latched; at zero the swap completes with the FIX of its flip (R148). -/
def swapLatch (s : State) : State :=
  match s.cls.swap with
  | none => s
  | some w =>
    let old := b2n (!s.cls.activeGen)
    if s.cls.genCount.getD old 0 = 0 then
      complete 0x0310 w.p (outOk (w.count + 1)) w.fix { s with cls.swap := none }
    else { s with cls.swap := some { w with count := w.count + 1 } }

/-- GEN_DRAIN_STUCK (R150): every 65,536 boundaries after the flip while the old generation has not drained. -/
def doGenDrainStuck (s : State) : State :=
  match s.cls.swap with
  | none => s
  | some w =>
    if w.count ≠ 0 && w.count % 65536 = 0 then
      raiseFault fkGEN_DRAIN_STUCK (s.cls.genCount.getD (b2n (!s.cls.activeGen)) 0) s
    else s

def opRulesetStatus : Op := readOp 0x0311 [0, 2, 3] 16 [] okArg anyTenant (fun _ s =>
  (s, outData 16 ([byteN (b2n s.cls.activeGen), byteN (b2n s.cls.swap.isSome), 0, 0]
    ++ leBytes 4 (if s.cls.swap.isSome then s.cls.genCount.getD (b2n (!s.cls.activeGen)) 0 else 0)
    ++ leBytes 4 s.cls.lastFlip.toNat ++ zerosB 4)))

/-! ### Parse graph (R131, R155) -/

/-- Entry i of a payload of n-byte entries. -/
def payEntry (p : CmdPkt) (n i : Nat) : Bytes := sliceB (payBytes p) (n * i) n

/-- The first index below n at which a check fails. -/
def firstBad (n : Nat) (ok : Nat → Bool) : Option Nat := (List.range n).find? (fun i => !ok i)

/-- A node record may be written (Table 6.1, R131). -/
def nodeOk (r : Bytes) : Bool :=
  let tr := ((List.range 16).map (fun i => leAt r (16 + 4 * i) 4))
  let vs := (tr.filter (fun w => w.testBit 30)).map (fun w => w % 2 ^ 24)
  decide (nByte r 0 < 64) && decide (nodeRole r ≤ 7) && decide (leAt r 2 2 < 1024) && decide (nByte r 6 ≤ 1)
    && decide (nByte r 7 < 64) && !(nByte r 9).testBit 3 && decide (nByte r 9 < 64) && decide (leAt r 10 2 < 512)
    && decide (nByte r 12 < 64) && decide (nByte r 13 ≤ 3) && (decide (nByte r 14 < 64) || nByte r 14 == 255)
    && decide (1 ≤ nByte r 15) && decide (nByte r 15 ≤ 8)
    && decide (leAt r 2 2 + nByte r 15 * nByte r 4 ≤ 1024)
    && tr.all (fun w => !w.testBit 31) && vs.all (fun v => decide (v < 256 ^ nByte r 13))
    && decide ((dedupN vs).length = vs.length)

def pipeMask (m : Nat) : List Nat := (List.range 4).filter (fun i => m.testBit i)

def nodeWriteArg (_ : State) (p : CmdPkt) : Nat :=
  let n := par p 17 1
  if !(decide (par p 16 1 < 16) && decide (1 ≤ n) && decide (n ≤ 64) && p.paramLen.toNat == n * 80) then stBADARG
  else match firstBad n (fun i => nodeOk (payEntry p 80 i)
      && !((List.range i).any (fun j => nByte (payEntry p 80 j) 0 == nByte (payEntry p 80 i) 0))) with
    | some i => refuseAt stBADARG i
    | none => 0

def clearDamageAt (src addr : Nat) (s : State) : State :=
  { s with lod.damage := s.lod.damage.filter (fun d => !(d.source.toNat == src && d.addr.toNat == addr)) }

/-- A stored node: an entry of zeros is not listed. -/
def putNode (pipe gen node : Nat) (r : Bytes) (s : State) : State :=
  clearDamageAt 2 (pipe * 2 ^ 38 + gen * 2 ^ 37 + node)
    { s with cls.nodes := kset (zerosB 80) s.cls.nodes (nodeKey pipe gen node) r }

/-- PARSE_NODE_WRITE. -/
def opParseNodeWrite : Op :=
  actOp 0x0300 [0] (.toDev 80 5120) [(16, 2)] nodeWriteArg
    (fun _ p => (pipeMask (par p 16 1)).map (fun i => oid 2 0x102 i)) (fun p s =>
      if swapHolds s then (s, outErr stBUSY)
      else
        let gen := 1 - genBefore s
        let rs := (List.range (par p 17 1)).map (payEntry p 80)
        let s := (pipeMask (par p 16 1)).foldl (fun s pipe =>
          rs.foldl (fun s r => putNode pipe gen (nByte r 0) r s) s) s
        (s, outOk (par p 17 1)))

/-- PARSE_NODE_READ: a node without a record reads as zeros but for its number. -/
def opParseNodeRead : Op := readOp 0x0301 [0, 2, 3] 5120 [(16, 2)]
  (fun _ p => argIf (decide (par p 16 1 < 4) && decide (par p 17 1 < 2))) anyTenant (fun p s =>
    (s, outData 64 (((List.range 64).map (fun i =>
      spliceB (nodeRec s (par p 16 1) (par p 17 1) i) 0 [byteN i])).flatten)))

/-! ### Entries of the match stages (R147, R155) -/

/-- A primitive may stand in a stage (R140). -/
def primOk (stage w : Nat) : Bool :=
  let op := bitsOf w 27 5
  let a := bitsOf w 0 27
  if op = 0 then a = 0
  else if op = 1 then stage ≤ 5 && a < 2 ^ 24
  else if op = 2 then stage ≤ 5 && a < 2 ^ 18
  else if op = 3 then a < 2 ^ 19
  else if op = 4 then a < 8
  else if op = 5 then 1 ≤ a && a < 128
  else if op = 6 then stage ≤ 3 && a < 16
  else if op = 7 then stage ≤ 6 && a < 8 && 1 ≤ a % 4
  else if op = 8 then a < 2
  else if op = 9 then a < 8
  else if op = 10 then stage ≤ 11 && stage < a && a ≤ 12
  else if op = 11 then bitsOf a 16 8 = 0
  else false

/-- The entry's fields that need no state (Table of CLS_ENTRY_WRITE). -/
def clsEntryForm (e : Bytes) : Bool :=
  let st := nByte e 1
  decide (nByte e 0 < 16) && decide (1 ≤ st) && decide (st ≤ 12) && decide (nByte e 2 < 4) && decide (nByte e 3 ≤ 1)
    && isZeros (sliceB e 10 6)
    && (nByte e 3 == 1 || (List.range 4).all (fun i => primOk st (leAt e (16 + 4 * i) 4)))

def clsWriteArg (_ : State) (p : CmdPkt) : Nat :=
  let n := par p 16 2
  if !(decide (1 ≤ n) && decide (n ≤ 256) && p.paramLen.toNat == n * 192) then stBADARG
  else match firstBad n (fun i => clsEntryForm (payEntry p 192 i)) with
    | some i => refuseAt stBADARG i
    | none => 0

/-- The stages of an entry write. -/
def entryStages (e : Bytes) : List Nat := (pipeMask (nByte e 0)).map (fun i => stageIdx i (nByte e 1))

def clsWriteClaims (_ : State) (p : CmdPkt) : List Obj :=
  (dedupN (((List.range (par p 16 2)).map (fun i => entryStages (payEntry p 192 i))).flatten)).map (fun si => oid 2 0x101 si)

def admittedGens (m : Nat) : List Nat := (List.range 2).filter (fun g => m.testBit g)

/-- The key lengths of the generations that an entry of mask m admits; of the inactive one where it admits none (R135). (Log: DEDUCED, log entry 74.) -/
def entryKeyLens (s : State) (si m : Nat) : List Nat :=
  match admittedGens m with
  | [] => [stageKeyLen s si (1 - genBefore s)]
  | gs => gs.map (stageKeyLen s si)

/-- The exact entry that a write with mask m addresses by its KEY field: the one whose active bit is the write's; failing
that, where the write cannot make an entry (bare: OP 1, an empty mask, or the active bit set), any entry of the key, whose
active bit it would change. OP 1 and an empty mask give no key length (loose): each entry is compared over its own. (Log: DEDUCED, log entry 74.) -/
def exactFind (s : State) (si m : Nat) (bare loose : Bool) (len : Nat) (field : Bytes) : Option (Nat × ClsEntry) :=
  let act := genBefore s
  let es := (stageEntries s si).filter (fun e => e.2.key == sliceB field 0 (if loose then e.2.key.length else len))
  match es.find? (fun e => e.2.gens.getLsbD act == m.testBit act) with
  | some e => some e
  | none => if bare then es.head? else none

/-- A free candidate slot of an exact key, ways in ascending order (R135). -/
def exactFree (s : State) (si : Nat) (key : Bytes) : Option Nat :=
  ((stageBlocks s si).map (fun b => b * 8192 + exactSlot b key)).find? (fun ph =>
    (kfind s.cls.entries (entryKey si ph)).isNone)

/-- Write, rewrite or free one entry at a place under R147: the status of a refusal, or the state after. -/
def entryPut (si ph m : Nat) (old : Option ClsEntry) (new : ClsEntry) (s : State) : Except Nat State :=
  let act := genBefore s
  let oldAct := match old with
    | some e => e.gens.getLsbD act
    | none => false
  let same := match old with
    | some e => decide ({ e with gens := 0, disabled := false } = { new with gens := 0, disabled := false })
    | none => false
  if oldAct != m.testBit act || (oldAct && !same) then .error stBADARG
  else
    let s := clearDamageAt 3 (clsAddr si ph) s
    if m = 0 then .ok { s with cls.entries := kdel s.cls.entries (entryKey si ph) }
    else .ok { s with cls.entries := kput s.cls.entries (entryKey si ph) { new with gens := BitVec.ofNat 2 m } }

/-- One entry write in one stage. -/
def entryWrite (e : Bytes) (si : Nat) (s : State) : Except Nat State :=
  let m := nByte e 2
  let kind := stKind s si
  let plen := leAt e 8 2
  let idx := leAt e 4 4
  let acts : List U32 := (List.range 4).map (fun i => BitVec.ofNat 32 (leAt e (16 + 4 * i) 4))
  if kind ≠ 2 && plen ≠ 0 then .error stBADARG
  else
    let lens := entryKeyLens s si m
    let len := lens.headD 0
    if kind = 2 && lens.any (fun n => decide (8 * n < plen)) then .error stBADARG
    else if kind = 0 then
      if lens.any (fun n => n != len) || idx ≠ 0 || !isZeros (sliceB e 112 80) then .error stBADARG
      else
        let key := sliceB e 32 len
        let loose := nByte e 3 == 1 || m == 0
        match exactFind s si m (loose || m.testBit (genBefore s)) loose len (sliceB e 32 80) with
        | some (ph, old) =>
          let new : ClsEntry := if nByte e 3 = 1 then old
            else { gens := 0, prefLen := 0, actions := acts, key := if m = 0 then old.key else key, mask := [],
                   disabled := false }
          let twice := (stageEntries s si).any (fun x => x.1 != ph && x.2.key == new.key && (x.2.gens.toNat &&& m) != 0)
          match entryPut si ph m (some old) new s with
          | .ok t => if twice then .error stEXISTS else .ok t
          | .error st => .error st
        | none =>
          if nByte e 3 = 1 then .error stNOTFOUND
          else if m.testBit (genBefore s) then .error stBADARG
          else if (stageEntries s si).any (fun x => x.2.key == key && (x.2.gens.toNat &&& m) != 0) then .error stEXISTS
          else if m = 0 then .ok s
          else match exactFree s si key with
            | none => .error stNOBUF
            | some ph => entryPut si ph m none
                { gens := 0, prefLen := 0, actions := acts, key := key, mask := [], disabled := false } s
    else match entryPhys s si idx with
      | none => .error stBADARG
      | some ph =>
        let old := kfind s.cls.entries (entryKey si ph)
        match nByte e 3, old with
        | 1, none => .error stNOTFOUND
        | 1, some o => entryPut si ph m old o s
        | _, _ => entryPut si ph m old
            { gens := 0, prefLen := plen, actions := acts, key := sliceB e 32 80, mask := sliceB e 112 80,
              disabled := false } s

def entryWriteAll (e : Bytes) : List Nat → State → Except Nat State
  | [], s => .ok s
  | si :: rest, s => match entryWrite e si s with
    | .ok s => entryWriteAll e rest s
    | .error st => .error st

/-- All entries of a payload, or the index of the first that fails. -/
def clsWriteLoop (p : CmdPkt) : Nat → Nat → State → Except (Nat × Nat) State
  | 0, _, s => .ok s
  | n + 1, i, s => match entryWriteAll (payEntry p 192 i) (entryStages (payEntry p 192 i)) s with
    | .ok s => clsWriteLoop p n (i + 1) s
    | .error st => .error (st, i)

/-- CLS_ENTRY_WRITE. -/
def opClsEntryWrite : Op :=
  actOp 0x0320 [0] (.toDev 192 49152) [(16, 2)] clsWriteArg clsWriteClaims (fun p s =>
    if swapHolds s then (s, outErr stBUSY)
    else match clsWriteLoop p (par p 16 2) 0 s with
      | .ok t => (t, outOk (par p 16 2))
      | .error (st, i) => (s, outErrAt st i))

/-- One entry as CLS_ENTRY_READ returns it: as it would be written, so INDEX is 0 in an exact stage. (Log: DEDUCED, log entry 74.) -/
def entryRead (s : State) (pipe stage i ph : Nat) : Bytes :=
  let si := stageIdx pipe stage
  let idx := if stKind s si = 0 then 0 else i
  match kfind s.cls.entries (entryKey si ph) with
  | none => [byteN (2 ^ pipe), byteN stage, 0, 0] ++ leBytes 4 idx ++ zerosB 184
  | some e => [byteN (2 ^ pipe), byteN stage, byteN e.gens.toNat, 0] ++ leBytes 4 idx ++ leBytes 2 e.prefLen ++ zerosB 6
      ++ (e.actions.map (fun w => leBytes 4 w.toNat)).flatten ++ padTo 80 e.key ++ padTo 80 e.mask

/-- The entries that CLS_ENTRY_READ names lie in one way of an exact stage, or below another stage's capacity. (Log: DEDUCED, log entry 74.) -/
def clsReadOk (s : State) (p : CmdPkt) : Bool :=
  let n := par p 24 2
  let i := par p 20 4
  let si := stageIdx (par p 16 1) (par p 17 1)
  if stKind s si = 0 then (stageBlocks s si).contains (i / 8192) && i / 8192 == (i + n - 1) / 8192
  else (entryPhys s si (i + n - 1)).isSome

/-- CLS_ENTRY_READ: its entries are judged by the stage as it is at the boundary. (Log: DEDUCED, log entry 74.) -/
def opClsEntryRead : Op := readOp 0x0321 [0, 2, 3] 192 [(16, 2), (20, 6)]
  (fun _ p =>
    let n := par p 24 2
    argIf (decide (par p 16 1 < 4) && decide (1 ≤ par p 17 1) && decide (par p 17 1 ≤ 12) && decide (1 ≤ n)
      && decide (n ≤ 256) && decide (n * 192 ≤ p.paramLen.toNat)))
  anyTenant (fun p s =>
    if !clsReadOk s p then (s, outErr stBADARG) else
    let pipe := par p 16 1
    let stage := par p 17 1
    let one := fun j =>
      let i := par p 20 4 + j
      match entryPhys s (stageIdx pipe stage) i with
      | some ph => entryRead s pipe stage i ph
      | none => zerosB 192
    (s, outData (par p 24 2) (((List.range (par p 24 2)).map one).flatten)))

/-! ### Pattern banks (R155, R156) -/

def patForm (e : Bytes) : Bool :=
  decide (nByte e 2 < 16) && decide (nByte e 3 < 4) && isZeros (sliceB e 5 3)
    && (nByte e 3 / 2 == 1 || (decide (1 ≤ nByte e 4) && decide (nByte e 4 ≤ 64)))

def patWriteArg (_ : State) (p : CmdPkt) : Nat :=
  let n := par p 16 2
  if !(decide (1 ≤ n) && decide (n ≤ 256) && p.paramLen.toNat == n * 72) then stBADARG
  else match firstBad n (fun i => patForm (payEntry p 72 i)) with
    | some i => refuseAt stBADARG i
    | none => 0

/-- One pattern written into, or deleted from, a bank; none where an absent ID is deleted. -/
def patApply (e : Bytes) (b : Bank) : Option Bank :=
  let id := leAt e 0 2
  let others := b.pats.filter (fun q => q.id != id)
  if nByte e 3 / 2 = 1 then
    (if others.length = b.pats.length then none else some { b with pats := others, built := false })
  else some { b with pats := others ++ [{ id := id, group := nByte e 2, nocase := nByte e 3 % 2 == 1,
                                          bytes := sliceB e 8 (nByte e 4) }], built := false }

def patLoop (p : CmdPkt) : Nat → Nat → Bank → Except Nat Bank
  | 0, _, b => .ok b
  | n + 1, i, b => match patApply (payEntry p 72 i) b with
    | some b => patLoop p n (i + 1) b
    | none => .error i

def bankClaim : State → CmdPkt → List Obj := fun _ _ => [oid 2 0x103 0]

def setPatBank (gen : Nat) (b : Bank) (s : State) : State := { s with cls.banks := setAt s.cls.banks gen b }

/-- PM_PATTERN_WRITE. -/
def opPmPatternWrite : Op :=
  actOp 0x0330 [0] (.toDev 72 18432) [(16, 2)] patWriteArg bankClaim (fun p s =>
    if swapHolds s then (s, outErr stBUSY)
    else
      let gen := 1 - genBefore s
      match patLoop p (par p 16 2) 0 (bankOf s gen) with
      | .ok b => (setPatBank gen b s, outOk (par p 16 2))
      | .error i => (s, outErrAt stNOTFOUND i))

/-- States of a bank's automaton with the start state. (Log: DEDUCED, log entry 34.) -/
def bankStates (b : Bank) : Nat :=
  1 + (autoStates b.pats).length

/-- One unit of PM_BUILD: 1,024 patterns; the automaton stands after the last. -/
def pmBuildUnit (m : Multi) (s : State) : State × MStep :=
  let gen := 1 - genBefore s
  let b := bankOf s gen
  let pos := m.pos + 1024
  if pos < b.pats.length then (s, .more { m with pos := pos, units := m.units + 1, lastFix := s.clock.fix })
  else if 2097152 < bankStates b then (setPatBank gen { b with built := false } s, .fin (outErrAt stNOBUF (m.units + 1)))
  else (setPatBank gen { b with compiled := b.pats, built := true } s, .fin (outOk b.pats.length))

/-- One unit of PM_COPY: 1,024 patterns; the automaton follows with the last. -/
def pmCopyUnit (m : Multi) (s : State) : State × MStep :=
  let act := genBefore s
  let src := bankOf s act
  let pos := m.pos + 1024
  if pos < src.pats.length then
    (setPatBank (1 - act) { pats := src.pats.take pos, compiled := (bankOf s (1 - act)).compiled, built := false } s,
      .more { m with pos := pos, units := m.units + 1, lastFix := s.clock.fix })
  else (setPatBank (1 - act) { src with built := true } s, .fin (outOk src.pats.length))

/-- Log: DEDUCED, log entry 34. -/
def opPmBuild : Op :=
  multiOp 0x0331 [0] .none [] 262144 okArg anyTenant bankClaim (touchOf bankClaim)
    (fun s _ => if swapHolds s || multiRunning s 0x0332 then stBUSY else 0) pmBuildUnit

/-- Log: DEDUCED, log entry 34. -/
def opPmCopy : Op :=
  multiOp 0x0332 [0] .none [] 262144 okArg anyTenant bankClaim (touchOf bankClaim)
    (fun s _ => if swapHolds s || multiRunning s 0x0331 then stBUSY else 0) pmCopyUnit

def opPipeStatsRead : Op := readOp 0x0340 [0, 2, 3] 80 [(16, 1)] (fun _ p => argIf (decide (par p 16 1 < 4))) anyTenant
  (fun p s =>
    let c := s.cls.cnt.getD (par p 16 1) pipeCountsReset
    (s, outData 80 (([c.parseDrop, c.passDrop, c.actionDrop, c.integrityDrop, c.unscannedBudget, c.unscannedLane, c.pmDrop,
      c.streamGap, c.tenantIgnored, c.flowReqIgnored].map (fun v => leBytes 8 v.toNat)).flatten)))

/-! ### Checks of a commit (R134, R136, R140) -/

/-- Stages with a field that is not at reset. -/
def clsStages (s : State) : List Nat :=
  dedupN ((s.ctl.cfg.filter (fun e => objSub e.1 == 2 && decide (2 ≤ objFld e.1) && decide (objFld e.1 < 0x20))).map
    (fun e => objIdx e.1 % 256))

def chunkFits (v : Nat) : Bool :=
  !chunkUsed v || decide (chunkOff v + chunkLen v ≤ (if chunkBus v then 64 else 1024))

/-- A stage's key keeps R136 in one generation. -/
def stageKeyOk (s : State) (si gen : Nat) : Bool :=
  let cs := usedChunks s si gen
  let n := stageKeyLen s si gen
  let k := stKind s si
  (cs.all (fun c => chunkFits c.2))
    && (if k = 0 then decide (n ≤ (if stWide s si then 32 else 16))
        else if k = 3 then cs.all (fun c => decide (c.1 < 4) && decide (chunkLen c.2 ≤ 4))
        else decide (n ≤ 20 * stWidth s si))
    && (missActions s si gen).all (fun w => primOk (si % 12 + 1) w.toNat)

/-- The block maps of a stage. -/
def stageMaps (s : State) (si : Nat) : List Nat :=
  [objVal s (oid 2 4 si), objVal s (oid 2 5 si), objVal s (oid 2 6 si)]

def stageBlocksOk (s : State) (si : Nat) : Bool :=
  let k := stKind s si
  let m := stageMaps s si
  let tcam := (blockList (m.getD 0 0) 24).length
  let exact := (blockList (m.getD 1 0) 64).length
  (if k = 0 then m.getD 0 0 == 0 && m.getD 2 0 == 0 && (!stWide s si || exact % 2 == 0)
   else if k = 3 then m.getD 0 0 == 0 && m.getD 1 0 == 0
   else m.getD 1 0 == 0 && m.getD 2 0 == 0 && tcam % max 1 (stWidth s si) == 0)

def stagesApart (s : State) (a b : Nat) : Bool :=
  a / 12 != b / 12 || a == b
    || (List.range 3).all (fun i => ((stageMaps s a).getD i 0 &&& (stageMaps s b).getD i 0) == 0)

/-- The classifier's checks over the resulting configuration. -/
def clsCfgOk (s : State) : Bool :=
  let ss := clsStages s
  ss.all (fun si => stageBlocksOk s si && stageKeyOk s si 0 && stageKeyOk s si 1)
    && ss.all (fun a => ss.all (fun b => stagesApart s a b))

/-! ### What a change of the fields does (R136) -/

/-- A stage's blocks in ascending order. -/
def allBlocks (s : State) (si : Nat) : List Nat :=
  let k := stKind s si
  blockList ((stageMaps s si).getD (if k = 0 then 1 else if k = 3 then 2 else 0) 0) (if k = 0 then 64 else if k = 3 then 8 else 24)

/-- Blocks to an entry. -/
def runLen (s : State) (si : Nat) : Nat :=
  let k := stKind s si
  if k = 0 then (if stWide s si then 2 else 1) else if k = 3 then 1 else max 1 (stWidth s si)

/-- The blocks that hold the run, way or range block of a head. -/
def headRun (s : State) (si head : Nat) : List Nat :=
  let bs := allBlocks s si
  (bs.drop (bs.idxOf head)).take (runLen s si)

/-- The head of the run that a block lies in. -/
def headOf (s : State) (si block : Nat) : Nat :=
  let bs := allBlocks s si
  bs.getD (bs.idxOf block / runLen s si * runLen s si) 0

/-- The entries of a stage after its fields change from those of `old` (R136): a change of kind or width frees all, a change of
the block set those of the blocks that left. An entry whose blocks all stay keeps its row or slot, under the run that now holds its
lowest block. (Log: DEDUCED, log entry 34.) -/
def restage (old : State) (si : Nat) (s : State) : State :=
  if stKind old si ≠ stKind s si || objVal old (oid 2 3 si) ≠ objVal s (oid 2 3 si) then
    { s with cls.entries := s.cls.entries.filter (fun e => e.1 / 2 ^ 20 != si) }
  else
    let rows := blockRows (stKind s si)
    let kept := (s.cls.entries.filter (fun e => e.1 / 2 ^ 20 == si)).filter (fun e =>
      (headRun old si (e.1 % 2 ^ 20 / rows)).all (fun b => (allBlocks s si).contains b))
    let rest := s.cls.entries.filter (fun e => e.1 / 2 ^ 20 != si)
    { s with cls.entries := kept.foldl (fun m e =>
        kput m (entryKey si (headOf s si (e.1 % 2 ^ 20 / rows) * rows + e.1 % 2 ^ 20 % rows)) e.2) rest }

/-! ### Boundary work -/

/-- The scan budget is restored in full (R152). -/
def pmRefill (s : State) : State := { s with cls.budget := [102400, 102400, 102400, 102400] }

/-- A row that the scrubber has found wrong, by the address of TCAM_MISMATCH, is disabled (R157). -/
def rowWrong (a : Nat) (s : State) : State :=
  let key := entryKey ((a / 2 ^ 38) * 12 + (a / 2 ^ 32) % 16) (a % 2 ^ 32)
  match kfind s.cls.entries key with
  | some e => { s with cls.entries := kput s.cls.entries key { e with disabled := true } }
  | none => s

/-- The scrubber's finds of the Fix before (R157). -/
def tcamScrub (s : State) : State :=
  (s.lod.damage.filter (fun d => d.source.toNat == 3 && d.kind.toNat == 3)).foldl (fun s d =>
    raiseInjected fkTCAM_MISMATCH d.addr.toNat [] [] (clearDamage 3 3 d.addr.toNat (rowWrong d.addr.toNat s))) s

/-- A field whose enable has been 0 since an earlier boundary: it is 0 and has not changed at this one (R8). -/
def offSince (s : State) (sub fld idx lo : Nat) : Bool :=
  fv s sub fld idx lo 1 == 0 && !s.ctl.changed.contains (oid sub fld idx)

end Sys2Proof.Machine
end

