-- ==== Sys2Proof/Machine/Flags.lean ====
section
/-! DEFINITION. Flags that other blocks follow: the safe states of Lodestar over ports and endpoints (R386, R387), and
the states of a port that admission and pause frames ask for. -/

namespace Sys2Proof.Machine

open Sys2Proof

def srcState (s : State) (src cls : Nat) : SrcState := kget srcStateReset s.lod.states (src * 4 + cls)

/-- A state is ACTIVE or HELD. -/
def stateOn (e : SrcState) : Bool := e.st != .none

/-- The Class 1 states that are ACTIVE or HELD. -/
def class1On (s : State) : List SrcState :=
  (s.lod.states.filter (fun e => e.1 % 4 == 1 && stateOn e.2)).map (fun e => e.2)

/-- A port is in the safe state (R386, R387). -/
def portSafe (s : State) (p : Nat) : Bool := s.lod.grave || (class1On s).any (fun e => e.ports.contains p)

/-- A Class 1 fault holds an endpoint's meter frozen (R337). -/
def epFrozen (s : State) (e : Nat) : Bool := s.lod.grave || (class1On s).any (fun k => k.endpoints.contains e)

/-- ISO_FAULT_N is asserted by a Class 0 or Class 1 state (R386). -/
def isoFaultHeld (s : State) : Bool :=
  s.lod.grave || s.lod.states.any (fun e => decide (e.1 % 4 ≤ 1) && stateOn e.2)

/-- ERR_N is asserted by bit 4 of a source whose Class 2 state lasts, or by GRAVE (R385, R387). -/
def errHeld (s : State) : Bool :=
  s.lod.grave || s.lod.errHolders.any (fun src => stateOn (srcState s src 2))

/-- ISO_FAULT_N and ERR_N are asserted (R386, R387, R419, R457): not without VDD_AON; while SYS_RST_N is low by the GRAVE
latch alone; HALTED asserts ERR_N. (Log: DEDUCED, log entry 58.) -/
def pinsNow (s : State) : Bool × Bool :=
  if !s.boot.aonUp then (false, false)
  else if !s.boot.sysRst then (s.lod.grave, s.lod.grave)
  else (isoFaultHeld s, errHeld s || s.boot.stage == 8)

/-- The port is in UP or DOWN_PEND. -/
def portLive (s : State) (p : Nat) : Bool :=
  (portOf s p).st == .up || (portOf s p).st == .downPend

/-- The port's queues are being flushed (R257). -/
def portFlushing (s : State) (p : Nat) : Bool := (kfind s.sw.flush p).isSome

/-- Admission to the port's queues is refused under R244, step 1. -/
def portRefuses (s : State) (p : Nat) : Bool := !portLive s p || portFlushing s p || portSafe s p

end Sys2Proof.Machine
end

