-- ==== Sys2Proof/Machine/Hbm.lean ====
section
/-! DEFINITION. The HBM subsystem (chapter 13): placement, arbiters, controllers, refresh, retraining, and the bytes of
the regions. -/

namespace Sys2Proof.Machine

open Sys2Proof

/-! ### Regions and bytes (R308, R309) -/

/-- Region sizes in bytes (Table 0.1); region 4 runs to the end of the stacks. -/
def regionBytes (small : Bool) (k : Nat) : Nat :=
  let g := 2 ^ 30
  if k = 0 then (if small then 16 * g else 32 * g)
  else if k = 1 then (if small then 20 * g else 40 * g)
  else if k = 2 then 64 * 2 ^ 20
  else if k = 3 then 4 * g else 0

/-- PCBASE of a region in units of 16 KiB (R308). -/
def pcBase (small : Bool) (k : Nat) : Nat :=
  (List.range k).foldl (fun a j => a + (regionBytes small j + 192 * 16384 - 1) / (192 * 16384)) 0

/-- Span of a region per pseudo-channel in units of 16 KiB. -/
def pcSpan (small : Bool) (k : Nat) : Nat :=
  if k < 4 then pcBase small (k + 1) - pcBase small k
  else (if small then 16384 else 32768) - pcBase small 4

/-- log2 of the grain of a region: as the running image sets it (R332, Table 18.4); Table 13.2's before an image runs. -/
def grainLog (s : State) (k : Nat) : Nat :=
  match s.boot.running with
  | some g => leAt g.grains k 1
  | none => if k = 0 then 8 else 12

/-- Where a region byte lies: the global pseudo-channel, and the offset o (R308). -/
structure Place where
  pc : Nat
  o : Nat
deriving DecidableEq, Repr

def placeOf (s : State) (region a : Nat) : Place :=
  let gr := 2 ^ grainLog s region
  let g := a / gr
  { pc := g % 192, o := pcBase s.small region * 16384 + g / 192 * gr + a % gr }

def placeRow (p : Place) : Nat := bitsOf p.o 14 15
def placeCol (p : Place) : Nat := bitsOf p.o 0 10
def placeBank (p : Place) : Nat := bitsOf p.o 10 4 ^^^ bitsOf p.o 14 4

/-- The stack of a global pseudo-channel (R307). -/
def pcStack (pc : Nat) : Nat := pc % 6
def pcNum (pc : Nat) : Nat := pc / 6

def hbmKey (region a : Nat) : Nat := region * 2 ^ 40 + a

/-- n bytes of a region as the stacks hold them. (Log: DESIGN CHOICE, log entry 9.) -/
def hbmRead (s : State) (region a n : Nat) : Bytes := memReadN s.hbm.mem (hbmKey region a) n

def hbmWrite (region a : Nat) (bs : Bytes) (s : State) : State :=
  { s with hbm.mem := memWriteN s.hbm.mem (hbmKey region a) bs }

/-! ### ATOM (R203) -/

/-- The lowest clear bit of a line. (Log: DESIGN CHOICE, log entry 45.) -/
def lowestClear (line : Nat) : Option Nat := (List.range 512).find? (fun i => !line.testBit i)

/-- An ATOM on a line at an address: the new memory and the result. A BSET on a full line sets nothing; its result is a
value that the spec does not state. (Log: DESIGN CHOICE, log entry 45.) -/
def hbmAtom (op : Nat) (region a operand : Nat) (s : State) : Nat × State :=
  if op = 0 then
    let a8 := a / 8 * 8
    let old := leNat (hbmRead s region a8 8)
    (old % 2 ^ 32, hbmWrite region a8 (leBytes 8 ((old + operand) % 2 ^ 64)) s)
  else
    let l := a / 64 * 64
    let old := leNat (hbmRead s region l 64)
    if op = 1 then
      match lowestClear old with
      | some i => (i, hbmWrite region l (leBytes 64 (old + 2 ^ i)) s)
      | none => ((openDraw 13 s).toNat % 2 ^ 32, advanceDraws 1 s)
    else
      let i := operand % 512
      (operand % 2 ^ 32, hbmWrite region l (leBytes 64 (setBits old i 1 0)) s)

/-! ### Controllers: accessors -/

def pcOf (s : State) (p : Nat) : HbmPc := kget hbmPcReset s.hbm.pcs p
def modPc (p : Nat) (f : HbmPc → HbmPc) (s : State) : State := { s with hbm.pcs := kmod hbmPcReset s.hbm.pcs p f }
def stackOf (s : State) (k : Nat) : HbmStack := s.hbm.stk.getD k hbmStackReset
def modStack (k : Nat) (f : HbmStack → HbmStack) (s : State) : State :=
  { s with hbm.stk := modAt s.hbm.stk k f }
def bankOfPc (c : HbmPc) (b : Nat) : HbmBank := kget hbmBankReset c.banks b
def setBank (b : Nat) (f : HbmBank → HbmBank) (c : HbmPc) : HbmPc :=
  { c with banks := kmod hbmBankReset c.banks b f }

/-- Add to counter i (0 READS … 15 RETRAINS) of the stack of a pseudo-channel. -/
def hbmCount (pc i : Nat) (s : State) : State :=
  modStack (pcStack pc) (fun k => { k with counts := modAt k.counts i (fun v => v + 1) }) s

/-- The first guard entry that waits for a bucket has it: the paired read of a slice has returned (R168, R171). -/
def guardBack (sl b : Nat) (faulted : Bool) : List Guard → List Guard
  | [] => []
  | g :: gs =>
    if g.slice = sl ∧ g.bucket = b ∧ g.back = none then { g with back := some faulted } :: gs else g :: guardBack sl b faulted gs

/-- The first operation of an engine that waits for a request has its answer (R201). -/
def opBack (r : HbmReq) (faulted : Bool) : List Tag → List Tag
  | [] => []
  | t :: ts =>
    match t.op with
    | some o =>
      if o.out.contains r then
        { t with op := some { o with out := o.out.erase r, status := if faulted then stFAULTED else o.status } } :: ts
      else t :: opBack r faulted ts
    | none => t :: opBack r faulted ts

/-- The answer to a request goes to its requester, unless the requester is masked (R326). -/
def hbmAnswer (port : Nat) (r : HbmReq) (faulted : Bool) (data : Bytes) (s : State) : State :=
  if s.hbm.masked.contains r.id.toNat then s
  else
    let s := { s with
      hbm.answers := s.hbm.answers ++ [{ port := port, id := r.id.toNat, faulted := faulted, data := data }] }
    if r.kind == .pairedRead && port < 4 then { s with flow.guards := guardBack port (r.offset / 128) faulted s.flow.guards }
    else if 4 ≤ port && port ≤ 35 && r.id.toNat / 16 == port - 4 then
      { s with skip.engines := kmod engineReset s.skip.engines r.id.toNat (fun e => { e with tags := opBack r faulted e.tags }) }
    else s

def reqPlace (s : State) (r : HbmReq) : Place := placeOf s r.region.val r.offset

/-- Transfer slots of a request (R322). -/
def reqCost (r : HbmReq) : Nat :=
  match r.kind with
  | .atom _ => 4
  | .release => 0
  | _ => (r.len + 31) / 32

/-- Class of a port (Table 13.4): 0 FS, 1 SK, 2 MT, 3 RH, 4 LG, 5 BN. -/
def portClass (port : Nat) : Nat :=
  if port ≤ 3 then 0 else if port ≤ 35 then 1 else if port = 36 then 2 else if port = 37 then 3
  else if port ≤ 41 then 4 else 5

def classPorts (c : Nat) : List Nat := (List.range 43).filter (fun p => portClass p == c)

def arbWeight (s : State) (stack c : Nat) : Nat := fv s 10 1 stack (8 * c) 8

/-- The line address of HBM_ECC messages: line within the pseudo-channel (Table 13.8). -/
def eccAddr (pl : Place) : Nat := pcStack pl.pc * 2 ^ 37 + pcNum pl.pc * 2 ^ 32 + (pl.o / 64) % 2 ^ 23

/-! ### Requests and hints (R324, R326 to R328) -/

def ceilDiv (a b : Nat) : Nat := (a + b - 1) / b

def isRead (k : HbmKind) : Bool :=
  match k with
  | .read => true
  | .pairedRead => true
  | _ => false

/-- The rotation of a stack retrains a pseudo-channel at the next boundary (R319). -/
def trainsNext (s : State) (p : Nat) : Bool :=
  let st := stackOf s (pcStack p)
  let per := fv s 9 5 (pcStack p) 0 24
  st.trainNext == pcNum p && (decide (0 < st.trainLeft) || (per != 0 && (fixN s + 1) % per == 0))

/-- The hint word of a request at its arrival (R327, R328). -/
def hintWord (port : Nat) (r : HbmReq) (s : State) : Nat :=
  let pl := reqPlace s r
  let k := pcStack pl.pc
  let st := stackOf s k
  let c := portClass port
  let pc := pcOf s pl.pc
  let slots := reqCost r
  let base := match r.kind with
    | .atom _ => 144
    | .read => 118 + slots
    | .pairedRead => 118 + slots
    | _ => 48
  let ahead := (kget [] st.queues port).foldl (fun a q => a + reqCost q) 0
  let waitQ := ceilDiv (ahead * 256) (30 * arbWeight s k c)
  let creditWait := decide (st.credits.getD c 0 < (ahead + slots : Nat))
  let waitC := if creditWait then ceilDiv ((1024 - s.clock.sub.toNat) * 12) 10 else 0
  let retrainLeft := ceilDiv ((1024 - s.clock.sub.toNat) * 12) 10
  let nextBusy := trainsNext s pl.pc
  let waitP := match pc.mode with
    | .retraining => retrainLeft - (waitQ + waitC)
    | .powerDown => 12
    | .selfRefresh => 240
    | _ => if nextBusy && decide (retrainLeft ≤ waitQ + waitC) then retrainLeft + 1229 - (waitQ + waitC) else 0
  let waitD := if isRead r.kind && pc.drain then 2 * (pc.writes.length - fv s 9 3 k 8 6) else 0
  let total := base + waitQ + waitC + waitP + waitD
  min 4095 total + b2n creditWait * 2 ^ 12 + b2n (decide (waitP ≠ 0)) * 2 ^ 13 + b2n pc.drain * 2 ^ 14
    + b2n (decide (4095 < total)) * 2 ^ 15

/-- The port's queue for the request's controller has no room, or an earlier request of the port waits for room (R324). -/
def portStalls (s : State) (port : Nat) (req : HbmReq) : Bool :=
  !(kget [] s.hbm.stalled port).isEmpty || decide (128 ≤ (kget [] (stackOf s (pcStack (reqPlace s req).pc)).queues port).length)

/-- A request enters its port's queue and is answered with a hint word (R324, R327). -/
def portEnter (port : Nat) (req : HbmReq) (s : State) : State :=
  let h := hintWord port req s
  modStack (pcStack (reqPlace s req).pc) (fun st => { st with queues := kmod [] st.queues port (fun q => q ++ [req]) })
    { s with hbm.hint := BitVec.ofNat 16 h }

/-- HBM_REQUEST: a request reaches an arbiter port queue; a stalled port takes none. (Log: DEDUCED, log entry 50.) -/
def doHbmRequest (port : Fin 43) (req : HbmReq) (s : State) : State :=
  if s.hbm.masked.contains req.id.toNat || portStalls s port.val req then s else portEnter port.val req s

/-- A block of the device presents a request: where the queue is full the requester stalls, and no request is lost (R324). -/
def hbmPresent (port : Nat) (req : HbmReq) (s : State) : State :=
  if s.hbm.masked.contains req.id.toNat then s
  else if portStalls s port req then { s with hbm.stalled := kmod [] s.hbm.stalled port (fun q => q ++ [req]) }
  else portEnter port req s

/-- A read or write of a region by requester `id`, whose bytes the model moves itself. -/
def plainReq (id : Nat) (kind : HbmKind) (region a n : Nat) : HbmReq :=
  { id := BitVec.ofNat 12 id, kind := kind, region := Fin.ofNat 5 region, offset := a, len := n, data := [] }

/-- A grant has made room: the stalled requests of a port enter, in order, as far as there is room. -/
def portResume (port : Nat) : List HbmReq → State → State
  | [], s => s
  | r :: rs, s =>
    if 128 ≤ (kget [] (stackOf s (pcStack (reqPlace s r).pc)).queues port).length then s
    else portResume port rs (portEnter port r { s with hbm.stalled := kset [] s.hbm.stalled port rs })

/-- A requester's mask is asserted: its queued requests are dropped (R326). -/
def hbmMask (id : Nat) (s : State) : State :=
  { s with
    hbm.masked := if s.hbm.masked.contains id then s.hbm.masked else id :: s.hbm.masked
    hbm.stalled := s.hbm.stalled.filterMap (fun e =>
      let q := e.2.filter (fun r => r.id.toNat != id)
      if q.isEmpty then none else some (e.1, q))
    hbm.stk := s.hbm.stk.map (fun st => { st with
      queues := st.queues.filterMap (fun e =>
        let q := e.2.filter (fun r => r.id.toNat != id)
        if q.isEmpty then none else some (e.1, q)) }) }

def hbmUnmask (id : Nat) (s : State) : State := { s with hbm.masked := s.hbm.masked.filter (fun i => i != id) }

/-! ### Grants (R314, R315, R323, R324) -/

def stackPcs (k : Nat) : List Nat := (List.range 32).map (fun i => 6 * i + k)

def isAtom (k : HbmKind) : Bool :=
  match k with
  | .atom _ => true
  | _ => false

/-- Reads outstanding at a controller, ATOM reads included (R315), and ATOMs in its unit (R314). -/
def stackReads (s : State) (k : Nat) (f : HbmKind → Bool) : Nat :=
  (stackPcs k).foldl (fun a p =>
    let c := pcOf s p
    a + (c.flight.filter (fun e => f e.entry.req.kind)).length
      + (c.banks.foldl (fun a b => a + (b.2.queue.filter (fun e => f e.req.kind)).length) 0)) 0

/-- The lines that a request covers. -/
def reqLines (r : HbmReq) : Nat := if r.len = 0 then 0 else (r.offset + r.len - 1) / 64 - r.offset / 64 + 1

/-- There is room for a request (R324). -/
def grantable (s : State) (r : HbmReq) : Bool :=
  let pl := reqPlace s r
  let c := pcOf s pl.pc
  let k := pcStack pl.pc
  match r.kind with
  | .release => true
  | .pairedWrite => (bankOfPc c (placeBank pl)).hold.contains r.id.toNat || decide (c.writes.length + reqLines r ≤ 64)
  | .write => decide (c.writes.length + reqLines r ≤ 64)
  | .atom _ => decide ((bankOfPc c (placeBank pl)).queue.length < 16) && decide (stackReads s k isAtom < 64)
      && decide (stackReads s k (fun x => isRead x || isAtom x) < 4096)
  | _ => decide ((bankOfPc c (placeBank pl)).queue.length < 16)
      && decide (stackReads s k (fun x => isRead x || isAtom x) < 4096)

/-- Entries that wait in the banks of a pseudo-channel. -/
def entriesOf (c : HbmPc) : List HbmEntry := (c.banks.map (fun b => b.2.queue)).flatten

/-- A queued read or ATOM works on a line. -/
def readsLine (e : HbmEntry) (region line : Nat) : Bool :=
  (isRead e.req.kind || isAtom e.req.kind) && e.req.region.val == region && decide (e.req.offset / 64 ≤ line)
    && decide (line * 64 < e.req.offset + max 1 e.req.len)

/-- A write enters the write queue, line by line; a line already queued is merged, the later bytes standing (R312). A line that a read or
ATOM waits for between the two writes takes a place of its own, since no write passes an older read (R313). (Log: DEDUCED, log entry 50.) -/
def queueByte (seq : Nat) (rs : List HbmEntry) (region a : Nat) (b : Option Byte) (ws : List HbmWrite) : List HbmWrite :=
  let joins := fun (w : HbmWrite) =>
    w.region == region && w.line == a / 64 && !rs.any (fun e => decide (w.seq < e.seq) && readsLine e region (a / 64))
  if ws.any joins then ws.map (fun w => if joins w then { w with bytes := kput w.bytes (a % 64) b } else w)
  else ws ++ [{ region := region, line := a / 64, bytes := [(a % 64, b)], seq := seq }]

def queueWrite (seq : Nat) (rs : List HbmEntry) (region : Nat) : Nat → List (Option Byte) → List HbmWrite → List HbmWrite
  | _, [], ws => ws
  | a, b :: bs, ws => queueWrite seq rs region (a + 1) bs (queueByte seq rs region a b ws)

/-- The bytes that a write of a length brings; those beyond its data are already in place. -/
def reqBytes (r : HbmReq) : List (Option Byte) :=
  (r.data.take r.len).map some ++ List.replicate (r.len - r.data.length) none

/-- A write request enters the write queue. -/
def queueReq (r : HbmReq) (c : HbmPc) : HbmPc :=
  { c with writes := queueWrite c.next (entriesOf c) r.region.val r.offset (reqBytes r) c.writes, next := c.next + 1 }

/-- Drain mode follows the write queue's length (R312). -/
def drainSettle (stack : Nat) (p : Nat) (s : State) : State :=
  let c := pcOf s p
  let n := c.writes.length
  if !c.drain && fv s 9 3 stack 0 6 ≤ n then hbmCount p 8 (modPc p (fun c => { c with drain := true }) s)
  else if c.drain && n ≤ fv s 9 3 stack 8 6 then modPc p (fun c => { c with drain := false }) s
  else s

/-- A granted request enters its pseudo-channel; one in power-down or self-refresh wakes (R320). A dead
pseudo-channel answers FAULTED (R319). -/
def hbmEnter (port : Nat) (r : HbmReq) (s : State) : State :=
  let pl := reqPlace s r
  let b := placeBank pl
  let c := pcOf s pl.pc
  if c.mode = .dead then hbmAnswer port r true [] s
  else
    let s := if c.mode = .powerDown ∨ c.mode = .selfRefresh then modPc pl.pc (fun c => { c with mode := .ready }) s
             else s
    let e : HbmEntry := { port := port, req := r, seq := c.next }
    let put := fun (f : List HbmEntry → List HbmEntry) =>
      modPc pl.pc (fun c => setBank b (fun k => { k with queue := f k.queue }) { c with next := c.next + 1 }) s
    match r.kind with
    | .release => modPc pl.pc (setBank b (fun k => { k with hold := k.hold.erase r.id.toNat })) s
    | .write => drainSettle (pcStack pl.pc) pl.pc (modPc pl.pc (queueReq r) s)
    | .pairedWrite =>
      if (bankOfPc c b).hold.contains r.id.toNat then put (fun q => e :: q)
      else drainSettle (pcStack pl.pc) pl.pc (hbmCount pl.pc 5 (modPc pl.pc (queueReq r) s))
    | _ => put (fun q => q ++ [e])

/-- The first port of a class in rotation whose head may be granted in this cycle. -/
def pickPort (s : State) (stack c : Nat) (usedPcs : List Nat) (credit : Bool) : Option (Nat × HbmReq) :=
  let st := stackOf s stack
  let ports := classPorts c
  let r := st.rotPort.getD c 0
  let ordered := ports.filter (fun p => decide (r ≤ p)) ++ ports.filter (fun p => decide (p < r))
  ordered.findSome? (fun p => match kget [] st.queues p with
    | [] => none
    | q :: _ =>
      let covered := decide (((reqCost q : Nat) : Int) ≤ st.credits.getD c 0) || q.kind == .pairedWrite
      if grantable s q && !usedPcs.contains (reqPlace s q).pc && (!credit || covered) then some (p, q) else none)

/-- Classes in rotating order. -/
def classOrder (s : State) (stack : Nat) : List Nat :=
  let f := (stackOf s stack).firstClass
  let cs := (List.range 6).map (fun i => (f + i) % 6)
  if s.ctl.ready then cs else cs.filter (fun c => c == 5)

/-- One grant: port, class and request leave the queue, and the class is charged unless the grant is borrowed. -/
def grantOne (stack c port : Nat) (r : HbmReq) (borrow : Bool) (s : State) : State :=
  let cost := reqCost r
  let s := modStack stack (fun st => { st with
    queues := kmod [] st.queues port (fun q => q.drop 1)
    rotPort := setAt st.rotPort c (port + 1)
    credits := if borrow then st.credits else modAt st.credits c (fun v => v - (cost : Int))
    granted := modAt st.granted c (fun v => inc64 v cost)
    borrowed := if borrow then modAt st.borrowed c (fun v => v + 1) else st.borrowed }) s
  let s := perfEvent 0x0A01 5 r.id.toNat (r.region.val * 2 ^ 37 + r.offset % 2 ^ 37) c cost s
  hbmEnter port r (portResume port (kget [] s.hbm.stalled port) s)

/-- Up to n grants of one cycle, the classes in the order of that cycle. -/
def grantLoop (stack : Nat) (order : List Nat) : Nat → List Nat → Bool → State → State
  | 0, _, _, s => s
  | n + 1, used, first, s =>
    let pick := fun credit => order.findSome? (fun c => (pickPort s stack c used credit).map (fun e => (c, e.1, e.2)))
    let go := fun (c port : Nat) (r : HbmReq) (borrow : Bool) =>
      let s := grantOne stack c port r borrow s
      let s := if first then modStack stack (fun st => { st with firstClass := (c + 1) % 6 }) s else s
      grantLoop stack order n ((reqPlace s r).pc :: used) false s
    match pick true with
    | some (c, port, r) => go c port r false
    | none =>
      if fv s 10 2 stack 0 1 = 1 then
        match pick false with
        | some (c, port, r) => go c port r true
        | none => s
      else s

/-- HBM_GRANT: one controller cycle of an arbiter (R324). -/
def doHbmGrant (stack : Fin 6) (s : State) : State :=
  let k := stack.val
  if !domainOn s (50 + k) then s else
  let waiting := (classOrder s k).filter (fun c =>
    (pickPort s k c [] true).isNone && (pickPort s k c [] false).isSome)
  let s := waiting.foldl (fun s c =>
    perfEvent 0x0A02 5 0 k c 1
      (modStack k (fun st => { st with creditWait := modAt st.creditWait c (fun v => v + 1) }) s)) s
  grantLoop k (classOrder s k) 16 [] true s

/-! ### Commands of a pseudo-channel (R310 to R317, R321) -/

/-- A queued write reaches the stack. -/
def applyHbmWrite (w : HbmWrite) (s : State) : State :=
  w.bytes.foldl (fun s e => match e.2 with
    | some b => { s with hbm.mem := memPut s.hbm.mem (hbmKey w.region (w.line * 64 + e.1)) b }
    | none => s) s

def writePlace (s : State) (w : HbmWrite) : Place := placeOf s w.region (w.line * 64)

/-- A row is opened or hit (counters ACTIVATES, ROW_HITS). -/
def touchRow (p b row : Nat) (s : State) : State :=
  let k := bankOfPc (pcOf s p) b
  let addr := pcStack p * 32 + pcNum p
  if k.row = some row then
    perfEvent 0x0902 5 0 addr b 1 (hbmCount p 3 (modPc p (setBank b (fun k => { k with hits := k.hits + 1 })) s))
  else
    perfEvent 0x0901 5 0 addr b 1 (hbmCount p 2
      (modPc p (setBank b (fun k => { k with row := some row, hits := 0 })) s))

def issueWrite (p : Nat) (w : HbmWrite) (s : State) : State :=
  let pl := writePlace s w
  let s := touchRow p (placeBank pl) (placeRow pl) s
  let s := applyHbmWrite w (hbmCount p 1 s)
  let s := modPc p (fun c => { c with writes := c.writes.filter (fun x => x != w), aged := false }) s
  drainSettle (pcStack p) p s

/-- Bytes of a read as queued writes and the stack give them, the later write standing. -/
def readThrough (s : State) (ws : List HbmWrite) (r : HbmReq) : Bytes :=
  (List.range r.len).map (fun i =>
    let a := r.offset + i
    match ws.reverse.find? (fun w => w.region == r.region.val && w.line == a / 64 && (kfind w.bytes (a % 64)).isSome) with
    | some w => (kget none w.bytes (a % 64)).getD (memByte s.hbm.mem (hbmKey r.region.val a))
    | none => memByte s.hbm.mem (hbmKey r.region.val a))

def overlaps (r : HbmReq) (w : HbmWrite) : Bool :=
  w.region == r.region.val && w.bytes.any (fun e =>
    let a := w.line * 64 + e.1
    decide (r.offset ≤ a) && decide (a < r.offset + r.len))

def coveredBy (ws : List HbmWrite) (r : HbmReq) : Bool :=
  (List.range r.len).all (fun i =>
    let a := r.offset + i
    ws.any (fun w => w.region == r.region.val && w.line == a / 64 && (kfind w.bytes (a % 64)).isSome))

/-- A pseudo-channel issues no paired read in the last ROW_HOLD cycles before its retraining (R319). -/
def pairedShut (s : State) (p : Nat) : Bool :=
  trainsNext s p && decide ((1024 - s.clock.sub.toNat) * 12 / 10 ≤ fv s 9 2 (pcStack p) 0 8)

/-- The entry of a bank that is served next (R310, R311, R316); `shut` keeps paired reads back. -/
def bankPick (s : State) (stack : Nat) (shut : Bool) (k0 : HbmBank) : Option HbmEntry :=
  let k := if shut then { k0 with queue := k0.queue.filter (fun e => e.req.kind != .pairedRead) } else k0
  let rowOf := fun (e : HbmEntry) => placeRow (reqPlace s e.req)
  let hit := k.queue.find? (fun e => k.row == some (rowOf e))
  let miss := k.queue.find? (fun e => k.row != some (rowOf e))
  match k.queue.find? (fun e => e.req.kind == .pairedWrite) with
  | some e => some e
  | none =>
    if !k.hold.isEmpty then hit
    else match hit with
      | none => miss
      | some e => if decide (fv s 9 1 stack 8 4 ≤ k.hits) && miss.isSome then miss else some e

/-- A forced refresh goes ahead of every queued request once the hold ends (R317). -/
def refreshDueNow (k : HbmBank) : Bool := k.forced && k.hold.isEmpty

def bankCanIssue (s : State) (stack : Nat) (shut : Bool) (k : HbmBank) : Bool :=
  refreshDueNow k || (bankPick s stack shut k).isSome

def doRefresh (p b : Nat) (forced : Bool) (s : State) : State :=
  let s := hbmCount p 9 s
  let s := if forced then hbmCount p 10 s else s
  modPc p (setBank b (fun k => { k with row := none, hits := 0, forced := false,
                                        postponed := if forced then k.postponed - 1 else k.postponed })) s

/-- A postponed refresh is made up as soon as the bank is idle (R317). -/
def makeUpRefresh (p b : Nat) (s : State) : State :=
  let k := bankOfPc (pcOf s p) b
  if 0 < k.postponed && k.queue.isEmpty && k.hold.isEmpty then
    modPc p (setBank b (fun k => { k with postponed := k.postponed - 1, forced := false, row := none, hits := 0 }))
      (hbmCount p 9 s)
  else s

def removeEntry (e : HbmEntry) : List HbmEntry → List HbmEntry
  | [] => []
  | x :: xs => if x = e then xs else x :: removeEntry e xs

/-- Issue one entry of a bank. (Log: DEDUCED, log entry 50.) -/
def issueEntry (p b : Nat) (e : HbmEntry) (s : State) : State :=
  let r := e.req
  let c := pcOf s p
  let row := placeRow (reqPlace s r)
  let take := modPc p (setBank b (fun k => { k with queue := removeEntry e k.queue }))
  let older := c.writes.filter (fun w => decide (w.seq < e.seq))
  match r.kind with
  | .pairedWrite =>
    let s := hbmCount p 4 (hbmCount p 1 (touchRow p b row (take s)))
    let s := hbmWrite r.region.val r.offset (r.data.take r.len) s
    modPc p (setBank b (fun k => { k with hold := k.hold.erase r.id.toNat })) s
  | .atom op =>
    let hits := older.filter (overlaps r)
    let s := hits.foldl (fun s w => issueWrite p w s) (take s)
    let s := if hits.isEmpty then s else hbmCount p (if coveredBy hits r then 6 else 7) s
    let s := hbmCount p 1 (hbmCount p 0 (touchRow p b row s))
    let (res, s) := if r.data.isEmpty then (0, s) else hbmAtom op.val r.region.val r.offset (leNat r.data) s
    modPc p (fun c => { c with flight := c.flight ++ [{ entry := e, data := leBytes 4 res }] }) s
  | _ =>
    let paired := r.kind == .pairedRead
    let hits := older.filter (overlaps r)
    if coveredBy older r then
      let s := hbmCount p 6 (take s)
      modPc p (fun c' => { c' with flight := c'.flight ++ [{ entry := e, data := readThrough s older r }] }) s
    else
      let s := hits.foldl (fun s w => issueWrite p w s) (take s)
      let s := if hits.isEmpty then s else hbmCount p 7 s
      let s := hbmCount p 0 (touchRow p b row s)
      let s := if paired then modPc p (setBank b (fun k => { k with hold := k.hold ++ [r.id.toNat] })) s else s
      let d := hbmRead s r.region.val r.offset r.len
      modPc p (fun c => { c with flight := c.flight ++ [{ entry := e, data := d }] }) s

/-- A queued write may issue: its bank is ready, its row is not kept closed by a hold, and no older read or ATOM of its line waits
(R313, R316). -/
def writeReady (s : State) (p : Nat) (ready : List (Fin 16)) (w : HbmWrite) : Bool :=
  let pl := writePlace s w
  let c := pcOf s p
  let k := bankOfPc c (placeBank pl)
  ready.any (fun r => r.val == placeBank pl) && (k.hold.isEmpty || k.row == some (placeRow pl))
    && !(entriesOf c).any (fun e => decide (e.seq < w.seq) && readsLine e w.region w.line)

/-- HBM_COMMAND_ISSUE: a pseudo-channel picks among the banks whose next command may issue (R310, R312). -/
def doHbmCommandIssue (pc : Fin 192) (ready : List (Fin 16)) (s : State) : State :=
  let p := pc.val
  let stack := pcStack p
  let c := pcOf s p
  let isReady := fun b => ready.any (fun r => r.val == b)
  let wr := c.writes.find? (writeReady s p ready)
  let order := (List.range 16).map (fun i => (c.lastBank + 1 + i) % 16)
  let bank := order.find? (fun b => isReady b && bankCanIssue s stack (pairedShut s p) (bankOfPc c b))
  if c.mode ≠ .ready then s
  else match wr, bank with
    | some w, none => issueWrite p w s
    | some w, some b => if c.drain || c.aged then issueWrite p w s else issueBank p stack b s
    | none, some b => issueBank p stack b s
    | none, none => s
where
  issueBank (p stack b : Nat) (s : State) : State :=
    let k := bankOfPc (pcOf s p) b
    let s := modPc p (fun c => { c with lastBank := b }) s
    if refreshDueNow k then doRefresh p b true s
    else match bankPick s stack (pairedShut s p) k with
      | some e => makeUpRefresh p b (issueEntry p b e s)
      | none => s

/-- The damaged burst under a read, if there is one: region key and flips (R321, R395). -/
def hbmDamage (s : State) (pl : Place) : Option Damage :=
  match damageAt s 0x0C 1 (eccAddr pl) with
  | some d => some d
  | none => damageAt s 0x0C 2 (eccAddr pl)
where
  damageAt (s : State) (src kind addr : Nat) : Option Damage :=
    s.lod.damage.find? (fun d => d.source.toNat == src && d.kind.toNat == kind && d.addr.toNat == addr)

/-- Check a line's ECC on a read: corrected and written back, or uncorrectable (R321). The write-back is counted and takes no place in
the write queue. (Log: DEDUCED, log entry 50.) -/
def hbmCheck (pl : Place) (s : State) : Bool × State :=
  match hbmDamage s pl with
  | none => (false, s)
  | some d =>
    if decide ((List.range 64).countP (fun i => d.flip.getLsbD i) ≤ 1) then
      (false, hbmCount pl.pc 1 <| hbmCount pl.pc 11 { s with
        lod.damage := s.lod.damage.filter (fun x => x != d)
        lod.wire := s.lod.wire ++ [{ mkFault fkHBM_ECC_CORR (eccAddr pl) [] [] with injected := true }] })
    else
      (true, hbmCount pl.pc 12 { s with
        lod.wire := s.lod.wire ++ [{ mkFault fkHBM_ECC_UNCORR (eccAddr pl) [] [] with injected := true }] })

/-- HBM_READ_RETURN: the data of the oldest issued read of a pseudo-channel returns, checked (R321). (Log: DESIGN CHOICE, log entry 4.) -/
def doHbmReadReturn (pc : Fin 192) (s : State) : State :=
  match (pcOf s pc.val).flight with
  | [] => s
  | f :: rest =>
    let s := modPc pc.val (fun c => { c with flight := rest }) s
    let r := f.entry.req
    let (bad, s) := (List.range (max 1 (reqLines r))).foldl (fun (x : Bool × State) i =>
      let (b, s) := hbmCheck (placeOf x.2 r.region.val (r.offset / 64 * 64 + 64 * i)) x.2
      (x.1 || b, s)) (false, s)
    hbmAnswer f.entry.port f.entry.req bad f.data s

/-- The paired writes of the bank that the end of its oldest hold turns into ordinary writes: those whose holder keeps no other hold. -/
def lateWrite (k : HbmBank) (e : HbmEntry) : Bool :=
  e.req.kind == .pairedWrite && k.hold.head? == some e.req.id.toNat && !(k.hold.drop 1).contains e.req.id.toNat

/-- ROW_HOLD_EXPIRE: ROW_HOLD cycles have passed since the data of the read that holds the row longest left (R316). -/
def doRowHoldExpire (pc : Fin 192) (bank : Fin 16) (s : State) : State :=
  let k := bankOfPc (pcOf s pc.val) bank.val
  if k.hold.isEmpty then s
  else
    let s := modPc pc.val (setBank bank.val (fun k => { k with
      hold := k.hold.drop 1
      queue := k.queue.filter (fun e => !lateWrite k e) })) s
    let s := (k.queue.filter (lateWrite k)).foldl (fun s e => hbmCount pc.val 5 (modPc pc.val (queueReq e.req) s)) s
    makeUpRefresh pc.val bank.val (drainSettle (pcStack pc.val) pc.val s)

/-- PAGE_IDLE_CLOSE: a row closes after PAGE_IDLE cycles without a hit (R311). A held row stays open. -/
def doPageIdleClose (pc : Fin 192) (bank : Fin 16) (s : State) : State :=
  modPc pc.val (setBank bank.val (fun k => if k.hold.isEmpty then { k with row := none, hits := 0 } else k)) s

/-- WRITE_AGE_EXPIRE: the oldest write has waited WQ_AGE cycles (R312). -/
def doWriteAgeExpire (pc : Fin 192) (s : State) : State :=
  modPc pc.val (fun c => { c with aged := !c.writes.isEmpty }) s

/-- REFRESH_DUE: a bank's refresh is issued, postponed or forced (R317). A stack in self-refresh refreshes itself (R320). -/
def doRefreshDue (pc : Fin 192) (bank : Fin 16) (s : State) : State :=
  let c := pcOf s pc.val
  let k := bankOfPc c bank.val
  let hits := k.queue.any (fun e => k.row == some (placeRow (reqPlace s e.req)))
  if c.mode == .selfRefresh then s
  else if !k.hold.isEmpty || hits || k.forced || c.mode == .retraining then
    modPc pc.val (setBank bank.val (fun k =>
      let n := min 8 (k.postponed + 1)
      { k with postponed := n, forced := decide (8 ≤ n) })) s
  else doRefresh pc.val bank.val false s

/-- A pseudo-channel has no queued request, no hold and no refresh due. -/
def pcIdle (c : HbmPc) : Bool :=
  c.writes.isEmpty && c.flight.isEmpty && c.banks.all (fun b => b.2.queue.isEmpty && b.2.hold.isEmpty && b.2.postponed == 0)

/-- PD_IDLE_ENTER: an idle pseudo-channel enters power-down (R320). -/
def doPdIdleEnter (pc : Fin 192) (s : State) : State :=
  let c := pcOf s pc.val
  if c.mode = .ready ∧ pcIdle c = true ∧ fv s 9 4 (pcStack pc.val) 0 12 ≠ 0 then
    hbmCount pc.val 14 (modPc pc.val (fun c => { c with mode := .powerDown, banks := [] }) s)
  else s

/-- PATROL_SCRUB: the scrubber reads a line of a pseudo-channel and writes back a corrected one (R321). (Log: DEDUCED, log entry 50.) -/
def doPatrolScrub (pc : Fin 192) (line : BitVec 23) (s : State) : State :=
  if fv s 9 6 (pcStack pc.val) 0 8 = 0 || (pcOf s pc.val).mode == .dead then s
  else
    let pl : Place := { pc := pc.val, o := line.toNat * 64 }
    let had := (hbmDamage s pl).isSome
    match hbmCheck pl s with
    | (false, s) => if had then hbmCount pc.val 13 s else s
    | (true, s) => s

/-! ### Boundary work (R318, R319, R323) -/

/-- Step 6 of a boundary: credits under the active weights (R323). -/
def hbmRefill (s : State) : State :=
  (List.range 6).foldl (fun s k => modStack k (fun st => { st with
    credits := (List.range 6).map (fun c => hbmCredits (arbWeight s k c)) }) s) s

/-- One pseudo-channel starts its retraining: its holds end (R319). -/
def startRetrain (p : Nat) (s : State) : State :=
  if (pcOf s p).mode = .dead then s
  else modPc p (fun c => { c with mode := .retraining,
                                  banks := c.banks.map (fun b => (b.1, { b.2 with hold := [], row := none, hits := 0 })) }) s

/-- A retraining ends at a boundary (R319); `bad` says that it failed. -/
def endRetrain (bad : Bool) (p : Nat) (s : State) : State :=
  let addr := pcStack p * 2 ^ 37 + pcNum p * 2 ^ 32
  let s := hbmCount p 15 (modStack (pcStack p) (fun st => { st with lastTrain := s.clock.fix - 1 }) s)
  if bad then
    let n := (pcOf s p).trainFails + 1
    let s := raiseFault fkHBM_TRAIN_FAIL addr s
    if 3 ≤ n then raiseFault fkHBM_PC_DEAD addr (modPc p (fun c => { c with mode := .dead, trainFails := n }) s)
    else modPc p (fun c => { c with mode := .ready, trainFails := n }) s
  else modPc p (fun c => { c with mode := .ready, trainFails := 0 }) s

/-- The retrainings that end at this boundary. -/
def hbmTrainEnd (bad : List (Fin 192)) (s : State) : State :=
  ((List.range 192).filter (fun p => (pcOf s p).mode == .retraining)).foldl
    (fun s p => endRetrain (bad.any (fun b => b.val == p)) p s) s

/-- The stack temperatures are read where TIME_NS[19:10] is 0 (R318). -/
def hbmTempRead (temps : List (BitVec 8)) (s : State) : State :=
  if fixN s % 1024 ≠ 0 then s
  else (List.range 6).foldl (fun s k =>
    let t := temps.getD k (stackOf s k).temp
    let s := modStack k (fun st => { st with temp := t, doubled := decide ((85 : Int) < t.toInt) }) s
    if (95 : Int) < t.toInt then raiseFault fkHBM_TEMP_HIGH (k * 2 ^ 37 + t.toNat) s else s) s

/-- The retrainings that begin at this boundary (R319). A stack that retrains a pseudo-channel on a command takes its turn at the next
boundary. (Log: DEDUCED, log entry 50.) -/
def hbmTrainStart (s : State) : State :=
  (List.range 6).foldl (fun s k =>
    let st := stackOf s k
    let per := fv s 9 5 k 0 24
    let dt := (st.temp.toInt - st.roundTemp.toInt).natAbs
    let left := if st.trainLeft = 0 ∧ fv s 9 5 k 24 8 ≤ dt then 32 else st.trainLeft
    let due := decide (0 < left) || (per != 0 && fixN s % per == 0)
    if due && (stackPcs k).any (fun q => (pcOf s q).mode == .retraining) then modStack k (fun st => { st with trainLeft := max 1 left }) s
    else if due then
      let n := st.trainNext
      let s := startRetrain (6 * n + k) s
      modStack k (fun st => { st with
        trainNext := (n + 1) % 32
        trainLeft := left - 1
        roundTemp := if left = 1 || (n = 31 && left = 0) then st.temp else st.roundTemp }) s
    else s) s

/-! ### Commands (R330) -/

def stackByte (c : HbmPc) : Byte :=
  match c.mode with
  | .ready => 0
  | .retraining => 1
  | .powerDown => 2
  | .selfRefresh => 3
  | .dead => 4

def opHbmStatusRead : Op := readOp 0x0900 [0, 2, 3] 384 [] okArg anyTenant (fun _ s =>
  (s, outData 6 ((List.range 6).map (fun k =>
    let st := stackOf s k
    (stackPcs k).map (fun p => stackByte (pcOf s p)) ++ [st.temp, byteN (b2n st.doubled), 0, 0]
      ++ leBytes 4 st.lastTrain.toNat ++ zerosB 24)).flatten))

def opHbmStatsRead : Op := readOp 0x0901 [0, 2, 3] 768 [] okArg anyTenant (fun _ s =>
  (s, outData 6 (((List.range 6).map (fun k => ((stackOf s k).counts.map (fun c => leBytes 8 c.toNat)).flatten)).flatten)))

def opArbStatsRead : Op := readOp 0x0902 [0, 2, 3] 864 [] okArg anyTenant (fun _ s =>
  (s, outData 6 (((List.range 6).map (fun k =>
    let st := stackOf s k
    ((List.range 6).map (fun c => leBytes 8 (st.granted.getD c 0).toNat ++ leBytes 8 (st.borrowed.getD c 0).toNat
      ++ leBytes 8 (st.creditWait.getD c 0).toNat)).flatten)).flatten)))

def opHbmRegionInfo : Op := readOp 0x0903 [0, 2, 3] 80 [] okArg anyTenant (fun _ s =>
  (s, outData 5 (((List.range 5).map (fun k =>
    leBytes 4 (pcBase s.small k) ++ leBytes 4 (pcSpan s.small k) ++ [byteN (grainLog s k)] ++ zerosB 7)).flatten)))

/-- Log: DEDUCED, log entry 27. -/
def retrainArg (_ : State) (p : CmdPkt) : Nat := argIf (decide (par p 16 1 ≤ 5) && decide (par p 17 1 ≤ 31))

def retrainClaims (_ : State) (p : CmdPkt) : List Obj := [oid 9 0x100 (par p 16 1 * 32 + par p 17 1)]

/-- HBM_RETRAIN: retrains the pseudo-channel during the Fix after its boundary; the outcome is known at the next
boundary. -/
def opHbmRetrain : Op :=
  { code := 0x0904, rings := [0, 3], dir := .none, used := [(16, 1), (17, 1)], isRead := false, isMulti := true,
    inert := false, arg := retrainArg, tenant := anyTenant, claims := retrainClaims,
    touch := fun _ _ => [([0, grp 4 9], true)],
    body := fun p bufs s =>
      let k := par p 16 1
      let pc := 6 * par p 17 1 + k
      if (stackPcs k).any (fun q => (pcOf s q).mode == .retraining) then (s, .done (outErrAt stBUSY 0))
      else if (pcOf s pc).mode = .dead then (s, .done (outErrAt stFAULTED 0))
      else (startRetrain pc s, .multi
        { slot := freeSlot s, code := 0x0904, p := p, count := 1, limit := 2, units := 0, lastFix := s.clock.fix,
          pos := pc, aux := [fixN s, (pcOf s pc).trainFails], bufs := bufs }) }

end Sys2Proof.Machine
end

