-- ==== Sys2Proof/Machine/Keccak.lean ====
section
/-! DEFINITION. SHAKE256 with a 64-byte output (FIPS 202), which the billing chain (R338), images and keys use. The constants are
computed as the standard defines them: the rotation of a lane from its place on the walk of the step ρ, the round words from the
register of the step ι. -/

namespace Sys2Proof.Machine

open Sys2Proof

/-- The sponge's 25 lanes of 64 bits; lane (x, y) stands at 5y + x. -/
abbrev Lanes := List Nat

/-- A lane turned towards its high bits. -/
def turn (v : Nat) (n : Fin 64) : Nat := v * 2 ^ n.val % 2 ^ 64 + v / 2 ^ (64 - n.val)

/-- The step of the walk on which ρ and π place the lanes: from (x, y) to (y, 2x + 3y). -/
def walkStep (p : Nat) : Nat := 5 * ((2 * (p % 5) + 3 * (p / 5)) % 5) + p / 5

/-- θ: each lane takes the parities of the columns beside it. -/
def mixColumns (a : Lanes) : Lanes :=
  let parity := fun (x : Nat) => (a.zipIdx.filter (fun e => e.2 % 5 == x % 5)).foldl (fun v e => v ^^^ e.1) 0
  let effect := [0, 1, 2, 3, 4].map (fun x => parity (x + 4) ^^^ turn (parity (x + 1)) 1)
  a.zipIdx.map (fun e => e.1 ^^^ effect.getD (e.2 % 5) 0)

/-- ρ and π along the walk from (1, 0): the lane at the n-th place, turned by n(n + 1)/2, goes to the place after it. -/
def scatter (a : Lanes) : Nat → Nat → Nat → Lanes → Lanes
  | 0, _, _, out => out
  | left + 1, n, p, out =>
    scatter a left (n + 1) (walkStep p) (setAt out (walkStep p) (turn (a.getD p 0) (Fin.ofNat 64 (n * (n + 1) / 2))))

/-- χ on one row of five lanes: a bit changes where its neighbour is 0 and the next is 1. -/
def nonlinear (row : Lanes) : Lanes :=
  match row with
  | [v, w, x, y, z] =>
    let g := fun (p q r : Nat) => p ^^^ (q ^^^ (2 ^ 64 - 1)) &&& r
    [g v w x, g w x y, g x y z, g y z v, g z v w]
  | _ => row

/-- The shift register of ι: x⁸ + x⁶ + x⁵ + x⁴ + 1. -/
def registerStep (r : Nat) : Nat := if r < 128 then 2 * r else (2 * r) ^^^ 0x171

/-- The next round word, whose bits 2^j − 1 come from the register in turn, and the register after it. -/
def roundWord (r : Nat) : Nat × Nat :=
  [0, 1, 3, 7, 15, 31, 63].foldl (fun e k => (e.1 + (e.2 % 2) * 2 ^ k, registerStep e.2)) (0, r)

/-- Rounds of the permutation, with the register as it stands. -/
def permute : Nat → Nat → Lanes → Lanes
  | 0, _, a => a
  | left + 1, r, a =>
    let t := mixColumns a
    let b := scatter t 24 1 1 t
    let rows := [0, 5, 10, 15, 20].flatMap (fun i => nonlinear ((b.drop i).take 5))
    match rows, roundWord r with
    | first :: others, (w, r') => permute left r' ((first ^^^ w) :: others)
    | [], _ => a

/-- The rate in bytes. -/
def shakeRate : Nat := 136

/-- The message's bytes meet the sponge a block at a time; the last block, shorter than the rate, carries the suffix 0x1F and the
final bit. -/
def absorb : Nat → Bytes → Lanes → Lanes
  | 0, _, a => a
  | left + 1, m, a =>
    let last := decide (m.length < shakeRate)
    let n := leAt (m.take shakeRate) 0 shakeRate + (if last then 0x1F * 256 ^ m.length else 0)
    let n := if last then n ^^^ 2 ^ (8 * shakeRate - 1) else n
    let a := permute 24 1 (a.zipIdx.map (fun e => e.1 ^^^ n / 2 ^ (64 * e.2) % 2 ^ 64))
    if last then a else absorb left (m.drop shakeRate) a

/-- SHAKE256 with a 64-byte output. -/
def shake256 (m : Bytes) : Bytes :=
  ((absorb (m.length / shakeRate + 1) m (List.replicate 25 0)).take 8).flatMap (leBytes 8)

end Sys2Proof.Machine
end

