-- ==== Sys2Proof/Machine/Metering.lean ====
section
/-! DEFINITION. Per-minute metering and the billing chain (chapter 14). -/

namespace Sys2Proof.Machine

open Sys2Proof

/-! ### Updates (R333 to R337) -/

def epKey (bank : Bool) (e : Nat) : Nat := b2n bank * 2 ^ 18 + e
def epBank (s : State) (bank : Bool) (e : Nat) : EpBank := kget epBankReset s.met.eps (epKey bank e)

/-- Offset in region 2 of the accumulator of counter i (Table 14.2). -/
def accOff (bank : Bool) (e i : Nat) : Nat := b2n bank * 2 ^ 24 + e * 64 + 8 * i

def accVal (s : State) (bank : Bool) (e i : Nat) : Nat := leNat (hbmRead s 2 (accOff bank e i) 8)

/-- The true count: accumulator plus residue (R335). -/
def epCount (s : State) (bank : Bool) (e i : Nat) : Nat := accVal s bank e i + (epBank s bank e).residue.getD i 0

/-- The bank of an event Fix (R28): before M the closing bank, as long as it is not sealed. -/
def eventBank (s : State) (fix : Nat) : Bool :=
  match s.met.closing with
  | none => s.met.bank
  | some c => if 2 ^ 21 ≤ fixSub fix c.fixM.toNat then !s.met.bank else s.met.bank

def modEp (bank : Bool) (e : Nat) (f : EpBank → EpBank) (s : State) : State :=
  { s with met.eps := kmod epBankReset s.met.eps (epKey bank e) f }

/-- A counter of a bank fails uncorrectably: it is taken as zero, and the record is marked (R337). -/
def meterEccUncorr (bank : Bool) (e : Nat) (s : State) : State :=
  modEp bank e (fun b => { b with err := true, residue := [0, 0, 0, 0, 0, 0] }) s

def fkMETER_CORR : FaultKind := (0x0F, 1, 3)
def fkMETER_UNCORR : FaultKind := (0x0F, 2, 2)

/-- The on-die word of an endpoint's bank is used (R335, R337). -/
def epWord (bank : Bool) (e : Nat) (s : State) : State :=
  let (bad, s) := useWord fkMETER_CORR fkMETER_UNCORR (epKey bank e) s
  if bad then meterEccUncorr bank e (clearDamage 0x0F 1 (epKey bank e) (clearDamage 0x0F 2 (epKey bank e) s)) else s

/-- The accumulator line of an endpoint's bank is read or changed in HBM: where it is FAULTED, its counters are taken as zero and the
record is marked (R337). -/
def accLine (bank : Bool) (e : Nat) (s : State) : State :=
  let (bad, s) := hbmCheck (placeOf s 2 (accOff bank e 0)) s
  if bad then raiseFault fkMETER_UNCORR (epKey bank e)
    (modEp bank e (fun b => { b with err := true }) (hbmWrite 2 (accOff bank e 0) (zerosB 64) s))
  else s

/-- A request of metering: port 36 (Table 13.4). -/
def meterReq (kind : HbmKind) (a n : Nat) (s : State) : State := hbmPresent 36 (plainReq 0x270 kind 2 a n) s

/-- Add n to counter i of an endpoint's bank, spilling when its top bit becomes set (R335). -/
def epAdd (bank : Bool) (e i n : Nat) (s : State) : State :=
  let top := if i % 2 = 0 then 2 ^ 19 else 2 ^ 23
  let r := (epBank s bank e).residue.getD i 0 + n
  let put := fun v s => modEp bank e (fun b => { b with residue := setAt b.residue i v }) s
  if top ≤ r then
    let s := meterReq (.atom 0) (accOff bank e i) 8 (accLine bank e (put (r - top) s))
    let (_, s) := hbmAtom 0 2 (accOff bank e i) top s
    { s with met.spills := s.met.spills + 1 }
  else put r s

/-- An update of kind k (0 ING, 1 POL, 2 EG) with its event Fix (R333). -/
def meterUpdate (k : Nat) (epSet : Bool) (e tenant octets fix : Nat) (s : State) : State :=
  if !domainOn s 62 then s else
  if !epSet || fv s 12 1 e 0 1 = 0 then { s with met.unmetered := s.met.unmetered + 1 }
  else if fv s 12 2 e 0 24 ≠ tenant then
    let s := { s with met.mismatch := s.met.mismatch + 1 }
    if s.met.mismatched then s
    else raiseFault fkMETER_TENANT_MISMATCH (e + tenant % 2 ^ 22 * 2 ^ 18) { s with met.mismatched := true }
  else if epFrozen s e then { s with met.frozenDiscarded := s.met.frozenDiscarded + 1 }
  else
    let bank := eventBank s fix
    perfEvent 0x0C01 5 0 e k 1 (epAdd bank e (2 * k + 1) octets (epAdd bank e (2 * k) 1 (epWord bank e s)))

/-- A Class 1 state begins or widens: the endpoints in scope are marked in the active bank's minute (R337). -/
def meterFreeze (eps : List Nat) (all : Bool) (s : State) : State :=
  if s.met.bank then { s with met.frozen1 := eps ++ s.met.frozen1, met.allFrozen1 := s.met.allFrozen1 || all }
  else { s with met.frozen0 := eps ++ s.met.frozen0, met.allFrozen0 := s.met.allFrozen0 || all }

/-- Endpoints that a Class 1 state freezes now. -/
def frozenNow (s : State) : List Nat := ((class1On s).map (fun e => e.endpoints)).flatten

/-! ### The flip and the seal (R28 to R31, R336) -/

/-- Endpoints with EP_VALID 1, with their tenants. -/
def validEps (s : State) : List (Nat × Nat) :=
  (s.ctl.cfg.filter (fun e => objSub e.1 == 12 && objFld e.1 == 1 && e.2.toNat % 2 == 1)).map
    (fun e => (objIdx e.1, fv s 12 2 (objIdx e.1) 0 24))

/-- MER_SYNC state as the register gives it, with the UTC-valid bit in [7]. -/
def syncByte (s : State) : Nat :=
  (match s.mer.sync with
   | .freerun => 0
   | .acquire => 1
   | .locked => 2
   | .holdover => 3) + b2n s.mer.utcValid * 128

/-- The minute action flips every endpoint's active bank at boundary M (R28). A closing bank that is still open is
sealed by its own event first; two flips in three boundaries cannot come from minutes. -/
def meterFlip (fixM : FixNo) (minute lenS : Nat) (stepped late : Bool) (s : State) : State :=
  let nb := !s.met.bank
  let c : Closing := { fixM := fixM, minute := minute, lenS := lenS, stepped := stepped, late := late,
                       sync := syncByte s, valid := validEps s, age := 0 }
  let s := { s with met.bank := nb, met.closing := some c }
  let s := if nb then { s with met.frozen1 := [], met.allFrozen1 := false }
           else { s with met.frozen0 := [], met.allFrozen0 := false }
  meterFreeze (frozenNow s) s.lod.grave s

def bankEps (s : State) (bank : Bool) : List Nat :=
  let onDie := (s.met.eps.filter (fun e => decide (e.1 / 2 ^ 18 = b2n bank))).map (fun e => e.1 % 2 ^ 18)
  let lo := hbmKey 2 (accOff bank 0 0)
  let acc := (s.hbm.mem.filter (fun c => decide (lo ≤ c.1) && decide (c.1 < lo + 2 ^ 24))).map (fun c => (c.1 - lo) / 64)
  onDie ++ acc

/-- Endpoints of the closed block in ascending order (R336). -/
def blockEps (s : State) (bank : Bool) (c : Closing) : List Nat :=
  let hot := (bankEps s bank).filter (fun e => (List.range 6).any (fun i => epCount s bank e i != 0))
  sortBy id (dedupN (c.valid.map (fun v => v.1) ++ hot))

/-- A billing record (Table 14.4). -/
def recordBytes (s : State) (bank : Bool) (c : Closing) (e : Nat) : Bytes :=
  let valid := c.valid.find? (fun v => v.1 == e)
  let tenant := match valid with
    | some v => v.2
    | none => fv s 12 2 e 0 24
  let frozen := if bank then s.met.allFrozen1 || s.met.frozen1.contains e else s.met.allFrozen0 || s.met.frozen0.contains e
  let err := (epBank s bank e).err
  let flags := b2n (frozen || err) + 2 * b2n frozen + 4 * b2n err + 8 * b2n valid.isNone
  let cnt := fun i => leBytes 8 (epCount s bank e i)
  leBytes 4 e ++ leBytes 3 tenant ++ [byteN flags] ++ cnt 0 ++ cnt 1 ++ cnt 4 ++ cnt 5 ++ cnt 2 ++ cnt 3 ++ zerosB 8

/-- The block header (Table 14.3). -/
def headerBytes (_ : State) (c : Closing) (records : Nat) (prev : Nat) (genesis resumed : Bool) : Bytes :=
  leBytes 8 c.minute ++ leBytes 8 prev ++ leBytes 4 c.fixM.toNat ++ leBytes 4 records ++ [byteN c.sync]
    ++ [byteN (b2n genesis + 2 * b2n resumed + 4 * b2n c.stepped + 8 * b2n c.late)] ++ leBytes 2 c.lenS ++ zerosB 4
    ++ uniqueIdB ++ zerosB 16

/-- Staging offset of a minute's records (Table 14.2). -/
def stageOff (minute : Nat) : Nat := 0x2000000 + minute % 2 * 0x1000000

/-- A seal that needs a slot with an undelivered part discards it (R341). -/
def overrun (minute : Nat) (s : State) : State :=
  (s.met.staged.filter (fun b => b.minute % 2 == minute % 2)).foldl (fun s b =>
    let s := if b.delivery = .done ∨ b.delivery = .lost then s
      else raiseFault fkBILL_OVERRUN (b.minute % 2 ^ 40)
        { s with met.billLost := inc64 s.met.billLost (b.records - (b.sent - 1)) }
    { s with met.staged := s.met.staged.map (fun x => if x.minute = b.minute then { x with delivery :=
        if x.delivery = .done then .done else .lost } else x) }) s

/-- METER_SEAL: at M+2 the closing bank is sealed and the block staged (R29, R336). The accumulators and the bank are
zeroed with the seal (R30: before M + 58,594). -/
def doMeterSeal (s : State) : State :=
  match s.met.closing with
  | none => s
  | some c =>
    if c.age < 2 then s
    else
      let bank := !s.met.bank
      let s := (blockEps s bank c).foldl (fun s e => meterReq .read (accOff bank e 0) 64 (accLine bank e (epWord bank e s))) s
      let eps := blockEps s bank c
      let recs := eps.map (recordBytes s bank c)
      let newest := s.met.ckpts.head?
      let genesis := s.met.first && newest.isNone
      let resumed := s.met.first && newest.isSome
      let prevMin := if s.met.first then (match newest with
          | some k => k.minute
          | none => 2 ^ 64 - 1)
        else s.met.lastMinute.getD (2 ^ 64 - 1)
      let prevHead := if s.met.first then (match newest with
          | some k => k.head
          | none => zerosB 64)
        else s.met.lastHead.getD (zerosB 64)
      let h := headerBytes s c eps.length prevMin genesis resumed
      let s := overrun c.minute s
      let s := (List.range eps.length).foldl (fun s i => meterReq .write (stageOff c.minute + 64 * i) 64 s)
        (hbmWrite 2 (stageOff c.minute) recs.flatten s)
      let b : Block := { minute := c.minute, header := h, records := eps.length, prevHead := prevHead, head := none,
                         delivery := .pending, sent := 0, ckpt := false, late := false, age := c.age }
      let lo := hbmKey 2 (accOff bank 0 0)
      let s := eps.foldl (fun s e => meterReq .write (accOff bank e 0) 64 s) s
      { s with
        met.staged := s.met.staged ++ [b]
        met.closing := none
        met.eps := s.met.eps.filter (fun e => decide (e.1 / 2 ^ 18 ≠ b2n bank))
        hbm.mem := s.hbm.mem.filter (fun k => !(decide (lo ≤ k.1) && decide (k.1 < lo + 2 ^ 24)))
        met.lastMinute := some c.minute
        met.lastHead := none
        met.first := false
        met.blocksClosed := s.met.blocksClosed + 1 }

def updBlock (minute : Nat) (f : Block → Block) (s : State) : State :=
  { s with met.staged := s.met.staged.map (fun b => if b.minute = minute then f b else b) }

/-- The records of a staged block. -/
def stagedRecords (s : State) (b : Block) (first n : Nat) : Bytes :=
  hbmRead s 2 (stageOff b.minute + first * 64) (n * 64)

/-- A block that is checkpointed and whose slot a later block has taken. -/
def slotGone (s : State) (b : Block) : Bool :=
  b.ckpt && s.met.staged.any (fun x => decide (b.minute < x.minute) && x.minute % 2 == b.minute % 2)

/-- Forget blocks whose slot a later block has taken, once they are hashed and checkpointed: what remains known of them is
their delivery (R343). (Log: DEDUCED, log entry 51.) -/
def pruneStaged (s : State) : State :=
  let gone := (s.met.staged.filter (slotGone s)).map (fun b => (b.minute, b.delivery, b.sent - 1))
  { s with met.staged := s.met.staged.filter (fun b => !slotGone s b), met.ended := (gone ++ s.met.ended).take 4096 }

/-- The hash of the oldest block that has none (R338): the chain head; blocks are hashed in the order of their seals.
Answers the block's minute and head, for the peer (R356). -/
def nextHash (s : State) : Option (Nat × Bytes) :=
  match s.met.staged.find? (fun b => b.head.isNone) with
  | none => none
  | some b =>
    let prev := match s.met.staged.reverse.find? (fun x => decide (x.minute < b.minute) && x.head.isSome
        && decide (leAt b.header 8 8 = x.minute)) with
      | some x => x.head.getD b.prevHead
      | none => b.prevHead
    some (b.minute, shake256 (prev ++ b.header ++ stagedRecords s b 0 b.records))

/-- The head is known: the trailer may follow, and the next block chains from it. -/
def setHead (minute : Nat) (head : Bytes) (s : State) : State :=
  let s := updBlock minute (fun b => { b with head := some head }) s
  if s.met.lastMinute = some minute then { s with met.lastHead := some head } else s

/-- CKPT_WRITE_DONE: the checkpoint of the oldest hashed block without one is complete (R339). -/
def doCkptWriteDone (s : State) : State :=
  match s.met.staged.find? (fun b => b.head.isSome && !b.ckpt) with
  | none => s
  | some b =>
    let k : Ckpt := { minute := b.minute, fixM := leAt b.header 16 4, records := b.records, flags := leAt b.header 25 1,
                      head := b.head.getD [] }
    pruneStaged (updBlock b.minute (fun x => { x with ckpt := true })
      { s with met.ckpts := (k :: s.met.ckpts).take 4096, met.ckptsWritten := s.met.ckptsWritten + 1 })

/-- CKPT_LATE: a checkpoint is not complete by M + 97,657 (R339). -/
def doCkptLate (s : State) : State :=
  match s.met.staged.find? (fun b => !b.ckpt && !b.late && decide (97657 ≤ b.age)) with
  | none => s
  | some b => raiseFault fkCKPT_LATE (b.minute % 2 ^ 40) (updBlock b.minute (fun x => { x with late := true }) s)

/-! ### Host rings (R267, R268, R340) -/

/-- Write one slot of a host ring. -/
def slotWrite (r : HostRing) (size : Nat) (bs : Bytes) : HostRing × HostWrite :=
  ({ r with tail := (r.tail + 1) % 2 ^ r.sizeLog2, wrote := true },
   .mem (BitVec.ofNat 64 (r.base.toNat + r.tail * size)) (padTo size bs))

/-- Shadow word, then MSI-X, of a ring that was written in the Fix (R268). -/
def ringShadow (r : HostRing) (s : State) : State :=
  if r.wrote then
    let s := if r.shadow = 0 then s else hostMem r.shadow.toNat (leBytes 4 r.tail) s
    if r.irq.toNat < 64 then sendMsix (BitVec.ofNat 6 r.irq.toNat) s else s
  else s

/-- The head word read at a boundary (R268). -/
def ringHead (w : Option U32) (r : HostRing) : HostRing :=
  if r.enable then
    match w with
    | none => r
    | some v =>
      let h := v.toNat % 2 ^ 20
      if 2 ^ r.sizeLog2 ≤ h then r else { r with head := h }
  else r

/-- CAPTURE_RING_SET's operands on a ring (R267); BILL_RING_SET and MON_RING_SET have the same. (Log: DEDUCED, log entry 52.) -/
def ringSetArg (maxRing : Nat) (p : CmdPkt) : Bool :=
  decide (par p 16 1 ≤ maxRing) && decide (par p 17 1 ≤ 1) && decide (10 ≤ par p 18 1) && decide (par p 18 1 ≤ 20)
    && (decide (par p 19 1 < 64) || par p 19 1 == 0xFF) && par p 24 8 % 4096 == 0 && par p 32 8 % 8 == 0
    && par p 32 8 != 0 && par p 40 8 % 8 == 0

/-- A ring as set: enabled from tail 0 and head 0, or disabled. None where an enabled ring is enabled again. -/
def ringSet (p : CmdPkt) (r : HostRing) : Option HostRing :=
  if par p 17 1 = 1 then
    (if r.enable then none
     else some { enable := true, sizeLog2 := par p 18 1, irq := byteN (par p 19 1), base := BitVec.ofNat 64 (par p 24 8),
                 headAddr := BitVec.ofNat 64 (par p 32 8), shadow := BitVec.ofNat 64 (par p 40 8), tail := 0, head := 0,
                 wrote := false })
  else some { r with enable := false }

def ringUsed : List (Nat × Nat) := [(16, 4), (24, 24)]

/-- The ring is enabled: a block not fully delivered when it was disabled starts again with its header (R341). -/
def billRestart (s : State) : State :=
  { s with met.staged := s.met.staged.map (fun b =>
      if b.delivery = .inProgress then { b with delivery := .pending, sent := 0 } else b) }

/-- Deliver slots of one block while room and rate last: header, records, trailer (R340). With the Sounding of the Fix they stay
within max(SOUND_RATE, BILL_RATE) units (R266). -/
def billSlots (minute : Nat) : Nat → State → State
  | 0, s => s
  | n + 1, s =>
    match s.met.staged.find? (fun b => b.minute == minute) with
    | none => s
    | some b =>
      let slot : Option Bytes :=
        if b.sent = 0 then some b.header
        else if b.sent ≤ b.records then (if s.met.rateLeft = 0 then none else some (stagedRecords s b (b.sent - 1) 1))
        else b.head
      let units := max (fv s 6 0xB 0 16 7) (fv s 12 3 0 0 7)
      if ringFree s.met.ring = 0 || decide (units ≤ s.met.slotsUsed + s.sw.soundUnits) then s
      else match slot with
        | none => s
        | some bs =>
          let (r, w) := slotWrite s.met.ring 64 bs
          let isRec := decide (1 ≤ b.sent) && decide (b.sent ≤ b.records)
          let last := decide (b.records < b.sent)
          let s := hostOut w { s with
            met.ring := r
            met.slotsUsed := s.met.slotsUsed + 1
            met.rateLeft := if isRec then s.met.rateLeft - 1 else s.met.rateLeft }
          let s := updBlock minute (fun b => { b with sent := b.sent + 1, delivery := if last then .done else .inProgress }) s
          if last then s else billSlots minute n s

/-- BILL_RING_DELIVER: blocks are delivered in minute order (R340). -/
def doBillRingDeliver (s : State) : State :=
  let go := fun (s : State) =>
    match s.met.staged.find? (fun b => b.delivery == .pending || b.delivery == .inProgress) with
    | none => s
    | some b => billSlots b.minute (b.records + 2) s
  if domainOn s 62 then pruneStaged (go (go s)) else s

/-! ### Commands (R343, R344) -/

def opMeterStatsRead : Op := readOp 0x0A00 [0, 2, 3] 64 [] okArg anyTenant (fun _ s =>
  (s, outData 64 (([s.met.unmetered, s.met.mismatch, s.met.frozenDiscarded, s.met.spills, s.met.blocksClosed,
    s.met.billLost, s.met.ckptsWritten, 0].map (fun c => leBytes 8 c.toNat)).flatten)))

/-- The block or checkpoint that a MINUTE parameter names: 0 is the latest closed minute (R343). -/
def closedMinute (s : State) (m : Nat) : Option Nat :=
  if m = 0 then (match s.met.lastMinute with
    | some x => some x
    | none => (s.met.ckpts.head?).map (fun k => k.minute))
  else if s.met.ckpts.any (fun k => k.minute == m) then some m else none

def deliveryByte (d : Delivery) : Byte :=
  match d with
  | .pending => 0
  | .inProgress => 1
  | .done => 2
  | .lost => 3

/-- A block of a minute that is still staged, a discarded one included until its checkpoint is written. -/
def stagedBlock (s : State) (m : Nat) : Option Block := s.met.staged.find? (fun b => b.minute == m)

/-- Log: DEDUCED, log entry 51. -/
def closeInfo (s : State) (m : Nat) : Option Bytes :=
  match closedMinute s m with
  | none => none
  | some x =>
    match stagedBlock s x with
    | some b =>
      some (b.header ++ padTo 64 (b.head.getD []) ++ [deliveryByte b.delivery, byteN (b2n b.ckpt), 0, 0]
        ++ leBytes 4 (min b.records (b.sent - 1)) ++ zerosB 24)
    | none =>
      match s.met.ckpts.find? (fun k => k.minute == x) with
      | none => none
      | some k =>
        let h := leBytes 8 k.minute ++ zerosB 8 ++ leBytes 4 k.fixM ++ leBytes 4 k.records ++ [0, byteN k.flags] ++ zerosB 38
        let d := s.met.ended.find? (fun e => e.1 == x)
        some (h ++ padTo 64 k.head ++ [((d.map (fun e => deliveryByte e.2.1)).getD 0xFF), 1, 0, 0]
          ++ leBytes 4 (min k.records ((d.map (fun e => e.2.2)).getD 0)) ++ zerosB 24)

def opMeterCloseInfo : Op := readOp 0x0A01 [0, 1, 2, 3] 160 [(16, 8)] okArg anyTenant (fun p s =>
  match closeInfo s (par p 16 8) with
  | some d => (s, outData 160 d)
  | none => (s, outErr stNOTFOUND))

/-- "SUEVO-BS" (R344). -/
def ctxBS : Bytes := asciiB [83, 85, 69, 86, 79, 45, 66, 83]

/-- The head and header figures of a closed minute: FIX_M, RECORDS, HEAD. -/
def minuteHead (s : State) (m : Nat) : Option (Nat × Nat × Bytes) :=
  match s.met.ckpts.find? (fun k => k.minute == m) with
  | some k => some (k.fixM, k.records, k.head)
  | none => match stagedBlock s m with
    | some b => b.head.map (fun h => (leAt b.header 16 4, b.records, h))
    | none => none

/-- Log: DEDUCED, log entry 51. -/
def signBody (p : CmdPkt) (s : State) : State × CmdOut :=
  if s.lod.factory then (s, outErr stDENIED)
  else match closedMinute s (par p 16 8) with
    | none => (s, outErr stNOTFOUND)
    | some m => match minuteHead s m with
      | none => (s, outErr stNOTFOUND)
      | some (fixM, recs, head) =>
        let st := leBytes 8 m ++ leBytes 4 fixM ++ leBytes 4 recs ++ padTo 64 head ++ leBytes 16 (par p 24 16)
          ++ uniqueIdB ++ zerosB 16
        let sig := padTo 114 (Config.signIdentity (ctxBS ++ uniqueIdB) st)
        (s, outData (m % 2 ^ 32) (st ++ sig ++ zerosB 14))

/-- BILLING_SIGN and ATTEST share one signing slot (R429). -/
def signBusy (s : State) : Bool := s.ctl.multi.any (fun m => m.code == 0x0A02 || m.code == 0x0E01)

/-- A signing command takes its snapshot at its first boundary, holds the slot, and ends at its next step; one
that does not start has RESULT 0 (R80). (Log: DEDUCED, log entry 51.) -/
def signStart (code : Nat) (body : CmdPkt → State → State × CmdOut) (p : CmdPkt) (bufs : List Nat) (s : State) :
    State × Reply :=
  if signBusy s then (s, .done (outErrAt stBUSY 0))
  else
    match body p s with
    | (s, o) =>
      if o.status ≠ 0 then (s, .done (outErrAt o.status 0))
      else
        let m : Multi := { slot := freeSlot s, code := code, p := p, count := 1, limit := 4096, units := 0,
                           lastFix := s.clock.fix, pos := o.data.length, aux := [o.result, leNat o.data], bufs := bufs }
        (s, .multi m)

/-- Log: DEDUCED, log entry 51. -/
def signUnit (m : Multi) (s : State) : State × MStep :=
  (s, .fin (outData (m.aux.headD 0) (leBytes m.pos (m.aux.getD 1 0))))

/-- BILLING_SIGN (R344), for the rings of Table 14.8: ring 3 is not among them. (Log: DEDUCED, log entry 90.) -/
def opBillingSign : Op :=
  { readOp 0x0A02 [0, 2] 256 [(16, 8), (24, 16)] okArg anyTenant signBody with
    isRead := false, isMulti := true, body := signStart 0x0A02 signBody }

/-- Log: DEDUCED, log entry 52. -/
def opBillRingSet : Op :=
  actOp 0x0A03 [0] .none ringUsed (fun _ p => argIf (ringSetArg 0 p)) (fun _ _ => [oid 12 0x100 0]) (fun p s =>
    match ringSet p s.met.ring with
    | none => (s, outErr stBUSY)
    | some r =>
      let t := { s with met.ring := r }
      (if r.enable then billRestart t else t, outOk 0))

/-- BILL_BLOCK_READ, for the rings of Table 14.8: ring 3 is not among them. (Log: DEDUCED, log entry 90.) -/
def opBillBlockRead : Op := readOp 0x0A04 [0, 2] 64 [(16, 16)]
  (fun _ p => argIf (decide (1 ≤ par p 28 4) && decide (par p 28 4 ≤ 16384) && decide (par p 28 4 * 64 ≤ p.paramLen.toNat)))
  anyTenant (fun p s =>
    match (closedMinute s (par p 16 8)).bind (stagedBlock s) with
    | none => (s, outErr stNOTFOUND)
    | some b =>
      if b.delivery = .lost then (s, outErr stNOTFOUND)
      else
        let n := min (par p 28 4) (b.records - par p 24 4)
        (s, outData n (stagedRecords s b (par p 24 4) n)))

end Sys2Proof.Machine
end

