-- ==== Sys2Proof/Machine/Cells.lean ====
section
/-! DEFINITION. The shared buffer: cell accounting, admission, continuation cells, XOFF, and what becomes known of a copy
or frame when it leaves (chapter 10). -/

namespace Sys2Proof.Machine

open Sys2Proof

/-! ### Sizes (R241, R242) -/

/-- Sum of a field over the objects that are not at reset; the reset value of the field is 0. -/
def sumField (s : State) (sub fld lo w : Nat) : Nat :=
  (s.ctl.cfg.filter (fun e => objSub e.1 == sub && objFld e.1 == fld)).foldl (fun a e => a + bitsOf e.2.toNat lo w) 0

def qmin (s : State) (q : Nat) : Nat := fv s 6 4 q 0 12

/-- SHARED (Table 10.1). A commit keeps it at 65,536 or more. -/
def sharedSize (s : State) : Nat := 393216 - 49152 - sumField s 6 4 0 12 - sumField s 6 7 32 16

def contReserve (s : State) : Nat := fv s 6 1 0 0 16

def cellsOf (n : Nat) : Nat := (n + 255) / 256

/-! ### Queues -/

def queueOf (s : State) (q : Nat) : QueueState := kget queueReset s.sw.queues q
def modQueue (q : Nat) (f : QueueState → QueueState) (s : State) : State :=
  { s with sw.queues := kmod queueReset s.sw.queues q f }

/-- Cells that a queue's copies hold. -/
def queueDepth (k : QueueState) : Nat := k.g + k.sh + k.hd

def modScPort (p : Nat) (f : ScPort → ScPort) (s : State) : State :=
  { s with sw.portCnt := kmod scPortReset s.sw.portCnt p f }

/-- A port counter of Table 4.4 that the switch core keeps for the MAC. -/
def modCnt (p : Nat) (f : PortCounts → PortCounts) (s : State) : State :=
  { s with ports := kmod portReset s.ports p (fun k => { k with cnt := f k.cnt }) }

/-! ### Port priorities (R248 to R250) -/

def pauseMode (s : State) (p : Nat) : Nat := fv s 1 7 p 0 2

/-- The port priority of a frame: under PAUSE_MODE 0b01 every TC counts as priority 0. -/
def pgOf (s : State) (port tc : Nat) : Nat := port * 8 + (if pauseMode s port = 1 then 0 else tc)

/-- R248. -/
def lossless (s : State) (port tc : Nat) : Bool :=
  (pauseMode s port == 2 && (fv s 1 7 port 16 8).testBit tc) || (pauseMode s port == 1 && fv s 6 7 (port * 8) 0 16 != 0)

def prioOf (s : State) (pg : Nat) : PrioState := kget prioReset s.sw.prio pg
def pgXoff (s : State) (pg : Nat) : Nat := fv s 6 7 pg 0 16
def pgXon (s : State) (pg : Nat) : Nat := fv s 6 7 pg 16 16
def pgHdrm (s : State) (pg : Nat) : Nat := fv s 6 7 pg 32 16

/-- Priorities of a port that its pause frames may name: the TX mask under PFC, priority 0 under PAUSE. -/
def pauseMask (s : State) (p : Nat) : Nat :=
  if pauseMode s p = 2 then fv s 1 7 p 16 8 else if pauseMode s p = 1 then 1 else 0

/-- XOFF is evaluated at every grant and every release (R250). PG_XOFF 0 sets no threshold. A transition is due to be sent where
the port's pause frames name the priority. -/
def xoffEval (pg : Nat) (s : State) : State :=
  let k := prioOf s pg
  let x := pgXoff s pg
  let named := (pauseMask s (pg / 8)).testBit (pg % 8)
  if !k.xoff && x ≠ 0 && decide (x ≤ k.used) then
    { s with sw.prio := kset prioReset s.sw.prio pg { k with xoff := true, due := named } }
  else if k.xoff && decide (k.used ≤ pgXon s pg) && k.hdrm == 0 then
    { s with sw.prio := kset prioReset s.sw.prio pg { k with xoff := false, due := named } }
  else s

/-- Shared-pool and headroom cells of a port priority change by amounts added and removed. -/
def pgAdd (pg used hd : Nat) (s : State) : State :=
  xoffEval pg { s with sw.prio := kmod prioReset s.sw.prio pg (fun k => { k with used := k.used + used, hdrm := k.hdrm + hd }) }

def pgSub (pg used hd : Nat) (s : State) : State :=
  xoffEval pg { s with sw.prio := kmod prioReset s.sw.prio pg (fun k => { k with used := k.used - used, hdrm := k.hdrm - hd }) }

/-- The smallest free count of the shared pool in the window of R261. -/
def noteFree (s : State) : State := { s with sw.minFree := min s.sw.minFree (sharedSize s - s.sw.shared) }

/-! ### Charging a copy (R244, R245, R249) -/

/-- Charge a copy's cells to its queue and to the parts that hold them. -/
def chargeCopy (q pg g sh hd : Nat) (s : State) : State :=
  let s := modQueue q (fun k =>
    let d := k.g + k.sh + k.hd + g + sh + hd
    { k with g := k.g + g, sh := k.sh + sh, hd := k.hd + hd, depthMax := max k.depthMax d }) s
  noteFree (pgAdd pg sh hd { s with sw.shared := s.sw.shared + sh })

/-- Give a copy's cells back to the parts they were charged to (R247). -/
def refundCopy (q pg g sh hd : Nat) (s : State) : State :=
  let s := modQueue q (fun k => { k with g := k.g - g, sh := k.sh - sh, hd := k.hd - hd }) s
  pgSub pg sh hd { s with sw.shared := s.sw.shared - sh }

/-- ALPHA_EXP of a queue's class as a signed number. -/
def alphaExp (s : State) (q : Nat) : Int := signedOf 3 (fv s 6 2 (fv s 6 5 q 0 3) 0 3)

/-- S(q) + n ≤ α × (SHARED − U), exact in integers (R244). -/
def alphaOk (s : State) (q n : Nat) : Bool :=
  let e := alphaExp s q
  let free := sharedSize s - s.sw.shared
  let l := (queueOf s q).sh + n
  if 0 ≤ e then decide (l ≤ free * 2 ^ e.toNat) else decide (l * 2 ^ (-e).toNat ≤ free)

/-- The first test of R244, step 3, and of R249 and R260. -/
def reserveOk (s : State) (n : Nat) : Bool := decide (s.sw.shared + n ≤ sharedSize s - contReserve s)

/-- The outcome of admission for one copy: charges, or the refusal. -/
inductive Admit where
  | ok (g sh hd : Nat)
  | unassigned
  | down
  | alpha
  | headroom
deriving DecidableEq, Repr

/-- Admission of a unicast copy of c cells to queue q (R244, R249). -/
def admitUnicast (s : State) (q pg c : Nat) (ll : Bool) : Admit :=
  match queuePort s q with
  | none => .unassigned
  | some p =>
    if portRefuses s p then .down
    else
      let g := min c (qmin s q - (queueOf s q).g)
      let n := c - g
      if ll then
        let k := prioOf s pg
        if !k.xoff && reserveOk s n then .ok g n 0
        else if n ≤ pgHdrm s pg - k.hdrm then .ok g 0 n
        else .headroom
      else if reserveOk s n && alphaOk s q n then .ok g n 0
      else .alpha

/-- Admission of one copy of a multicast frame (R260): steps 1 and 3 of R244, with C counted towards S(q). -/
def admitMulticast (s : State) (q c : Nat) : Admit :=
  match queuePort s q with
  | none => .unassigned
  | some p =>
    if portRefuses s p then .down
    else if reserveOk s c && alphaOk s q c then .ok 0 c 0 else .alpha

/-- One continuation cell (R245): from the guarantee, the shared pool, the headroom of a lossless frame. -/
def contGrant (s : State) (q pg : Nat) (ll : Bool) : Option (Nat × Nat × Nat) :=
  if (queueOf s q).g < qmin s q then some (1, 0, 0)
  else if s.sw.shared < sharedSize s then some (0, 1, 0)
  else if ll && decide ((prioOf s pg).hdrm < pgHdrm s pg) then some (0, 0, 1)
  else none

/-! ### Logline (R262, R263) -/

/-- A Logline entry without its GAP flag (Table 10.6). -/
def logEntry (k : Pkt) (egTs egPort fate : Nat) : Bytes :=
  padTo 128 k.rx ++ leBytes 4 k.ingTs.toNat ++ leBytes 4 egTs ++ leBytes 3 (pget k bTENANT) ++ [byteN k.port, byteN egPort,
    byteN (fate + pget k bTC * 16)] ++ leBytes 2 (rxLen k % 2 ^ 14 + pget k bPASS * 2 ^ 14)

/-- The entry finds room on die, in the overflow ring, or is dropped before DMA (R263). -/
def logStore (pipe : Nat) (e : Bytes) (s : State) : State :=
  let p := pipeState s pipe
  let lose := fun (s : State) => modPipe pipe (fun p => { p with logDropFull := p.logDropFull + 1, gap := true }) s
  if p.ovf.isEmpty && decide (p.log.length < 8192) then modPipe pipe (fun p => { p with log := p.log ++ [e] }) s
  else if fv s 6 0xA pipe 2 1 = 0 then lose s
  else
    let put := fun (s : State) => modPipe pipe (fun p => { p with ovf := p.ovf ++ [e], logOvf := p.logOvf + 1 }) s
    if p.ovf.length < 56 * p.blocks.length then put s
    else match poolTake (0x230 + pipe) (4 + pipe) 6 s with
      | (some r, s) => put (modPipe pipe (fun p => { p with blocks := p.blocks ++ [r] }) s)
      | (none, s) => lose s

/-- Write a Logline entry for a copy or frame whose fate is known: at most one in 8 cycles of 2/3 ns (R262). -/
def logFate (k : Pkt) (egTs egPort fate : Nat) (s : State) : State :=
  let pipe := pipeOf k.port
  if !(pget k bMARKS).testBit 0 || fv s 6 0xA pipe 0 1 = 0 || (decide (2 ≤ fate) && fv s 6 0xA pipe 1 1 == 0) then s
  else
    let now := monoNs s * 3 + s.sw.cycle * 2
    let tooSoon := match (pipeState s pipe).logLast with
      | some t => decide (now - t < 16)
      | none => false
    if tooSoon then modPipe pipe (fun p => { p with logDropRate := p.logDropRate + 1, gap := true }) s
    else logStore pipe (logEntry k egTs egPort fate) (modPipe pipe (fun p => { p with logLast := some now }) s)

/-! ### Monarch records (R440 to R442) -/

def monRecord (k : Pkt) (r : MonRec) (gap : Bool) (egPort fate queue : Nat) : Bytes :=
  leBytes 4 r.tagId.toNat ++ leBytes 4 r.ingTs.toNat ++ leBytes 3 (pget k bTENANT) ++ [byteN k.port]
    ++ leBytes 4 (pget k bFLOW_HANDLE) ++ leBytes 2 (pget k bFLOW_GEN) ++ leBytes 2 (rxLen k % 2 ^ 14)
    ++ [byteN egPort, byteN (fate + b2n gap * 16 + b2n r.byMark * 32), byteN r.points.length, 0]
    ++ leBytes 4 (queue + pget k bTC * 2 ^ 17) ++ leBytes 4 (pget k bENDPOINT)
    ++ padTo 96 ((r.points.map (fun w => leBytes 4 w.toNat)).flatten)

/-- The record of a tagged packet leaves its store when the packet's fate is known. -/
def monFinish (h : Nat) (k : Pkt) (egPort fate queue : Nat) (s : State) : State :=
  if !k.monarch then s
  else
    let pipe := pipeOf k.port
    match (s.perf.store.getD pipe []).find? (fun r => r.pkt == h) with
    | none => s
    | some r =>
      let s := { s with perf.store := modAt s.perf.store pipe (fun rs => rs.filter (fun x => x.pkt != h)) }
      if 256 ≤ s.perf.fifo.length then
        { s with perf.monLost := s.perf.monLost + 1, perf.gap := setAt s.perf.gap pipe true }
      else
        { s with perf.fifo := s.perf.fifo ++ [monRecord k r (s.perf.gap.getD pipe false) egPort fate queue],
                 perf.gap := setAt s.perf.gap pipe false }

/-- A fate of a copy: Logline, and the Monarch record where this copy carries it. -/
def fateKnown (h : Nat) (k : Pkt) (mon : Bool) (egTs egPort fate queue : Nat) (s : State) : State :=
  let s := logFate k egTs egPort fate s
  if mon then monFinish h k (if 2 ≤ fate && fate ≤ 3 || fate = 7 then 0xFF else egPort) fate queue s else s

/-! ### Leaving the device -/

/-- The packet leaves its epoch's count (R181). -/
def epochLeave (k : Pkt) (s : State) : State :=
  match k.epoch with
  | none => s
  | some e => { s with sw.epochCount := modAt s.sw.epochCount e (fun n => n - 1) }

/-- The rest of a frame is dropped as it arrives (R243). The MAC still counts the frame when it is whole (R101). -/
def skipRest (k : Pkt) (s : State) : State :=
  { s with sw.rx := kdel s.sw.rx k.port, sw.rxSkip := k.port :: s.sw.rxSkip, sw.rxRest := kput s.sw.rxRest k.port k }

/-- A packet's cells go back to the part that holds them, its buffers are freed, and it leaves the device. A frame still
arriving is dropped as it arrives. -/
def freePkt (h : Nat) (k : Pkt) (s : State) : State :=
  let pipe := pipeOf k.port
  let s := match k.part with
    | .staging => modPipe pipe (fun p => { p with staging := p.staging - k.cells }) s
    | .allowance => modPipe pipe (fun p => { p with allowance := p.allowance - k.cells }) s
    | .queues => if k.multicast then pgSub k.pg k.cells 0 { s with sw.shared := s.sw.shared - k.cells } else s
  let s := k.bufs.foldl (fun s r => poolRelease r s) s
  let s := epochLeave k (uncount k s)
  let s := if kfind s.sw.rx k.port = some h then skipRest k s else s
  let s := { s with perf.store := modAt s.perf.store pipe (fun rs => rs.filter (fun x => x.pkt != h)) }
  dropPkt h s

/-- One copy of a packet is gone: its charges are refunded, and with the last one the packet's cells are freed (R247). -/
def releaseCopy (c : Copy) (s : State) : State :=
  match pktOf s c.pkt with
  | none => s
  | some k =>
    let s := if k.multicast then modQueue c.queue (fun q => { q with sh := q.sh - c.sh }) s
             else refundCopy c.queue k.pg c.g c.sh c.hd s
    let k := { k with refs := k.refs - 1 }
    if k.refs = 0 then freePkt c.pkt k s else putPkt c.pkt k s

/-- Count a discard at the end of a pass by its reason (R142). -/
def countReason (pipe reason : Nat) (s : State) : State :=
  modPipeCnt pipe (fun c =>
    if reason = 0x80 then { c with parseDrop := c.parseDrop + 1 }
    else if reason = 0x81 then { c with passDrop := c.passDrop + 1 }
    else if reason = 0x82 then { c with pmDrop := c.pmDrop + 1 }
    else if reason = 0x83 then { c with integrityDrop := c.integrityDrop + 1 }
    else if reason < 0x80 then { c with actionDrop := c.actionDrop + 1 }
    else c) s

/-! ### Ingress counters (Table 14.1) -/

/-- ING is counted once per frame; a frame still arriving is counted when its tail is in. -/
def ingMeter (k : Pkt) (s : State) : Pkt × State :=
  if k.ingMet = 2 then (k, s)
  else if k.tail = .open then ({ k with ingMet := 1 }, s)
  else
    ({ k with ingMet := 2 },
     meterUpdate 0 (pget k bEP_SET == 1) (pget k bENDPOINT) (pget k bTENANT) k.rx.length (bitsOf k.ingTs.toNat 10 22) s)

/-- A frame whose first pass is held up behind stage 5 is counted at the end of the Fix that follows its ingress (R334). -/
def ingDeadline (s : State) : State :=
  (s.sw.pkts.filter (fun e => e.2.ingMet == 0
      && (e.2.stage == .stage6 || e.2.stage == .lookup || e.2.stage == .chained || e.2.stage == .answered)
      && decide (2 ≤ fixSub (fixN s) (bitsOf e.2.ingTs.toNat 10 22))
      && decide (fixSub (fixN s) (bitsOf e.2.ingTs.toNat 10 22) < 2 ^ 21))).foldl
    (fun s e => let r := ingMeter e.2 s; putPkt e.1 r.1 r.2) s

end Sys2Proof.Machine
end

