-- ==== Sys2Proof/Machine/Admission.lean ====
section
/-! DEFINITION. Frames arriving, the end of stage 12, policing, admission, multicast replication and Sounding samples
(chapters 10 and 11). -/

namespace Sys2Proof.Machine

open Sys2Proof

/-! ### Timestamps (R112, Table 5.4) -/

/-- Receive and transmit corrections of a mode in ps. -/
def rxCorrPs (mode : Nat) : Nat := [118400, 137200, 171500, 318000, 212400, 46800].getD mode 0
def txCorrPs (mode : Nat) : Nat := [42600, 49800, 61300, 96500, 88100, 40200].getD mode 0

/-- A timestamp in 1/16 ns, from the MAC's time in the Fix in progress and a signed correction in ps. -/
def stampSub (s : State) (t16 : BitVec 14) (ps : Int) : BitVec 36 :=
  BitVec.ofInt 36 ((fixN s * 16384 + t16.toNat : Nat) + 2 * ps / 125)

def ingressStamp (s : State) (port : Nat) (t16 : BitVec 14) : BitVec 36 :=
  stampSub s t16 (-(rxCorrPs (portMode s port) : Int) - signedOf 16 (fv s 11 8 port 0 16))

def egressStamp (s : State) (port : Nat) (t16 : BitVec 14) : BitVec 36 :=
  stampSub s t16 ((txCorrPs (portMode s port) : Int) + signedOf 16 (fv s 11 8 port 16 16))

/-- The event happens at a time given in 1/16 ns. -/
def at16 (t16 : BitVec 14) (s : State) : State := atNs (BitVec.ofNat 10 (t16.toNat / 16)) s

/-! ### Reception (R17, R98, R243, R245) -/

/-- The frame's good tail: last four bytes are the CRC-32 of the rest. -/
def fcsGood (bs : Bytes) : Bool :=
  decide (4 ≤ bs.length) && leNat (bs.drop (bs.length - 4)) == crc32 (bs.take (bs.length - 4))

def maxFrame (s : State) (port : Nat) : Nat := fv s 1 6 port 0 14

/-- The copies of a packet that wait in queues. -/
def waitingCopies (s : State) (h : Nat) : List (Nat × Copy) :=
  (s.sw.queues.map (fun e => (e.2.copies.filter (fun c => c.pkt == h)).map (fun c => (e.1, c)))).flatten

/-- Change the copies of a packet, in queues and on the wire. -/
def mapCopies (h : Nat) (f : Copy → Copy) (s : State) : State :=
  { s with
    sw.queues := s.sw.queues.map (fun e => (e.1, { e.2 with copies := e.2.copies.map (fun c => if c.pkt = h then f c else c) }))
    sw.tx := s.sw.tx.map (fun e => (e.1, if e.2.copy.pkt = h then { e.2 with copy := f e.2.copy } else e.2)) }

def remCopy (c : Copy) : List Copy → List Copy
  | [] => []
  | x :: xs => if x = c then xs else x :: remCopy c xs

/-- The bytes that a copy on the wire ends after: the smaller of an earlier end and n (R255). -/
def txCut (n : Nat) (t : TxState) : TxState :=
  { t with cut := match t.cut with
      | some m => some (min m n)
      | none => some n }

/-- Copies of a packet on the wire end after n bytes of the frame, stomped. -/
def stompTx (h n : Nat) (s : State) : State :=
  { s with sw.tx := s.sw.tx.map (fun e => if e.2.copy.pkt = h then (e.1, txCut n e.2) else e) }

/-! ### Heads of queues (R253) -/

/-- A copy whose tail has been found bad before its start (R253). -/
def copyBad (s : State) (c : Copy) : Bool :=
  match pktOf s c.pkt with
  | none => true
  | some k => k.tail == .fcs || k.tail == .oversize || k.tail == .truncated

/-- The new head of a queue has reached its place (Table 19.2). -/
def headNow (q : Nat) (s : State) : State :=
  match (queueOf s q).copies with
  | [] => s
  | c :: _ =>
    if c.first then (match pktOf s c.pkt with
      | some k => monPoint c.pkt 9 k s
      | none => s)
    else s

/-- Discard the head of a queue with a counter and a fate. -/
def discardHead (q fate : Nat) (count : Nat → State → State) (s : State) : State :=
  match (queueOf s q).copies with
  | [] => s
  | c :: rest =>
    let p := (queuePort s q).getD 0
    let s := count p (modQueue q (fun k => { k with copies := rest }) s)
    let s := match pktOf s c.pkt with
      | some k => fateKnown c.pkt k c.first 0 p fate q s
      | none => s
    headNow q (releaseCopy c s)

/-- Bad copies at the head are removed without a selection (R253, R277), and so are copies whose tenant's drain has ended
(R377). -/
def purgeHead (q : Nat) : Nat → State → State
  | 0, s => s
  | n + 1, s =>
    match (queueOf s q).copies with
    | [] => s
    | c :: _ =>
      if copyBad s c then
        purgeHead q n (discardHead q 6 (fun p => modScPort p (fun k => { k with badDiscard := k.badDiscard + 1 })) s)
      else if c.expired then
        purgeHead q n (discardHead q 4 (fun p => modScPort p (fun k => { k with flushDrop := k.flushDrop + 1 })) s)
      else s

/-- A copy has left the head of a queue: the next one reaches it, and is discarded there if it is bad (R253). -/
def newHead (q : Nat) (s : State) : State :=
  let s := headNow q s
  purgeHead q (queueOf s q).copies.length s

/-! ### Continuation cells (R245) -/

/-- A frame that finds no continuation cell after k cells (R245): a copy whose head has left is stomped, any other is discarded
whole and counted in BAD_DISCARD as well (R255). A multicast frame that has no copies yet is discarded by the replicator. -/
def contFail (h k : Nat) (s : State) : State :=
  let waiting := waitingCopies s h
  let onWire := (s.sw.tx.filter (fun e => e.2.copy.pkt == h)).map (fun e => e.1)
  let s := stompTx h (256 * k) (onWire.foldl (fun s p => modScPort p (fun c => { c with contFail := c.contFail + 1 }) s) s)
  let s := match pktOf s h with
    | none => s
    | some p => skipRest p s
  let s := match pktOf s h with
    | none => s
    | some p => putPkt h { p with tail := .truncated, coming := [], ingMet := 2, starved := p.stage == .replicate } s
  waiting.foldl (fun s e =>
    let port := (queuePort s e.1).getD 0
    let s := modScPort port (fun c => { c with contFail := c.contFail + 1, badDiscard := c.badDiscard + 1 }) s
    let s := match pktOf s h with
      | none => s
      | some p => fateKnown h p e.2.first 0 port 8 e.1 s
    let t := releaseCopy e.2 (modQueue e.1 (fun q => { q with copies := remCopy e.2 q.copies }) s)
    if (queueOf s e.1).copies.head? = some e.2 then newHead e.1 t else t) s

/-- One more cell of an admitted frame (R245, R260). -/
def contCell (h : Nat) (k : Pkt) (s : State) : State :=
  if k.multicast then
    if s.sw.shared < sharedSize s then
      let s := pgAdd k.pg 1 0 { s with sw.shared := s.sw.shared + 1 }
      let qs := (waitingCopies s h).map (fun e => e.1) ++ (s.sw.tx.filter (fun e => e.2.copy.pkt == h)).map (fun e => e.2.copy.queue)
      let s := qs.foldl (fun s q => modQueue q (fun u => { u with sh := u.sh + 1, depthMax := max u.depthMax (u.g + u.sh + u.hd + 1) }) s) s
      noteFree (putPkt h { k with cells := k.cells + 1 } (mapCopies h (fun c => { c with sh := c.sh + 1 }) s))
    else contFail h k.cells s
  else
    match ((waitingCopies s h).map (fun e => e.1) ++ (s.sw.tx.filter (fun e => e.2.copy.pkt == h)).map (fun e => e.2.copy.queue)) with
    | [] => s
    | q :: _ =>
      match contGrant s q k.pg (lossless s k.port (pget k bTC)) with
      | none => contFail h k.cells s
      | some (g, sh, hd) =>
        let s := chargeCopy q k.pg g sh hd s
        putPkt h { k with cells := k.cells + 1 }
          (mapCopies h (fun c => { c with g := c.g + g, sh := c.sh + sh, hd := c.hd + hd }) s)

/-- A frame is given up before admission: its cells are freed and the rest is dropped on arrival. -/
def giveUp (h : Nat) (k : Pkt) (s : State) : State := freePkt h k s

/-- The next cell of a frame takes a place in the part that holds the frame (R243, R245, R251). -/
def takeCell (h : Nat) (k : Pkt) (s : State) : State :=
  let pipe := pipeOf k.port
  match k.part with
  | .staging =>
    if 8192 ≤ (pipeState s pipe).staging then
      giveUp h k (modPipe pipe (fun p => { p with stageDrop := p.stageDrop + 1 }) s)
    else putPkt h { k with cells := k.cells + 1 } (modPipe pipe (fun p => { p with staging := p.staging + 1 }) s)
  | .allowance =>
    if 4096 ≤ (pipeState s pipe).allowance then
      giveUp h k (modPipe pipe (fun p => if k.wasHeld then { p with holdNobuf := p.holdNobuf + 1 }
                                         else { p with recircNobuf := p.recircNobuf + 1 }) s)
    else putPkt h { k with cells := k.cells + 1 } (modPipe pipe (fun p => { p with allowance := p.allowance + 1 }) s)
  | .queues => contCell h k (putPkt h k s)

/-- The tail of a frame is bad or cut: copies on the wire are stomped at n bytes (R253, R255). Copies that have not
started are discarded when they are at the head of their queue. -/
def badTail (h : Nat) (t : TailState) (n : Nat) (s : State) : State :=
  match pktOf s h with
  | none => s
  | some k =>
    let k := { k with tail := t, coming := [] }
    let (k, s) := if k.ingMet = 1 then ingMeter k s else (k, s)
    (waitingCopies s h).foldl (fun s e => purgeHead e.1 (queueOf s e.1).copies.length s) (stompTx h n (putPkt h k s))

/-- Packets released from their flows enter the recirculation FIFO in arrival order, each once it is whole (R18, R251). -/
def reenterLoop (pipe : Nat) : List Nat → State → State
  | [], s => modPipe pipe (fun p => { p with reentry := [] }) s
  | h :: hs, s =>
    match pktOf s h with
    | none => reenterLoop pipe hs s
    | some k =>
      if isWhole k then reenterLoop pipe hs (modPipe pipe (fun p => { p with recirc := p.recirc ++ [h] }) s)
      else modPipe pipe (fun p => { p with reentry := h :: hs }) s

def reenterSettle (pipe : Nat) (s : State) : State := reenterLoop pipe (pipeState s pipe).reentry s

/-- A frame that waits to be whole enters the recirculation FIFO (R251). -/
def recircPush (h : Nat) (k : Pkt) (s : State) : State :=
  let s := if k.stage = .answered && k.wasHeld then reenterSettle (pipeOf k.port) s else s
  if k.stage = .recirc && k.tail != .open then
    let s := monPoint h 5 k s
    modPipe (pipeOf k.port) (fun p => if p.recirc.contains h then p else { p with recirc := p.recirc ++ [h] }) s
  else s

/-- Up to 256 bytes of the frame arrive in the cell that they have taken; a frame longer than PORT_MAX_FRAME is cut
there (R98). (Log: DEDUCED, log entry 47.) -/
def takeBytes (h : Nat) (s : State) : State :=
  match pktOf s h with
  | none => s
  | some k =>
    let bs := k.coming.take 256
    let room := k.maxLen - k.rx.length
    if room < bs.length then
      let k := { k with rx := k.rx ++ bs.take room, tx := k.tx ++ bs.take room, coming := [] }
      let s := modCnt k.port (fun c => { c with rxOversize := c.rxOversize + 1 }) (putPkt h k s)
      let s := { s with sw.rx := kdel s.sw.rx k.port, sw.rxSkip := k.port :: s.sw.rxSkip }
      let s := badTail h .oversize k.rx.length s
      match pktOf s h with
      | some k => recircPush h k s
      | none => s
    else putPkt h { k with rx := k.rx ++ bs, tx := k.tx ++ bs, coming := k.coming.drop 256 } s

/-- FRAME_RECEIVE_START: a frame begins at a port in UP at MAC time t16 (1/16 ns); `frame` is what the wire will bring.
In Roost and Cocoon, and with the ingress FIFO full, it is dropped (R17, R399). (Log: DEDUCED, log entry 47.) -/
def doFrameReceiveStart (port : Fin 128) (t16 : BitVec 14) (frame : Bytes) (fifoFull : Bool) (s : State) : State :=
  let s := at16 t16 s
  let p := port.val
  if !isPort s p || (portOf s p).st != .up || (kfind s.sw.rx p).isSome || s.sw.rxSkip.contains p
      || !domainOn s (56 + p / 32) then s
  else
  let s := if (ptpHeader frame).isSome then s else { s with pwr.rxAge := 0 }
  if asleep s || fifoFull || !domainOn s (pipeOf p) || !domainOn s (44 + pipeOf p) then
    let s := if asleep s && (fv s 18 (3 + p / 64) 0 (p % 64) 1 == 1) then orderExit s else s
    { modCnt p (fun c => { c with rxOverrun := c.rxOverrun + 1 }) (stickPort p 4 s) with sw.rxSkip := p :: s.sw.rxSkip }
  else
    let pipe := pipeOf p
    if 8192 ≤ (pipeState s pipe).staging then
      skipRest { pktReset p (ingressStamp s p t16) with coming := frame, maxLen := maxFrame s p }
        (modPipe pipe (fun k => { k with stageDrop := k.stageDrop + 1 }) s)
    else
      let h := s.sw.nextPkt
      let k := { pktReset p (ingressStamp s p t16) with coming := frame, cells := 1, maxLen := maxFrame s p }
      let s := modPipe pipe (fun k => { k with staging := k.staging + 1 })
        { s with sw.nextPkt := h + 1, sw.rx := kput s.sw.rx p h }
      takeBytes h (putPkt h k s)

/-- The rest of a frame that has been discarded is over, with its last bytes in `k`: what the MAC and metering still
count of it (R101, Table 14.1). (Log: DEDUCED, log entry 47.) -/
def restOver (t : TailState) (count : PortCounts → PortCounts) (k : Pkt) (s : State) : State :=
  let s := modCnt k.port count { s with sw.rxRest := kdel s.sw.rxRest k.port }
  if k.ingMet = 1 then (ingMeter { k with tail := t } s).2 else s

/-- Up to 256 bytes of the rest of a discarded frame arrive. -/
def restBytes (k : Pkt) (s : State) : State :=
  let room := k.maxLen - k.rx.length
  let k' := { k with rx := k.rx ++ k.coming.take (min 256 room), coming := k.coming.drop 256 }
  if room < (k.coming.take 256).length then restOver .oversize (fun c => { c with rxOversize := c.rxOversize + 1 }) k' s
  else { s with sw.rxRest := kput s.sw.rxRest k.port k' }

/-- FRAME_CELL_ARRIVE: the next cell of the frame in reception at a port (R243, R245). (Log: DESIGN CHOICE, log entry 4; DEDUCED, log entry 47.) -/
def doFrameCellArrive (port : Fin 128) (s : State) : State :=
  match kfind s.sw.rx port.val with
  | none =>
    (match kfind s.sw.rxRest port.val with
     | some k => if k.coming.isEmpty then s else restBytes k s
     | none => s)
  | some h =>
    match pktOf s h with
    | none => s
    | some k => if k.coming.isEmpty then s else takeBytes h (takeCell h k s)

/-- The frame is whole or cut: counted, and its copies learn of a bad tail. -/
def frameEnd (h : Nat) (k : Pkt) (bad : Bool) (s : State) : State :=
  let p := k.port
  let s := { s with sw.rx := kdel s.sw.rx p }
  if k.rx.length < 64 then
    giveUp h { k with coming := [] } (modCnt p (fun c => { c with rxRunt := c.rxRunt + 1 }) s)
  else if bad || !fcsGood k.rx then
    let s := modCnt p (fun c => { c with rxFcsErr := c.rxFcsErr + 1 }) s
    let s := badTail h .fcs k.rx.length (putPkt h k s)
    match pktOf s h with
    | some k => recircPush h k s
    | none => s
  else
    let s := modCnt p (fun c => { c with rxFrames := c.rxFrames + 1, rxOctets := inc64 c.rxOctets k.rx.length }) s
    let s := perfEvent 0x0101 5 0 p (if k.stage = .admitted ∨ k.stage = .stage12 then pget k bTC else 0) 1 s
    let k := { k with tail := .good }
    let (k, s) := if k.ingMet = 1 then ingMeter k s else (k, s)
    recircPush h k (putPkt h k s)

/-- The codewords of a report are counted (Table 4.4), and MAC_STICKY shows that one was not correctable. (Log: DEDUCED, log entry 29.) -/
def codewordCount (p : Nat) (r : PcsReport) (s : State) : State :=
  let s := modCnt p (fun c => { c with
    fecCorr := inc64 c.fecCorr r.corrected.toNat
    fecUncorr := inc64 c.fecUncorr r.uncorrectable.toNat
    fecSymbol := inc64 c.fecSymbol r.symbols.toNat }) s
  if r.uncorrectable != 0 then stickPort p 3 s else s

/-- The tail of a discarded frame arrives. -/
def restEnd (k : Pkt) (bad : Bool) (s : State) : State :=
  let s := { s with sw.rxSkip := s.sw.rxSkip.filter (fun x => x != k.port) }
  if k.rx.length < 64 then restOver .good (fun c => { c with rxRunt := c.rxRunt + 1 }) k s
  else if bad || !fcsGood k.rx then restOver .fcs (fun c => { c with rxFcsErr := c.rxFcsErr + 1 }) k s
  else restOver .good (fun c => { c with rxFrames := c.rxFrames + 1, rxOctets := inc64 c.rxOctets k.rx.length }) k
    (perfEvent 0x0101 5 0 k.port (if k.ingMet = 0 then 0 else pget k bTC) 1 s)

/-- FRAME_RECEIVE_END: the tail arrives, with what the PCS reports of the codewords since the last report (R98). -/
def doFrameReceiveEnd (port : Fin 128) (pcs : PcsReport) (s : State) : State :=
  let p := port.val
  let bad := pcs.uncorrectable != 0
  match kfind s.sw.rx p with
  | none =>
    (match kfind s.sw.rxRest p with
     | some k => if k.coming.isEmpty then restEnd k bad (codewordCount p pcs s) else s
     | none => if s.sw.rxSkip.contains p then
         codewordCount p pcs { s with sw.rxSkip := s.sw.rxSkip.filter (fun x => x != p) } else s)
  | some h =>
    match pktOf s h with
    | none => { s with sw.rx := kdel s.sw.rx p }
    | some k => if k.coming.isEmpty then frameEnd h k bad (codewordCount p pcs s) else s

/-- A frame in reception is truncated by a loss or by DISABLED (R97). -/
def truncateRx (p : Nat) (s : State) : State :=
  let s := { s with sw.rxSkip := s.sw.rxSkip.filter (fun x => x != p) }
  match kfind s.sw.rx p with
  | none =>
    (match kfind s.sw.rxRest p with
     | some k => restOver .truncated (fun c => { c with rxFcsErr := c.rxFcsErr + 1 }) k s
     | none => s)
  | some h =>
    let s := { modCnt p (fun c => { c with rxFcsErr := c.rxFcsErr + 1 }) s with sw.rx := kdel s.sw.rx p }
    match pktOf s h with
    | none => s
    | some k =>
      let s := badTail h .truncated k.rx.length s
      match pktOf s h with
      | some k => recircPush h k s
      | none => s

/-! ### Sounding (R265, R266) -/

def soundLen (s : State) (p : Nat) : Nat := 64 * (fv s 6 9 p 26 2 + 1)

/-- The sampler of a port: the candidate counts down, and is sampled at zero. (Log: DEDUCED, log entry 36.) -/
def sound (k : Pkt) (queue outcome : Nat) (s : State) : State :=
  let p := k.port
  if fv s 6 9 p 0 1 = 0 || !(fv s 6 9 p 1 1 == 1 || (pget k bMARKS).testBit 1) then s
  else
    let m := kget samplerReset s.sw.samplers p
    let m := { m with count := m.count - 1, skip := m.skip + 1 }
    let put := fun (m : Sampler) (s : State) => { s with sw.samplers := kset samplerReset s.sw.samplers p m }
    if 0 < m.count then put m s
    else
      let n := fv s 6 9 p 2 24 + 1
      let reload := (randomDraw s).toNat % (2 * n - 1) + 1
      let s := advanceDraws 1 { s with sw.soundSamples := s.sw.soundSamples + 1 }
      let r := s.sw.rings.getD 4 hostRingReset
      if 2048 ≤ s.sw.soundFifo.length || !r.enable then
        put { count := reload, skip := 0, lost := min (2 ^ 32 - 1) (m.lost + 1) } { s with sw.soundLost := s.sw.soundLost + 1 }
      else
        let cap := min (rxLen k) (soundLen s p)
        let d := leBytes 4 k.ingTs.toNat ++ leBytes 4 (pget k bFLOW_HANDLE) ++ leBytes 3 (pget k bTENANT) ++ [byteN p]
          ++ leBytes 2 (rxLen k % 2 ^ 14) ++ leBytes 2 cap
          ++ leBytes 4 (queue % 2 ^ 17 + pget k bTC * 2 ^ 17 + outcome * 2 ^ 20)
          ++ leBytes 4 m.skip ++ leBytes 4 m.lost ++ leBytes 4 (pget k bENDPOINT)
        put { count := reload, skip := 0, lost := 0 } { s with sw.soundFifo := s.sw.soundFifo ++ [(p, d ++ padTo cap k.rx)] }

/-! ### The end of stage 12 (R142, R251, R244) -/

/-- A discard at the end of a pass: Logline fate 2 and Sounding outcome 4. -/
def discardEnd (h : Nat) (k : Pkt) (reason : Nat) (s : State) : State :=
  let k := pset bDROP_REASON reason k
  let s := sound k (if pget k bDEST_KIND = 2 then pget k bDEST else 0) 4 s
  let s := fateKnown h k true 0 reason 2 0 s
  freePkt h k s

/-- Forwarding mode of a copy, fixed at admission (Table 10.2). -/
def isCutThrough (s : State) (inPort outPort tc : Nat) : Bool :=
  portProfile s outPort == 2 || ((fv s 6 6 outPort 0 8).testBit tc && decide (portMbps s outPort ≤ portMbps s inPort))

def enqueue (q : Nat) (c : Copy) (s : State) : State :=
  let first := (queueOf s q).copies.isEmpty
  let s := modQueue q (fun k => { k with copies := k.copies ++ [c] }) s
  if first && c.first then
    (match pktOf s c.pkt with
     | some k => monPoint c.pkt 9 k s
     | none => s)
  else s

def mkCopy (s : State) (h q g sh hd outPort : Nat) (k : Pkt) (first : Bool) : Copy :=
  { pkt := h, queue := q, g := g, sh := sh, hd := hd, cutThrough := isCutThrough s k.port outPort (pget k bTC),
    admitted := BitVec.ofNat 32 (timeNs s), tc := pget k bTC, expired := false, first := first }

/-- Count a refused copy (R244, R249, R274); answers the Logline fate and the Sounding outcome. -/
def countRefusal (a : Admit) (q inPort : Nat) (s : State) : (Nat × Nat) × State :=
  let port := (queuePort s q).getD 0
  let cls := fv s 6 5 q 0 3
  let note := fun (s : State) => { s with sw.refusedClasses := if s.sw.refusedClasses.contains cls then s.sw.refusedClasses
                                                                else cls :: s.sw.refusedClasses }
  match a with
  | .ok _ _ _ => ((0, 0), s)
  | .unassigned => ((7, 3), { s with sw.unassigned := s.sw.unassigned + 1 })
  | .down => ((7, 3), modScPort port (fun c => { c with downDrop := c.downDrop + 1 }) s)
  | .alpha => ((3, 1), note (modScPort port (fun c => { c with admitDrop := c.admitDrop + 1 }) s))
  | .headroom => ((3, 2), note (modScPort inPort (fun c => { c with hdrmDrop := c.hdrmDrop + 1 }) s))

/-- Take a frame's cells out of staging or the allowance. -/
def leavePart (k : Pkt) (s : State) : State :=
  let pipe := pipeOf k.port
  match k.part with
  | .staging => modPipe pipe (fun p => { p with staging := p.staging - k.cells }) s
  | .allowance => modPipe pipe (fun p => { p with allowance := p.allowance - k.cells }) s
  | .queues => s

/-- Admission of a unicast frame to queue q (R244). -/
def admitFrame (h q : Nat) (k : Pkt) (s : State) : State :=
  let tc := pget k bTC
  let pg := pgOf s k.port tc
  let s := monPoint h 8 k s
  match admitUnicast s q pg k.cells (lossless s k.port tc) with
  | .ok g sh hd =>
    let s := leavePart k s
    let s := chargeCopy q pg g sh hd s
    let k := { k with part := .queues, stage := .admitted, refs := 1, multicast := false, pg := pg }
    let port := (queuePort s q).getD 0
    let s := sound k q 0 (putPkt h k s)
    let s := perfEvent 0x0601 5 0 q tc 1 s
    purgeHead q 1 (enqueue q (mkCopy s h q g sh hd port k true) s)
  | a =>
    let ((fate, outcome), s) := countRefusal a q k.port s
    let port := (queuePort s q).getD 0
    let s := perfEvent 0x0602 5 0 q fate 1 s
    let s := sound k q outcome s
    let s := fateKnown h k true 0 port fate q s
    freePkt h k s

/-- Policer tokens of an endpoint in milli-bits (R282). -/
def polOf (s : State) (e : Nat) : PolicerState := kget policerReset s.sw.pol e
def polTokens (s : State) (e : Nat) : Int := (fv s 7 0xA e 0 24 * 8000 : Nat) - (polOf s e).used

/-- The policer of a frame's endpoint (R284, R285): passed, or counted and refused. -/
def police (k : Pkt) (s : State) : Bool × State :=
  let e := pget k bENDPOINT
  if fv s 7 9 e 0 1 = 0 then (true, s)
  else
    let cost : Int := (rxLen k * 8000 : Nat)
    if cost ≤ polTokens s e then
      (true, { s with sw.pol := kmod policerReset s.sw.pol e (fun p => { p with used := p.used + cost }) })
    else
      let s := { s with
        sw.pol := kmod policerReset s.sw.pol e (fun p => { p with dropFrames := p.dropFrames + 1, dropOctets := inc64 p.dropOctets (rxLen k) })
        sw.polFrames := s.sw.polFrames + 1
        sw.polOctets := inc64 s.sw.polOctets (rxLen k) }
      let s := perfEvent 0x0702 5 0 e 0 1 s
      (false, meterUpdate 1 (pget k bEP_SET == 1) e (pget k bTENANT) (rxLen k) (fixN s) s)

/-- Port p's tenant set admits tenant t (R375). -/
def tenantAdmitted (s : State) (p t : Nat) : Bool :=
  fv s 14 0x10 p 0 1 == 1 ||
    (t != 0 && (if p < 64 then (objVal s (oid 14 0x100 t)).testBit p else (objVal s (oid 14 0x101 t)).testBit (p - 64)))

/-- Address of a word of the multicast tables in MC_ECC_UNCORR (Table 10.9): a group entry, else a member entry. -/
def mcAddr (group : Bool) (i : Nat) : Nat := i + b2n group * 2 ^ 17

/-- Valid members of a group, in index order: queues. Copies under an entry that fails its check are discarded (R271). -/
def groupQueues (g : Nat) (s : State) : List Nat × State :=
  let (bad, s) := useMcWord (mcAddr true g) s
  if bad then ([], s)
  else
    let w := objVal s (oid 6 0xC g)
    (List.range (bitsOf w 17 10)).foldl (fun x i =>
      let (bad, t) := useMcWord (mcAddr false (bitsOf w 0 17 + i)) x.2
      let m := objVal t (oid 6 0xD (bitsOf w 0 17 + i))
      (if bad || !m.testBit 17 then x.1 else x.1 ++ [bitsOf m 0 17], t)) ([], s)

/-- The members of a frame's group as they stand at its admission (R259, R41): each queue, and whether it is skipped because its
port is the ingress port under MC_SRC_PRUNE, or because its port's tenant set does not admit the frame. -/
def mcMembers (k : Pkt) (s : State) : List (Nat × Bool) × State :=
  let g := pget k bDEST % 65536
  let prune := (objVal s (oid 6 0xC g)).testBit 27
  let (qs, t) := groupQueues g s
  (qs.map (fun q => (q, match queuePort s q with
    | some p => (prune && p == k.port) || (!tenantAdmitted s p (pget k bTENANT) && !k.system)
    | none => false)), t)

/-- A multicast frame is charged once and waits for its pipeline's replicator (R259, R260). -/
def admitMcFrame (h : Nat) (k : Pkt) (s : State) : State :=
  let pipe := pipeOf k.port
  let s := monPoint h 8 k s
  let fail := fun (s : State) =>
    let s := modPipe pipe (fun p => { p with mcDrop := p.mcDrop + 1 }) s
    let s := sound k (pget k bDEST % 65536) 5 s
    freePkt h k (fateKnown h k true 0 0 3 0 s)
  if 1024 ≤ (pipeState s pipe).replicator.length || !reserveOk s k.cells then fail s
  else
    let pg := pgOf s k.port (pget k bTC)
    let (ms, s) := mcMembers k (leavePart k s)
    let k := { k with part := .queues, stage := .replicate, multicast := true, refs := 1, pg := pg, members := ms }
    let s := noteFree (pgAdd pg k.cells 0 { s with sw.shared := s.sw.shared + k.cells })
    let s := sound k (pget k bDEST % 65536) 5 s
    modPipe pipe (fun p => { p with replicator := p.replicator ++ [h] }) (putPkt h k s)

/-- Recirculation at the end of a pass (R142, R251). -/
def recirculate (h : Nat) (k : Pkt) (s : State) : State :=
  let pipe := pipeOf k.port
  let nobuf := fun (s : State) =>
    discardEnd h k 0 (modPipe pipe (fun p => { p with recircNobuf := p.recircNobuf + 1 }) s)
  if k.part = .staging && decide (4096 < (pipeState s pipe).allowance + k.cells) then nobuf s
  else match poolTake (0x210 + pipe) pipe 0 s with
    | (none, s) => nobuf s
    | (some r, s) =>
      let s := if k.part = .staging then
          modPipe pipe (fun p => { p with staging := p.staging - k.cells, allowance := p.allowance + k.cells }) s
        else s
      let (k, s) := ingMeter k s
      let k := { k with part := .allowance, stage := .recirc, bufs := r :: k.bufs }
      recircPush h k (putPkt h k s)

/-- The packet goes to policing and admission (R142, R167, R274, R284). -/
def lastExit (h : Nat) (k : Pkt) (s : State) : State :=
  let (pass, s) := police k s
  if !pass then discardEnd h k 0x84 s
  else
    let k := match k.ans with
      | some a => { k with tx := rewriteFrame a k.tx }
      | none => k
    let kind := pget k bDEST_KIND
    let d := pget k bDEST
    if kind = 0 then discardEnd h k 0 { s with sw.noDest := s.sw.noDest + 1 }
    else if kind = 1 then admitFrame h (fv s 7 8 (d % 128 * 8 + pget k bTC) 0 17) k s
    else if kind = 2 then admitFrame h d k s
    else admitMcFrame h k s

/-- STAGE12_EXIT: a packet ends a pass (R142). (Log: DEDUCED, log entry 32.) -/
def doStage12Exit (h : Nat) (ns : BitVec 10) (s : State) : State :=
  let s := atNs ns s
  match pktOf s h with
  | none => s
  | some k =>
    if k.stage != .stage12 then s
    else
      let pipe := pipeOf k.port
      let s := monPoint h 4 k s
      let recirc := pget k bRECIRC = 1 && pget k bDROP = 0
      let over_ := fv (passView k s) 2 1 pipe 0 3 ≤ pget k bPASS + 1
      if recirc && !over_ then recirculate h k s
      else
        -- the last exit from stage 12: the epoch's count is left unless the packet was held
        let s := if k.wasHeld then s else epochLeave k s
        let k := if k.wasHeld then k else { k with epoch := none }
        let s := uncount k s
        let k := { k with counted := false }
        let (k, s) := ingMeter k s
        let s := putPkt h k s
        if pget k bDROP = 1 then
          discardEnd h k (pget k bDROP_REASON) (countReason pipe (pget k bDROP_REASON) s)
        else if recirc then discardEnd h k 0x81 (countReason pipe 0x81 s)
        else lastExit h k s

/-! ### Multicast (R259, R260) -/

/-- One member of a group: pruned, refused or admitted. Answers the copies made and the members tried so far; one copy is made in
a cycle. -/
def mcMember (h : Nat) (k : Pkt) (base : Nat) (m : Nat × Bool) (ns : Nat × Nat × State) : Nat × Nat × State :=
  let (n, tried, s) := ns
  let q := m.1
  let pipe := pipeOf k.port
  let port := (queuePort s q).getD 0
  let s := { s with sw.cycle := s.sw.cycle + 1 }
  if m.2 then (n, tried, modPipe pipe (fun p => { p with mcPrune := p.mcPrune + 1 }) s)
  else if k.starved then
    (n, tried + 1, logFate k 0 port 8
      (modScPort port (fun c => { c with contFail := c.contFail + 1, badDiscard := c.badDiscard + 1 }) s))
  else
    -- U is the use before the frame (R244)
    match admitMulticast { s with sw.shared := base } q k.cells with
    | .ok _ sh _ =>
      let s := modQueue q (fun u => { u with sh := u.sh + sh, depthMax := max u.depthMax (u.g + u.sh + u.hd + sh) }) s
      let s := perfEvent 0x0601 5 0 q (pget k bTC) 1 s
      (n + 1, tried + 1, enqueue q (mkCopy s h q 0 sh 0 port k (n == 0)) s)
    | a =>
      let ((fate, _), s) := countRefusal a q k.port s
      let s := perfEvent 0x0602 5 0 q fate 1 s
      (n, tried + 1, logFate k 0 port fate s)

/-- MC_REPLICATE: the frame at the head of a pipeline's replicator is copied to the members of its group. -/
def doMcReplicate (pipe : Fin 4) (s : State) : State :=
  match (pipeState s pipe.val).replicator with
  | [] => s
  | h :: rest =>
    let s := modPipe pipe.val (fun p => { p with replicator := rest }) s
    match pktOf s h with
    | none => s
    | some k =>
      let base := s.sw.shared - k.cells
      let ms := k.members
      let k := { k with stage := .admitted, members := [] }
      let (n, tried, s) := ms.foldl (fun ns m => mcMember h k base m ns) (0, 0, putPkt h k s)
      let s := { s with sw.cycle := 0 }
      if n = 0 then
        let s := if tried = 0 then modPipe pipe.val (fun p => { p with mcDrop := p.mcDrop + 1 }) s else s
        freePkt h k (monFinish h k 0xFF (if k.starved then 8 else 3) 0 s)
      else match pktOf s h with
        | some k => ms.foldl (fun s m => purgeHead m.1 1 s) (putPkt h { k with refs := n } s)
        | none => s

end Sys2Proof.Machine
end

