-- ==== Sys2Proof/Machine/Egress.lean ====
section
/-! DEFINITION. The traffic manager's scheduler, the egress isolation checker, transmission, pause frames and the
port-down flush (chapters 4, 10, 11 and 16). -/

namespace Sys2Proof.Machine

open Sys2Proof

/-! ### Buckets (R282) -/

def shpPir (s : State) (q : Nat) : Nat := fv s 7 5 q 0 19
def shpPbs (s : State) (q : Nat) : Nat := fv s 7 6 q 24 24
def shpCir (s : State) (q : Nat) : Nat := fv s 7 4 q 0 19
def shpCbs (s : State) (q : Nat) : Nat := fv s 7 6 q 0 24

def peakTokens (s : State) (q : Nat) : Int := (shpPbs s q * 8000 : Nat) - (queueOf s q).peakUsed
def commTokens (s : State) (q : Nat) : Int := (shpCbs s q * 8000 : Nat) - (queueOf s q).commUsed

/-! ### Candidates (R277) -/

/-- The queue's PFC_PRIO is paused on a port (R99): a PAUSE frame has set every priority's timer. -/
def queuePaused (s : State) (p q : Nat) : Bool := ((portOf s p).pauseEnd.getD (fv s 7 7 q 0 3) none).isSome

/-- A copy is eligible under its forwarding mode (R252). -/
def eligible (s : State) (c : Copy) : Bool :=
  match pktOf s c.pkt with
  | none => false
  | some k => c.cutThrough || k.tail == .good

/-- A copy that a mask bit cleared at c = DRAIN_FIX admitted earlier may still pass (R377). -/
def drainPasses (d : Drain) (p : Nat) (c : Copy) : Bool :=
  d.mask.getLsbD p &&
    (let x := ns32 (d.fix.toNat * 1024) c.admitted.toNat
     decide (1 ≤ x) && decide (x ≤ 2 ^ 31))

def isCandidate (s : State) (p q : Nat) : Bool :=
  match (queueOf s q).copies with
  | [] => false
  | c :: _ => eligible s c && !queuePaused s p q && decide (0 < peakTokens s q)

/-- The queues of a port that have state, in ascending order. -/
def portQueues (s : State) (p : Nat) : List Nat :=
  (s.sw.queues.filter (fun e => queuePort s e.1 == some p)).map (fun e => e.1)

def purgePort (p : Nat) (s : State) : State :=
  (portQueues s p).foldl (fun s q => purgeHead q (queueOf s q).copies.length s) s

/-! ### Selection (R278 to R280) -/

/-- Valid tenant queues of a port in ascending order. -/
def tenantQueues (s : State) (p : Nat) : List Nat :=
  (s.ctl.cfg.filter (fun e => objSub e.1 == 7 && objFld e.1 == 1 && e.2.getLsbD 7 && e.2.toNat % 128 == p)).map
    (fun e => objIdx e.1)

/-- The first element at or after a pointer, in a circle. -/
def firstFrom (ptr : Nat) (qs : List Nat) : Option Nat :=
  match qs.find? (fun q => decide (ptr ≤ q)) with
  | some q => some q
  | none => qs.head?

def quantum (s : State) (q : Nat) : Int := (fv s 7 3 q 0 10 * 64 : Nat)

def isResting (s : State) (p : Nat) : Bool := s.sw.resting.contains p
def setResting (p : Nat) (b : Bool) (s : State) : State :=
  { s with sw.resting := if b then (if s.sw.resting.contains p then s.sw.resting else p :: s.sw.resting)
                         else s.sw.resting.filter (fun x => x != p) }

def passQueue (p q : Nat) (s : State) : State :=
  let s := if (queueOf s q).copies.isEmpty then modQueue q (fun k => { k with deficit := 0 }) s else s
  setResting p false { s with sw.ptrE := kput s.sw.ptrE p (q + 1) }

/-- Deficit round robin over the tenant queues of a port (R280). Fuel bounds the visits: the lowest deficit that a copy
leaves is worked off in at most 160 rounds of the smallest quantum. -/
def excessPick (p : Nat) (qs : List Nat) : Nat → State → Option Nat × State
  | 0, s => (none, s)
  | n + 1, s =>
    match firstFrom (kget 512 s.sw.ptrE p) qs with
    | none => (none, s)
    | some q =>
      let cand := isCandidate s p q
      if isResting s p && kget 512 s.sw.ptrE p == q then
        if cand && decide (0 < (queueOf s q).deficit) then (some q, s) else excessPick p qs n (passQueue p q s)
      else if cand then
        let s := modQueue q (fun k => { k with deficit := k.deficit + quantum s q }) s
        let s := { s with sw.ptrE := kput s.sw.ptrE p q }
        if 0 < (queueOf s q).deficit then (some q, setResting p true s) else excessPick p qs n (passQueue p q s)
      else excessPick p qs n (passQueue p q s)

/-- The queue selected at a port with its tier (R278): 1 to 4 strict, 5 committed, 6 excess. -/
def selectQueue (p : Nat) (s : State) : Option (Nat × Nat) × State :=
  match [3, 2, 1, 0].find? (fun k => isCandidate s p (4 * p + k)) with
  | some k => (some (4 * p + k, 4 - k), s)
  | none =>
    let qs := tenantQueues s p
    let cands := qs.filter (fun q => isCandidate s p q)
    match firstFrom (kget 512 s.sw.ptrC p) (cands.filter (fun q => decide (0 < commTokens s q))) with
    | some q => (some (q, 5), { s with sw.ptrC := kput s.sw.ptrC p (q + 1) })
    | none =>
      if cands.isEmpty then (none, s)
      else match excessPick p qs ((qs.length + 1) * 160) s with
        | (some q, s) => (some (q, 6), s)
        | (none, s) => (none, s)

/-! ### The egress isolation checker (R20, R256, R375 to R378) -/

/-- What the pre-start check finds. -/
inductive IsoCheck where
  | pass
  | tagCrc
  | tenant
  /-- The tenant's table entry has failed: no message beside the entry's own (R386). -/
  | table
deriving DecidableEq, Repr

def isoCheck (s : State) (p : Nat) (c : Copy) (k : Pkt) : IsoCheck :=
  if !tagOk k then .tagCrc
  else if !k.system && s.lod.isoBad.contains (pget k bTENANT) && fv s 14 0x10 p 0 1 == 0 then .table
  else if k.system || tenantAdmitted s p (pget k bTENANT)
      || drainPasses (kget drainReset s.lod.drains (pget k bTENANT)) p c then .pass
  else .tenant

/-- The Class 1 message of a failing copy (R20, R378, Table 16.8). -/
def isoRaise (p q : Nat) (k : Pkt) (r : IsoCheck) (disagree : Bool) (s : State) : State :=
  let ep := pget k bENDPOINT
  let s := match r with
    | .pass => s
    | .table => s
    | .tagCrc => raiseScoped fkTAG_CRC (p + q * 2 ^ 7) [p] [] s
    | .tenant => raiseScoped fkTENANT_REJECT (p + pget k bTENANT * 2 ^ 7) [p] [ep] s
  if disagree then raiseScoped fkCHECKER_DISAGREE p [p] (if tagOk k then [ep] else []) s else s

/-! ### Selection and start (R97, R252, R256) -/

/-- The selected copy starts on the wire, or is found wanting before it starts. -/
def startCopy (p q tier : Nat) (t16 : BitVec 14) (halfBad : Bool) (c : Copy) (s : State) : State :=
  let s := modQueue q (fun k => { k with copies := k.copies.drop 1 }) s
  match pktOf s c.pkt with
  | none => newHead q s
  | some k =>
    let s := perfEvent 0x0701 5 0 q tier 1 s
    let r := isoCheck s p c k
    if r ≠ .pass || halfBad then
      let s := modScPort p (fun n => { n with isoDrop := n.isoDrop + 1 }) s
      let s := isoRaise p q k r (halfBad && r = .pass) s
      newHead q (releaseCopy c (fateKnown c.pkt k c.first 0 p 5 q s))
    else if (portOf s p).st = .downPend then
      let s := modCnt p (fun n => { n with txDropDown := n.txDropDown + 1 }) s
      newHead q (releaseCopy c (fateKnown c.pkt k c.first 0 p 7 q s))
    else
      let ts := egressStamp s p t16
      let d := ns32 (timeNs s) c.admitted.toNat
      let s := modQueue q (fun n => { n with delayMax := max n.delayMax d }) s
      let s := if c.first then monPoint c.pkt 10 k s else s
      let t : TxState :=
        { copy := c, tier := tier, startNs := BitVec.ofNat 32 (ts.toNat / 16), startSub := BitVec.ofNat 4 ts.toNat, sent := 0, cut := none, lost := false, maxLen := maxFrame s p }
      newHead q { s with sw.tx := kput s.sw.tx p t }

/-- The egress MAC's part of a Sync that Binnacle sends (R108): originTimestamp in one-step operation, a Follow_Up due in
two-step operation. -/
def syncStamp (p : Nat) (ts : U32) (f : Bytes) (s : State) : Bytes × State :=
  match ptpHeader f with
  | none => (f, s)
  | some (_, o, _) =>
    if ptpType f o ≠ 0 then (f, s)
    else if fv s 11 1 0 3 1 = 1 then (withFcs (ptpStamp (taiOf s ts) (f.take (f.length - 4))), s)
    else (f, { s with mer.followUps := s.mer.followUps ++ [(p, taiOf s ts)] })

/-- A frame of Binnacle's that is longer than the port's PORT_MAX_FRAME ends there with the inverted FCS (R98, as `txEnd`). -/
def originCut (s : State) (p : Nat) (f : Bytes) : Bytes × Bool :=
  if maxFrame s p < f.length then
    let body := f.take (maxFrame s p - 4)
    (body ++ leBytes 4 (crc32 body ^^^ 0xFFFFFFFF), true)
  else (f, false)

/-- A frame of Binnacle's leaves through the highest strict queue of its port (R85, R107): it is charged to the queue's
peak bucket and counted. -/
def sendOrigin (p : Nat) (stamp : BitVec 36) (f : Bytes) (s : State) : State :=
  let (f, s) := syncStamp p (BitVec.ofNat 32 (stamp.toNat / 16)) f s
  let (f, over_) := originCut s p f
  let q := 4 * p + 3
  let cost : Int := ((f.length + 20) * 8000 : Nat)
  let s := modQueue q (fun k => { k with peakUsed := k.peakUsed + cost, txFrames := k.txFrames + 1,
                                         txOctets := inc64 k.txOctets f.length }) s
  let s := modCnt p (fun c => { c with
    txFrames := c.txFrames + 1
    txOctets := inc64 c.txOctets f.length
    txStomp := if over_ then c.txStomp + 1 else c.txStomp
    txOversizeStomp := if over_ then c.txOversizeStomp + 1 else c.txOversizeStomp }) s
  let s := if over_ then stickPort p 5 s else s
  let s := perfEvent 0x0103 5 0 p 0 f.length (perfEvent 0x0102 5 0 p 0 1 s)
  { s with out.frames := s.out.frames ++ [{ port := p, bytes := f, stomped := over_ }] }

def takeOrigin (p : Nat) : List (Nat × Bytes) → Option (Bytes × List (Nat × Bytes))
  | [] => none
  | (q, f) :: rest =>
    if q = p then some (f, rest)
    else match takeOrigin p rest with
      | some (g, r) => some (g, (q, f) :: r)
      | none => none

/-- EGRESS_SELECT: a port whose MAC is free selects its next copy (R278). `halfBad`: one checker half rejects a copy that
it should pass. -/
def doEgressSelect (port : Fin 128) (t16 : BitVec 14) (halfBad : Bool) (s : State) : State :=
  let s := at16 t16 s
  let p := port.val
  if !isPort s p || !portLive s p || (kfind s.sw.tx p).isSome || !domainOn s 48 || !domainOn s (44 + p / 32) then s
  else
    let s := purgePort p s
    let q3 := 4 * p + 3
    match takeOrigin p s.ctl.origin with
    | some (f, rest) =>
      if !queuePaused s p q3 && decide (0 < peakTokens s q3) then
        let s := { s with ctl.origin := rest }
        if (portOf s p).st = .downPend then modCnt p (fun n => { n with txDropDown := n.txDropDown + 1 }) s
        else sendOrigin p (egressStamp s p t16) f s
      else pick p s
    | none => pick p s
where
  pick (p : Nat) (s : State) : State :=
    match selectQueue p s with
    | (none, s) => s
    | (some (q, tier), s) =>
      match (queueOf s q).copies with
      | [] => s
      | c :: _ => startCopy p q tier t16 halfBad c s

/-! ### Cells and the end of a copy (R254 to R256, R281) -/

/-- Bytes of the frame, without an FCS, that a copy can send: all but the last four of a frame received to its tail. -/
def bodyOf (k : Pkt) : Bytes :=
  if k.tail = .good ∨ k.tail = .fcs then k.tx.take (k.tx.length - 4) else k.tx

/-- The bytes after which the copy on the wire ends: its body, the cut, and PORT_MAX_FRAME. The spec does not say whether the
inverted FCS lies within the PORT_MAX_FRAME bytes or after them: here it lies within (R98, R255). (Log: DESIGN CHOICE, log entry 80.) -/
def txEnd (k : Pkt) (t : TxState) : Nat × Bool × Bool :=
  let body := (bodyOf k).length
  let mx := t.maxLen
  let over_ := decide (mx < body + 4) && k.coming.isEmpty
  let lim := if over_ then min body (mx - 4) else body
  match t.cut with
  | some c => if c < lim ∨ (c ≤ body ∧ !over_) then (min c lim, true, over_ && decide (lim ≤ c)) else (lim, true, over_)
  | none => (lim, over_ || k.tail != .good, over_)

/-- EGRESS_CELL_SEND: the checker verifies the next cell before its first byte (R256); `cell` is the index of the shared
buffer's cell that holds it. A cell that its ECC cannot correct ends the copy before its first byte (R271, Table 10.9, R255). -/
def doEgressCellSend (port : Fin 128) (cell : BitVec 19) (trailerBad halfBad : Bool) (s : State) : State :=
  let p := port.val
  match kfind s.sw.tx p with
  | none => s
  | some t =>
    match pktOf s t.copy.pkt with
    | none => s
    | some k =>
      let at_ := 256 * t.sent
      let cut := fun n (s : State) => { s with sw.tx := kput s.sw.tx p (txCut n t) }
      let done := match t.cut with
        | some c => decide (c ≤ at_)
        | none => false
      if t.lost || done then s
      else if portSafe s p then cut at_ s
      else if trailerBad || halfBad then
        let ep := pget k bENDPOINT
        let s := if trailerBad then raiseScoped fkTRAILER_MISMATCH (p + cell.toNat * 2 ^ 7) [p] [ep] s else s
        let s := if halfBad then raiseScoped fkCHECKER_DISAGREE p [p] (if tagOk k then [ep] else []) s else s
        cut at_ s
      else if !k.coming.isEmpty && decide (k.tx.length < at_ + 256) then
        modScPort p (fun n => { n with ctUnderrun := n.ctUnderrun + 1 }) (cut k.tx.length s)
      else if k.tx.length ≤ at_ then s
      else
        let (bad, s) := useWord fkCELL_CORR fkCELL_UNCORR cell.toNat s
        if bad then cut at_ s else { s with sw.tx := kput s.sw.tx p { t with sent := t.sent + 1 } }

/-- The copy has no more to send. -/
def txComplete (k : Pkt) (t : TxState) : Bool :=
  t.lost || ((t.cut.isSome || k.coming.isEmpty) && decide ((txEnd k t).1 ≤ 256 * t.sent))

/-- Charges of a completed copy of n bytes (R281). -/
def chargeTx (q tier n : Nat) (s : State) : State :=
  let cost : Int := ((n + 20) * 8000 : Nat)
  modQueue q (fun k => { k with
    peakUsed := k.peakUsed + cost
    commUsed := if tier = 5 then k.commUsed + cost else k.commUsed
    deficit := if tier = 6 then k.deficit - ((n + 20 : Nat) : Int) else k.deficit }) s

/-- The residence time in 1/16 ns: the egress timestamp less the ingress timestamp (R107). -/
def residence16 (k : Pkt) (t : TxState) : Nat :=
  (t.startNs.toNat * 16 + t.startSub.toNat + 2 ^ 36 - (k.ingTs.toNat * 16 + k.ingSub.toNat)) % 2 ^ 36

/-- COPY_TX_DONE: the copy's last byte leaves (R281, R247, R262, R333). (Log: DESIGN CHOICE, log entry 4.) -/
def doCopyTxDone (port : Fin 128) (ns : BitVec 10) (s : State) : State :=
  let s := atNs ns s
  let p := port.val
  match kfind s.sw.tx p with
  | none => s
  | some t =>
    match pktOf s t.copy.pkt with
    | none => { s with sw.tx := kdel s.sw.tx p }
    | some k =>
      if !txComplete k t then s
      else
        let c := t.copy
        let q := c.queue
        let s := { s with sw.tx := kdel s.sw.tx p }
        if t.lost then
          let s := chargeTx q t.tier (256 * t.sent) s
          releaseCopy c (fateKnown c.pkt k c.first 0 p 7 q s)
        else
          let (e, stomp, over_) := txEnd k t
          let body := (bodyOf k).take e
          let body := if (k.ptp || ptpTransit s k) && !stomp then ptpResidence (residence16 k t) body else body
          let n := body.length + 4
          let fcs := leBytes 4 (if stomp then crc32 body ^^^ 0xFFFFFFFF else crc32 body)
          let s := modCnt p (fun m => { m with
            txFrames := m.txFrames + 1
            txOctets := inc64 m.txOctets n
            txStomp := if stomp then m.txStomp + 1 else m.txStomp
            txOversizeStomp := if over_ then m.txOversizeStomp + 1 else m.txOversizeStomp }) s
          let s := perfEvent 0x0103 5 0 p c.tc n (perfEvent 0x0102 5 0 p c.tc 1 s)
          let s := modQueue q (fun m => { m with txFrames := m.txFrames + 1, txOctets := inc64 m.txOctets n }) s
          let s := chargeTx q t.tier n s
          let s := if stomp then stickPort p 5 s else
            meterUpdate 2 (pget k bEP_SET == 1) (pget k bENDPOINT) (pget k bTENANT) n (bitsOf t.startNs.toNat 10 22) s
          let s := { s with out.frames := s.out.frames ++ [{ port := p, bytes := body ++ fcs, stomped := stomp }] }
          let s := if c.first then monPoint c.pkt 11 k s else s
          releaseCopy c (fateKnown c.pkt k c.first t.startNs.toNat p (b2n stomp) q s)

/-! ### Pause (R99, R100, R250) -/

/-- Duration of q pause quanta at a port in ns. -/
def quantaNs (s : State) (p q : Nat) : Nat := q * 512 * 1000 / portMbps s p

/-- The PAUSE or PFC frame for priorities with quanta (R477). -/
def pauseFrame (s : State) (p : Nat) (pfc : Bool) (vec : Nat) (quanta : List Nat) : Bytes :=
  withFcs ([0x01, 0x80, 0xC2, 0x00, 0x00, 0x01] ++ portMacB s p ++ [0x88, 0x08]
    ++ (if pfc then [0x01, 0x01] ++ beBytes 2 vec ++ (quanta.map (fun q => beBytes 2 q)).flatten
        else [0x00, 0x01] ++ beBytes 2 (quanta.getD 0 0)))

/-- Send a pause frame for the priorities of a vector with their present XOFF states; counted in TX_PAUSE. -/
def sendPause (p vec : Nat) (s : State) : State :=
  let pfc := pauseMode s p = 2
  let pq := fv s 6 8 p 0 16
  let quanta := (List.range 8).map (fun t => if vec.testBit t && (prioOf s (p * 8 + t)).xoff then pq else 0)
  let f := pauseFrame s p pfc vec quanta
  let s := { s with
    out.frames := s.out.frames ++ [{ port := p, bytes := f, stomped := false }]
    sw.pauseAge := kput s.sw.pauseAge p 0
    sw.prio := (s.sw.prio.map (fun e => (e.1, if e.1 / 8 = p && vec.testBit (e.1 % 8) then { e.2 with due := false } else e.2))).filter
      (fun e => decide (e.2 ≠ prioReset)) }
  modCnt p (fun c => { c with txPause := c.txPause + 1 }) s

def vecOf (f : Nat → Bool) : Nat := (List.range 8).foldl (fun a t => if f t then a + 2 ^ t else a) 0

/-- PFC_FRAME_SEND: the transitions of a port's priorities that have not been sent leave in one frame (R250). -/
def doPfcFrameSend (port : Fin 128) (s : State) : State :=
  let p := port.val
  let vec := vecOf (fun t => (prioOf s (p * 8 + t)).due && (pauseMask s p).testBit t)
  if (portOf s p).st = .up ∧ vec ≠ 0 ∧ isPort s p then sendPause p vec s else s

/-- PAUSE_REFRESH: the frame is repeated while XOFF lasts (R250). -/
def doPauseRefresh (port : Fin 128) (s : State) : State :=
  let p := port.val
  let vec := vecOf (fun t => (prioOf s (p * 8 + t)).xoff && (pauseMask s p).testBit t)
  if (portOf s p).st = .up ∧ vec ≠ 0 ∧ fv s 6 8 p 16 16 ≤ kget 0 s.sw.pauseAge p then sendPause p vec s else s

/-- A port is in UP again at a boundary with transitions that fell in the meantime: one frame with the present state of
every priority (R250). -/
def pauseCatchUp (p : Nat) (s : State) : State :=
  if (List.range 8).any (fun t => (prioOf s (p * 8 + t)).due) && pauseMask s p != 0 then sendPause p (pauseMask s p) s
  else s

/-- Timers run from the end of the received frame (R99); a time of 0 ends the pause. -/
def setPause (prios : List Nat) (times : List U16) (s : State) (k : Port) (p : Nat) : Port :=
  { k with pauseEnd := (List.range 8).map (fun i =>
      if prios.contains i then
        let q := (times.getD i 0).toNat
        if q = 0 then none else some (monoNs s + quantaNs s p q)
      else k.pauseEnd.getD i none) }

/-- PAUSE_FRAME_RECEIVED: a PAUSE frame (`pfc` false, its time in times[0]) or a PFC frame arrives whole (R99, R100). -/
def doPauseFrameReceived (port : Fin 128) (ns : BitVec 10) (pfc : Bool) (vec : Byte) (times : List U16) (s : State) : State :=
  let s := atNs ns s
  let p := port.val
  if !isPort s p || (portOf s p).st != .up then s
  else
    let s := modCnt p (fun c => { c with rxPause := c.rxPause + 1 }) s
    let put := fun prios times => { s with ports := kmod portReset s.ports p (fun k => setPause prios times s k p) }
    if !pfc && pauseMode s p == 1 then put (List.range 8) (List.replicate 8 (times.getD 0 0))
    else if pfc && pauseMode s p == 2 then
      put ((List.range 8).filter (fun t => vec.getLsbD t && (fv s 1 7 p 8 8).testBit t)) times
    else s

/-- PAUSE_TIMER_EXPIRE: a priority's pause time has run out (R99). -/
def doPauseTimerExpire (port : Fin 128) (prio : Fin 8) (ns : BitVec 10) (s : State) : State :=
  let s := atNs ns s
  match (portOf s port.val).pauseEnd.getD prio.val none with
  | none => s
  | some t =>
    if t ≤ monoNs s then
      { s with ports := kmod portReset s.ports port.val (fun k => { k with pauseEnd := setAt k.pauseEnd prio.val none }) }
    else s

/-! ### Flush (R257, R258) -/

/-- The flush is complete when all the port's queues are empty. -/
def flushSettle (p : Nat) (s : State) : State :=
  if (portQueues s p).all (fun q => (queueOf s q).copies.isEmpty) then { s with sw.flush := kdel s.sw.flush p } else s

/-- Every queue of the port begins a flush. -/
def flushStart (p : Nat) (s : State) : State :=
  if (kfind s.sw.flush p).isSome then s else flushSettle p { s with sw.flush := kput s.sw.flush p 0 }

def copyCells (s : State) (c : Copy) : Nat :=
  match pktOf s c.pkt with
  | some k => k.cells
  | none => 0

/-- Release heads of a port's queues while the cells last. -/
def flushLoop (p : Nat) : Nat → Nat → State → State
  | 0, _, s => s
  | n + 1, cells, s =>
    match (portQueues s p).find? (fun q => !(queueOf s q).copies.isEmpty) with
    | none => s
    | some q =>
      match (queueOf s q).copies with
      | [] => s
      | c :: _ =>
        let m := copyCells s c
        if cells < m then s
        else
          let s := discardHead q 4 (fun p => modScPort p (fun k => { k with flushDrop := k.flushDrop + 1 })) s
          flushLoop p n (cells - m) { s with sw.cycle := s.sw.cycle + (m + 3) / 4 }

/-- FLUSH_RELEASE: unstarted copies of a flushing port are released, as many cells as the cycles since the last such event
allow (at most 6,144 in a Fix). -/
def doFlushRelease (port : Fin 128) (cells : BitVec 13) (s : State) : State :=
  if portFlushing s port.val then
    flushSettle port.val { flushLoop port.val 6144 (min 6144 cells.toNat) s with sw.cycle := 0 }
  else s

/-- FLUSH_STUCK: a flush has not completed 64 boundaries after it began (R258). -/
def doFlushStuck (port : Fin 128) (s : State) : State :=
  match kfind s.sw.flush port.val with
  | none => s
  | some age =>
    if 64 ≤ age ∧ age < 2 ^ 32 then
      raiseFault fkFLUSH_STUCK port.val { s with sw.flush := kput s.sw.flush port.val (age + 2 ^ 32) }
    else s

/-- A port's lanes go down or a loss is detected: what is on the wire is lost (R97). -/
def loseTx (p : Nat) (s : State) : State :=
  match kfind s.sw.tx p with
  | none => s
  | some t =>
    if t.lost then s
    else modCnt p (fun n => { n with txDropDown := n.txDropDown + 1 }) { s with sw.tx := kput s.sw.tx p { t with lost := true } }

end Sys2Proof.Machine
end

