-- ==== Sys2Proof/Machine/SwitchCmds.lean ====
section
/-! DEFINITION. Capture delivery, boundary work, Autopilot loop 1 and commands of the switch core, the traffic manager,
the buffer pools, the performance counters and Monarch (chapters 10, 11, 12, 19). -/

namespace Sys2Proof.Machine

open Sys2Proof

/-! ### Delivery to the capture rings (R263, R264, R266, R442) -/

def capRing (s : State) (i : Nat) : HostRing := s.sw.rings.getD i hostRingReset

/-- The oldest Logline entry of a pipeline, on die first, and the pipeline without it. A block of the overflow ring that
has been emptied is given back. -/
def logNext (p : ScPipe) : Option (Bytes × ScPipe × Option Nat) :=
  match p.log with
  | e :: rest => some (e, { p with log := rest }, none)
  | [] => match p.ovf with
    | e :: rest =>
      match p.blocks with
      | b :: bs =>
        if (rest.length + 55) / 56 < p.blocks.length then some (e, { p with ovf := rest, blocks := bs }, some b)
        else some (e, { p with ovf := rest }, none)
      | [] => some (e, { p with ovf := rest }, none)
    | [] => none

/-- Set bit 7 of the FATE byte of an entry: GAP. -/
def withGap (e : Bytes) (gap : Bool) : Bytes :=
  if gap then spliceB e 141 [byteN ((e.getD 141 0).toNat % 128 + 128)] else e

/-- One entry of a pipeline to its host ring, if there is one, a slot and a token. -/
def logDeliverOne (pipe : Nat) (s : State) : Option State :=
  let r := capRing s pipe
  if s.sw.logTokens = 0 || ringFree r = 0 || !domainOn s 63 then none
  else match logNext (pipeState s pipe) with
    | none => none
    | some (e, p, blk) =>
      let (r, w) := slotWrite r 144 (withGap e p.gap)
      let s := modPipe pipe (fun _ => { p with gap := false }) s
      let s := match blk with
        | some b => poolRelease b s
        | none => s
      some (hostOut w { s with sw.rings := setAt s.sw.rings pipe r, sw.logTokens := s.sw.logTokens - 1,
                               sw.logTurn := (pipe + 1) % 4 })

/-- Pipelines take tokens in rotating order (R264). -/
def logDeliverLoop : Nat → State → State
  | 0, s => s
  | n + 1, s =>
    match (List.range 4).findSome? (fun i => logDeliverOne ((s.sw.logTurn + i) % 4) s) with
    | none => s
    | some s => logDeliverLoop n s

/-- LOGLINE_DELIVER. -/
def doLoglineDeliver (s : State) : State := logDeliverLoop s.sw.logTokens s

/-- Units of 64 bytes left to Sounding in this Fix: the billing slots written, and those that billing can still write, come first
(R266, R340). -/
def soundUnitsLeft (s : State) : Nat :=
  fv s 6 0xB 0 16 7 - (doBillRingDeliver s).met.slotsUsed - s.sw.soundUnits

/-- 64-byte units of a sample's DMA: 32 bytes of descriptor and the frame bytes. -/
def soundCost (bs : Bytes) : Nat := (bs.length + 63) / 64

def soundLoop : Nat → State → State
  | 0, s => s
  | n + 1, s =>
    match s.sw.soundFifo with
    | [] => s
    | (_, bs) :: rest =>
      let r := capRing s 4
      if ringFree r = 0 || soundUnitsLeft s < soundCost bs then s
      else
        let (r, w) := slotWrite r 288 bs
        soundLoop n (hostOut w { s with
          sw.soundFifo := rest
          sw.soundUnits := s.sw.soundUnits + soundCost bs
          sw.rings := setAt s.sw.rings 4 r })

/-- SOUND_DELIVER. -/
def doSoundDeliver (s : State) : State := if domainOn s 63 then soundLoop s.sw.soundFifo.length s else s

/-- Every sample that waits is lost: its port counts it in the next sample delivered (R266). -/
def soundDrop (s : State) : State :=
  let lose := fun (s : State) (e : Nat × Bytes) => { s with
    sw.samplers := kmod samplerReset s.sw.samplers e.1 (fun m => { m with lost := min (2 ^ 32 - 1) (m.lost + 1) }) }
  let n := s.sw.soundFifo.length
  { s.sw.soundFifo.foldl lose s with sw.soundLost := inc64 s.sw.soundLost n, sw.soundFifo := [] }

def monLoop : Nat → State → State
  | 0, s => s
  | n + 1, s =>
    match s.perf.fifo with
    | [] => s
    | e :: rest =>
      if ringFree s.perf.ring = 0 then s
      else
        let (r, w) := slotWrite s.perf.ring 128 e
        monLoop n (hostOut w { s with perf.fifo := rest, perf.ring := r, perf.delivered := s.perf.delivered + 1 })

/-- MON_RECORD_DELIVER. -/
def doMonRecordDeliver (s : State) : State := if domainOn s 63 then monLoop s.perf.fifo.length s else s

/-! ### The cell audit (R271) -/

/-- CELL_AUDIT_VISIT: 384 cells are visited; `lost` are those among them that no frame references. One found so twice
running is reclaimed. -/
def doCellAuditVisit (lost : List (BitVec 19)) (s : State) : State :=
  let lo := s.sw.auditPos
  let inRange := fun c => decide (lo ≤ c) && decide (c < lo + 384)
  let now := dedupN ((lost.map (fun c => c.toNat)).filter inRange)
  let again := now.filter (fun c => s.sw.orphanSeen.contains c)
  let seen := s.sw.orphanSeen.filter (fun c => !inRange c) ++ now.filter (fun c => !again.contains c)
  let pos := (lo + 384) % 393216
  let found := s.sw.auditFound + again.length
  let s := { s with sw.orphanSeen := seen, sw.auditPos := pos, sw.auditFound := found,
                    sw.reclaimed := inc64 s.sw.reclaimed again.length }
  if pos = 0 then
    let s := { s with sw.auditFound := 0 }
    if 0 < found then raiseFault fkCELL_AUDIT found s else s
  else s

/-! ### Boundary work -/

/-- Step 7: every bucket is refilled (R282). Tokens are kept as the amount spent below full. -/
def tmRefill (s : State) : State :=
  let sub := fun (u : Int) (r : Nat) => max 0 (u - (r * 1024 : Nat))
  let qs := s.sw.queues.map (fun (e : Nat × QueueState) => (e.1, { e.2 with
      peakUsed := sub e.2.peakUsed (shpPir s e.1)
      commUsed := sub e.2.commUsed (shpCir s e.1) }))
  let pol := s.sw.pol.map (fun (e : Nat × PolicerState) => (e.1, { e.2 with used := sub e.2.used (fv s 7 9 e.1 2 19) }))
  { s with sw.queues := qs.filter (fun e => decide (e.2 ≠ queueReset)), sw.pol := pol.filter (fun e => decide (e.2 ≠ policerReset)) }

def delay64 (d : Nat) : Nat := min 0xFFFF (d / 64)

/-- The sample of a queue at boundary b (Table 11.3). (Log: DEDUCED, log entry 71.) -/
def sampleOf (s : State) (q : Nat) : BitVec 128 :=
  let k := queueOf s q
  let paused := match queuePort s q with
    | some p => queuePaused s p q
    | none => false
  let hol := match k.copies with
    | [] => 0
    | c :: _ => delay64 (ns32 (fixN s * 1024) c.admitted.toNat)
  BitVec.ofNat 128 (fixN s + b2n paused * 2 ^ 22 + b2n (decide (peakTokens s q ≤ 0)) * 2 ^ 23 + queueDepth k * 2 ^ 32
    + k.depthMax * 2 ^ 64 + hol * 2 ^ 96 + delay64 k.delayMax * 2 ^ 112)

def sampleQueue (s : State) (q : Nat) : State :=
  let w := sampleOf s q
  modQueue q (fun k => { k with sample := w, depthMax := queueDepth k, delayMax := 0 }) s

/-- The set that a queue belongs to: 128 for strict queues, the slice of R287 for tenant queues. -/
def sampleSet (q : Nat) : Nat := if q < 512 then 128 else (q - 512) / 1020

/-- WATCH slots in use: their queues. -/
def watchQueues (s : State) : List Nat :=
  (List.range 16).filterMap (fun i => if fv s 7 0xB i 17 1 = 1 then some (fv s 7 0xB i 0 17) else none)

/-- Queues of ports with a running pause timer: they sample as PAUSED although they hold nothing. -/
def pausedQueues (s : State) : List Nat :=
  let ports := (s.ports.filter (fun e => e.2.pauseEnd.any (fun t => t.isSome))).map (fun e => e.1)
  (ports.map (fun p => [4 * p, 4 * p + 1, 4 * p + 2, 4 * p + 3] ++ tenantQueues s p)).flatten

/-- Step 4: the queue samples of R287. A queue without state of its own is sampled through `sampled`. (Log: DEDUCED, log entry 71.) -/
def tmSample (s : State) : State :=
  let slice := fixN s % 128
  let due := fun q => sampleSet q == 128 || sampleSet q == slice
  let stateful := (s.sw.queues.map (fun e => e.1)).filter due
  let qs := dedupN (stateful ++ (pausedQueues s).filter due ++ watchQueues s)
  let s := qs.foldl sampleQueue s
  { s with sw.sampled := kput (kput s.sw.sampled slice (fixN s + 1)) 128 (fixN s + 1) }

/-- The sample table's entry of a queue (R288). (Log: DEDUCED, log entry 71.) -/
def sampleRead (s : State) (q : Nat) : Bytes :=
  let k := queueOf s q
  if k.sample ≠ 0 then leBytes 16 k.sample.toNat
  else leBytes 16 (kget 0 s.sw.sampled (sampleSet q) - 1)

/-- Cells of an alpha class in the shared pool. -/
def classCells (s : State) (c : Nat) : Nat :=
  (s.sw.queues.filter (fun e => fv s 6 5 e.1 0 3 == c)).foldl (fun a e => a + e.2.sh) 0

/-- Step 4: the samples of loop 1 that describe the 32 Fix before are latched, and its window starts anew (R40, R261). -/
def loop1Latch (s : State) : State :=
  if fixN s % 32 ≠ 0 then s
  else { s with
    sw.loop1 := { size := sharedSize s, minFree := s.sw.minFree, refused := s.sw.refusedClasses,
                  cells := (List.range 8).map (classCells s) }
    sw.minFree := sharedSize s - s.sw.shared
    sw.refusedClasses := [] }

/-- Autopilot loop 1 on the latched samples (R261): object, old and new value of each decision. -/
def loop1Decide (s : State) : List (Obj × Nat × Nat) :=
  let w := s.sw.loop1
  (List.range 8).filterMap (fun c =>
    let o := oid 6 2 c
    let e := signedOf 3 (fv s 6 2 c 0 3)
    let lo := signedOf 3 (fv s 6 3 c 0 3)
    let hi := signedOf 3 (fv s 6 3 c 4 3)
    let want :=
      if decide (w.size ≤ w.minFree * 4) && w.refused.contains c then e + 1
      else if decide (w.minFree * 16 < w.size) && decide (w.size < w.cells.getD c 0 * 8) then e - 1
      else e
    let v := max lo (min hi want)
    if v = e then none else some (o, ofSigned 3 e, ofSigned 3 v))

/-! ### Effects of configuration changes -/

/-- Cells beyond a smaller guarantee are charged to the shared pool (R242). -/
def shrinkGuarantee (q : Nat) (s : State) : State :=
  let over_ := (queueOf s q).g - qmin s q
  if over_ = 0 then s
  else
    let step := fun (acc : Nat × State) (c : Copy) =>
      let m := min acc.1 c.g
      match pktOf acc.2 c.pkt with
      | none => acc
      | some k =>
        let s := modQueue q (fun u => { u with g := u.g - m, sh := u.sh + m }) acc.2
        let s := pgAdd k.pg m 0 { s with sw.shared := s.sw.shared + m }
        (acc.1 - m, { s with
          sw.queues := s.sw.queues.map (fun e => if e.1 = q then (e.1, { e.2 with copies := e.2.copies.map (fun x =>
            if x = c then { x with g := x.g - m, sh := x.sh + m } else x) }) else e)
          sw.tx := s.sw.tx.map (fun e => if e.2.copy = c then (e.1, { e.2 with copy := { c with g := c.g - m, sh := c.sh + m } }) else e) })
    let cs := (queueOf s q).copies ++ ((s.sw.tx.filter (fun e => e.2.copy.queue == q)).map (fun e => e.2.copy))
    (cs.foldl step (over_, s)).2

/-- Cells beyond a smaller headroom are charged to the shared pool (R242). -/
def shrinkHeadroom (pg : Nat) (s : State) : State :=
  let over_ := (prioOf s pg).hdrm - pgHdrm s pg
  if over_ = 0 then s
  else
    let cs := ((s.sw.queues.map (fun e => e.2.copies)).flatten ++ s.sw.tx.map (fun e => e.2.copy)).filter
      (fun c => decide (0 < c.hd) && (match pktOf s c.pkt with
        | some k => k.pg == pg
        | none => false))
    let step := fun (acc : Nat × State) (c : Copy) =>
      let m := min acc.1 c.hd
      let s := modQueue c.queue (fun u => { u with hd := u.hd - m, sh := u.sh + m }) acc.2
      let s := pgAdd pg m 0 (pgSub pg 0 m { s with sw.shared := s.sw.shared + m })
      let f := fun (x : Copy) => if x = c then { x with hd := x.hd - m, sh := x.sh + m } else x
      (acc.1 - m, { s with
        sw.queues := s.sw.queues.map (fun e => (e.1, { e.2 with copies := e.2.copies.map f }))
        sw.tx := s.sw.tx.map (fun e => (e.1, { e.2 with copy := f e.2.copy })) })
    (cs.foldl step (over_, s)).2

/-- A bucket whose rate or depth changed (R283): full under ON_CHANGE, else empty. Values are those in force. -/
def resetPeak (q : Nat) (s : State) : State :=
  let v : Int := if fv s 7 6 q 48 1 = 1 then 0 else (shpPbs s q * 8000 : Nat)
  modQueue q (fun k => { k with peakUsed := v }) s

def resetComm (q : Nat) (s : State) : State :=
  let v : Int := if fv s 7 6 q 48 1 = 1 then 0 else (shpCbs s q * 8000 : Nat)
  modQueue q (fun k => { k with commUsed := v }) s

def resetPol (e : Nat) (s : State) : State :=
  let v : Int := if fv s 7 9 e 1 1 = 1 then 0 else (fv s 7 0xA e 0 24 * 8000 : Nat)
  { s with sw.pol := kmod policerReset s.sw.pol e (fun p => { p with used := v }) }

/-- What a change of one switch-core or traffic-manager object from `old` to `new` does beside the new value in force. -/
def applySwitchObj (o : Obj) (old new : Nat) (s : State) : State :=
  let sub := objSub o
  let fld := objFld o
  let i := objIdx o
  if sub = 6 && fld = 4 then shrinkGuarantee i s
  else if sub = 6 && fld = 7 then shrinkHeadroom i s
  else if sub = 7 && fld = 1 then modQueue i (fun k => { k with deficit := 0 }) (resetPeak i (resetComm i s))
  else if sub = 7 && fld = 4 then resetComm i s
  else if sub = 7 && fld = 5 then resetPeak i s
  else if sub = 7 && fld = 6 then
    let s := if bitsOf old 0 24 ≠ bitsOf new 0 24 then resetComm i s else s
    if bitsOf old 24 24 ≠ bitsOf new 24 24 then resetPeak i s else s
  else if sub = 7 && fld = 9 then (if bitsOf old 2 19 ≠ bitsOf new 2 19 then resetPol i s else s)
  else if sub = 7 && fld = 0xA then resetPol i s
  else s

/-! ### Checks of a commit (R242, R269, R275, R282, R303) -/

/-- The objects of a field that are not at reset. -/
def cfgIdx (s : State) (sub fld : Nat) : List Nat :=
  (s.ctl.cfg.filter (fun e => objSub e.1 == sub && objFld e.1 == fld)).map (fun e => objIdx e.1)

def alphaIsBad (v : Nat) : Bool := v == 4

/-- The checks of Table 10.8's fields over the resulting configuration. -/
def switchCfgOk (s : State) : Bool :=
  let qm := sumField s 6 4 0 12
  let hd := sumField s 6 7 32 16
  decide (qm + hd + 65536 ≤ 344064) && decide (contReserve s * 8 ≤ sharedSize s)
    && (List.range 8).all (fun c =>
        let e := signedOf 3 (fv s 6 2 c 0 3)
        !alphaIsBad (fv s 6 2 c 0 3) && !alphaIsBad (fv s 6 3 c 0 3) && !alphaIsBad (fv s 6 3 c 4 3)
          && decide (signedOf 3 (fv s 6 3 c 0 3) ≤ e) && decide (e ≤ signedOf 3 (fv s 6 3 c 4 3)))
    && (cfgIdx s 6 7).all (fun pg => pgXoff s pg == 0 || decide (pgXon s pg < pgXoff s pg))
    && (cfgIdx s 6 0xC).all (fun g => decide (fv s 6 0xC g 0 17 + fv s 6 0xC g 17 10 ≤ 131072))
    && ((cfgIdx s 1 7 ++ cfgIdx s 6 8)).all (fun p => pauseMode s p == 0 || !isPort s p ||
        decide (fv s 6 8 p 16 16 * 1024 * portMbps s p < fv s 6 8 p 0 16 * 512 * 1000))

/-- The checks of Table 11.4's fields over the resulting configuration (R275, R282). -/
def tmCfgOk (s : State) : Bool :=
  let tq := (cfgIdx s 7 1).filter (fun q => fv s 7 1 q 7 1 == 1)
  let shp := dedupN (cfgIdx s 7 4 ++ cfgIdx s 7 5 ++ cfgIdx s 7 6)
  let pol := dedupN (cfgIdx s 7 9 ++ cfgIdx s 7 0xA)
  let bad := fun p t =>
    let q := fv s 7 8 (p * 8 + t) 0 17
    if q < 512 then q / 4 != p else queuePort s q != some p
  tq.all (fun q => isPort s (fv s 7 1 q 0 7))
    && (dedupN (tq.map (fun q => fv s 7 1 q 0 7))).all (fun p =>
        decide ((tq.filter (fun q => fv s 7 1 q 0 7 == p)).length ≤ 4096))
    && ((cfgIdx s 7 8)).all (fun i => !bad (i / 8) (i % 8))
    && shp.all (fun q => decide (shpCir s q ≤ shpPir s q) && (decide (512 ≤ q) || shpCir s q == 0)
        && decide (shpPir s q * 1024 ≤ shpPbs s q * 8000) && decide (shpCir s q * 1024 ≤ shpCbs s q * 8000))
    && pol.all (fun e => decide (fv s 7 9 e 2 19 * 1024 ≤ fv s 7 0xA e 0 24 * 8000))

/-- R303. -/
def poolCfgOk (s : State) : Bool :=
  poolGib s 3 + poolGib s 4 + poolGib s 5 == (if s.small then 20 else 40)
    && (List.range 7).all (fun pool =>
        (List.range 16).all (fun a => decide (rsvMin s a pool ≤ acctMax s a pool)
          && (rsvMin s a pool == 0 || (acctPools a).contains pool))
        && decide (sumAccts (fun a => rsvMin s a pool) ≤ poolSize s pool))

/-- Arbiter and HBM checks (R325, R329). -/
def hbmCfgOk (s : State) : Bool :=
  (List.range 6).all (fun k =>
    (List.range 6).foldl (fun a c => a + arbWeight s k c) 0 == 256 && decide (141 ≤ arbWeight s k 0)
      && decide (fv s 9 3 k 8 6 < fv s 9 3 k 0 6) && decide (fv s 9 3 k 0 6 ≤ 60)
      && (fv s 9 5 k 0 24 == 0 || decide (4096 ≤ fv s 9 5 k 0 24)))

/-- Table 19.1's events. -/
def perfEvents : List Nat :=
  [0x0000, 0x0001, 0x0101, 0x0102, 0x0103, 0x0201, 0x0202, 0x0203, 0x0301, 0x0302, 0x0401, 0x0402, 0x0403, 0x0601, 0x0602,
   0x0701, 0x0702, 0x0801, 0x0802, 0x0901, 0x0902, 0x0A01, 0x0A02, 0x0B01, 0x0C01, 0x0D01, 0x0E01, 0x1001, 0x1002, 0x1003]

/-- R433, R436. -/
def perfCfgOk (s : State) : Bool :=
  (cfgIdx s 15 1).all (fun c => perfEvents.contains (fv s 15 1 c 0 16))
    && (dedupN (cfgIdx s 15 3 ++ cfgIdx s 15 4)).all (fun c => decide (fv s 15 3 c 0 40 ≤ fv s 15 4 c 0 40))

/-! ### Commands of the switch core (R270) -/

def ports128 (f : Nat → Bool) : Nat := (List.range 128).foldl (fun a p => if f p then a + 2 ^ p else a) 0

def opScStatusRead : Op := readOp 0x0600 [0, 2, 3] 64 [] okArg anyTenant (fun _ s =>
  let alpha := (List.range 8).foldl (fun a c => a + fv s 6 2 c 0 3 * 16 ^ c) 0
  let hd := s.sw.prio.foldl (fun a e => a + e.2.hdrm) 0
  let two := fun (f : ScPipe → Nat) => ((List.range 4).map (fun i => leBytes 2 (f (pipeState s i)))).flatten
  (s, outData 64 (leBytes 4 (sharedSize s) ++ leBytes 4 s.sw.shared ++ leBytes 4 hd ++ leBytes 4 alpha
    ++ two (fun p => p.staging) ++ two (fun p => p.allowance) ++ leBytes 16 (ports128 (portFlushing s)) ++ zerosB 16)))

def opScStatsRead : Op := readOp 0x0601 [0, 2, 3] 288 [] okArg anyTenant (fun _ s =>
  let pipe := fun i =>
    let p := pipeState s i
    ([p.stageDrop, p.recircNobuf, p.holdNobuf, p.mcDrop, p.mcPrune, p.logDropRate, p.logDropFull, p.logOvf].map
      (fun c => leBytes 8 c.toNat)).flatten
  (s, outData 288 (((List.range 4).map pipe).flatten ++ leBytes 8 s.sw.soundSamples.toNat ++ leBytes 8 s.sw.soundLost.toNat
    ++ leBytes 8 s.sw.reclaimed.toNat ++ zerosB 8)))

/-- FIRST at 16 and COUNT at 17, 1 byte each, over 128 ports. -/
def firstCountPorts (size : Nat) (p : CmdPkt) : Bool :=
  let n := par p 17 1
  decide (1 ≤ n) && decide (n ≤ 128) && decide (par p 16 1 + n ≤ 128) && decide (n * size ≤ p.paramLen.toNat)

def opScPortStatsRead : Op := readOp 0x0602 [0, 2, 3] 64 [(16, 2)] (fun _ p => argIf (firstCountPorts 64 p)) anyTenant (fun p s =>
  let one := fun i =>
    let c := kget scPortReset s.sw.portCnt (par p 16 1 + i)
    ([c.admitDrop, c.hdrmDrop, c.downDrop, c.flushDrop, c.isoDrop, c.badDiscard, c.ctUnderrun, c.contFail].map
      (fun v => leBytes 8 v.toNat)).flatten
  (s, outData (par p 17 1) (((List.range (par p 17 1)).map one).flatten)))

/-- Log: DEDUCED, log entry 52. -/
def opCaptureRingSet : Op :=
  actOp 0x0610 [0] .none ringUsed (fun _ p => argIf (ringSetArg 4 p))
    (fun _ p => [oid 6 0x100 (par p 16 1)]) (fun p s =>
    let i := par p 16 1
    match ringSet p (capRing s i) with
    | none => (s, outErr stBUSY)
    | some r =>
      let s := { s with sw.rings := setAt s.sw.rings i r }
      -- a disabled Sounding ring loses the samples that wait (R266, R267)
      (if i = 4 && !r.enable then soundDrop s else s, outOk i))

/-! ### Commands of the traffic manager (R290) -/

def tmArg (limit size : Nat) (p : CmdPkt) : Bool :=
  let n := par p 20 2
  decide (1 ≤ n) && decide (n ≤ 4096) && decide (par p 16 4 + n ≤ limit) && decide (n * size ≤ p.paramLen.toNat)

/-- Ring 1 sees zeros outside its tenant set. -/
def tmQueueSeen (s : State) (p : CmdPkt) (q : Nat) : Bool :=
  authOf s p.src != 1 || (decide (512 ≤ q) && (tenantsOf s p.src).contains (fv s 7 2 q 0 24))

def tmRead (code limit size : Nat) (seen : State → CmdPkt → Nat → Bool) (f : State → Nat → Bytes) : Op :=
  readOp code [0, 1, 2, 3] size [(16, 6)] (fun _ p => argIf (tmArg limit size p)) anyTenant (fun p s =>
    let one := fun i =>
      let q := par p 16 4 + i
      if seen s p q then f s q else zerosB size
    (s, outData (par p 20 2) (((List.range (par p 20 2)).map one).flatten)))

def opTmSampleRead : Op := tmRead 0x0700 131072 16 tmQueueSeen sampleRead

def opTmQstatsRead : Op := tmRead 0x0701 131072 16 tmQueueSeen (fun s q =>
  leBytes 8 (queueOf s q).txFrames.toNat ++ leBytes 8 (queueOf s q).txOctets.toNat)

def opTmPolRead : Op := tmRead 0x0702 262144 24
  (fun s p e => authOf s p.src != 1 || (tenantsOf s p.src).contains (fv s 12 2 e 0 24))
  (fun s e => leBytes 8 (ofSigned 64 (polTokens s e)) ++ leBytes 8 (polOf s e).dropFrames.toNat
    ++ leBytes 8 (polOf s e).dropOctets.toNat)

def opTmStatsRead : Op := readOp 0x0703 [0, 2, 3] 64 [] okArg anyTenant (fun _ s =>
  (s, outData 64 (leBytes 8 s.sw.unassigned.toNat ++ leBytes 8 s.sw.noDest.toNat ++ leBytes 8 s.sw.polFrames.toNat
    ++ leBytes 8 s.sw.polOctets.toNat ++ zerosB 32)))

/-! ### Commands of the pools (R301, R304) -/

def opPoolStatsRead : Op := readOp 0x0800 [0, 2, 3] 448 [] okArg anyTenant (fun _ s =>
  let one := fun pool =>
    let c := kget poolCountsReset s.pools.cnt pool
    leBytes 4 (poolSize s pool) ++ leBytes 4 (poolShared s pool) ++ leBytes 4 (poolSharedUse s pool)
      ++ leBytes 4 (poolFreeCount s pool)
      ++ ([c.allocs, c.frees, c.nobuf, c.doubleFree, c.foreignFree, c.sizeRefused].map (fun v => leBytes 8 v.toNat)).flatten
  (s, outData 7 (((List.range 7).map one).flatten)))

def opPoolAcctRead : Op := readOp 0x0801 [0, 2, 3] 1792 [] okArg anyTenant (fun p s =>
  let one := fun a pool =>
    let u := acctUse s a pool
    leBytes 4 u.use ++ leBytes 4 u.high ++ leBytes 8 u.nobuf.toNat
  let d := ((List.range 16).map (fun a => ((List.range 7).map (one a)).flatten)).flatten
  let t := if authOf s p.src = 2 then s
    else
      let m := s.pools.acct.map (fun e => (e.1, { e.2 with high := e.2.use }))
      { s with pools.acct := m.filter (fun e => decide (e.2 ≠ acctUseReset)) }
  (t, outData 112 d))

def ownerOkAlloc (o : Nat) : Bool := o == 0x250 || (decide (0x200 ≤ o) && decide (o ≤ 0x203))

def opPoolAlloc : Op :=
  actOp 0x0802 [0] .none [(16, 1), (18, 2)]
    (fun _ p => argIf (decide (3 ≤ par p 16 1) && decide (par p 16 1 ≤ 5) && ownerOkAlloc (par p 18 2))) noClaims (fun p s =>
      let o := par p 18 2
      match poolTake o (acctOf o) (par p 16 1) s with
      | (some r, s) => (s, outOk r)
      | (none, s) => (s, outErr stNOBUF))

/-- A host free is refused with the status that its cause has: BADARG for a reference out of range, NOTFOUND for a buffer
that is not allocated, DENIED for one of another owner. -/
def opPoolFree : Op :=
  actOp 0x0803 [0] .none [(16, 4)] okArg (fun _ p => [oid 8 0x100 (par p 16 4)]) (fun p s =>
    match poolFree 11 (par p 16 4) (fun o => o == 0x250) s with
    | (none, s) => (s, outOk (par p 16 4))
    | (some .double, s) => (s, outErr stNOTFOUND)
    | (some .foreign, s) => (s, outErr stDENIED)
    | (some .range, s) => (s, outErr stBADARG))

def opPoolOwnerRead : Op := readOp 0x0804 [0, 3] 0 [(16, 4)]
  (fun s p =>
    let r := par p 16 4
    argIf (refPool r != 7 && decide (refIdx r < poolSize s (refPool r)))) anyTenant (fun p s =>
    match kfind s.pools.alloc (par p 16 4) with
    | some o => (s, outOk (o + 2 ^ 12))
    | none => (s, outOk 0))

/-! ### Performance counters and Monarch (R437, R444) -/

def perfOf (s : State) (c : Nat) : PerfCounter := kget perfCounterReset s.perf.counters c

/-- Step 4: values and flags are latched (R437). (Log: DEDUCED, log entry 70.) -/
def perfLatch (s : State) : State :=
  let latch := fun (k : PerfCounter) =>
    { k with latch := k.value, latchOvf := k.ovf, latchHit := k.hit, cleared := false, oldEvent := none }
  let m := s.perf.counters.map (fun e => (e.1, latch e.2))
  { s with perf.counters := m.filter (fun e => decide (e.2 ≠ perfCounterReset)) }

/-- The counter found with bad parity keeps counting (R438). -/
def perfParity (cs : List (BitVec 8)) (s : State) : State :=
  cs.foldl (fun s c => { s with
    perf.counters := kmod perfCounterReset s.perf.counters c.toNat (fun k => { k with bad := true }) }) s

/-- The packet-path cycles of the Fix that ends, at 1.5 GHz (Table 19.1). -/
def perfCycles (s : State) : State := perfEvent 0x0000 5 0 0 0 1536 s

/-- A counter's value at this instant: one that counts cycles has those of the Fix so far (Table 19.1, R438). -/
def perfLive (s : State) (c : Nat) : U64 :=
  (perfOf s c).value + (if perfAdmits s c 0x0000 5 0 0 0 then BitVec.ofNat 64 (s.clock.sub.toNat * 3 / 2) else 0)

/-- A clearing read: what the latch held leaves the counter; several in one sample clear once. -/
def perfClear (k : PerfCounter) : PerfCounter :=
  if k.cleared then k
  else { k with value := k.value - k.latch, ovf := k.ovf && !k.latchOvf, hit := k.hit && !k.latchHit, bad := false,
                cleared := true }

/-- PERF_READ (R437, R444). Ring 2 may not clear: the sender's right is judged at check 2 of R72 (R77). (Log: DEDUCED, log entry 70.) -/
def opPerfRead : Op := readOp 0x0F00 [0, 2, 3] 16 [(16, 5)]
  (fun _ p =>
    let n := par p 18 2
    argIf (decide (par p 16 2 ≤ 255) && decide (1 ≤ n) && decide (n ≤ 256) && decide (par p 16 2 + n ≤ 256)
        && decide (par p 20 1 ≤ 1) && decide (n * 16 ≤ p.paramLen.toNat)))
  (fun s p => !(par p 20 1 == 1 && authOf s p.src == 2)) (fun p s =>
    let ids := (List.range (par p 18 2)).map (fun i => par p 16 2 + i)
    let one := fun c =>
      let k := perfOf s c
      leBytes 8 k.latch.toNat ++ [byteN (b2n k.latchOvf + 2 * b2n k.bad + 4 * b2n k.latchHit), 0]
        ++ leBytes 2 (k.oldEvent.getD (fv s 15 1 c 0 16)) ++ zerosB 4
    let t := if par p 20 1 = 1 then
        let m := s.perf.counters.map (fun e => if ids.contains e.1 then (e.1, perfClear e.2) else e)
        { s with perf.counters := m.filter (fun e => decide (e.2 ≠ perfCounterReset)) }
      else s
    (t, outData (par p 18 2) ((ids.map one).flatten)))

/-- Log: DEDUCED, log entry 52. -/
def opMonRingSet : Op :=
  actOp 0x0F01 [0, 3] .none ringUsed (fun _ p => argIf (ringSetArg 0 p)) (fun _ _ => [oid 15 0x100 0]) (fun p s =>
    match ringSet p s.perf.ring with
    | none => (s, outErr stBUSY)
    | some r => ({ s with perf.ring := r }, outOk 0))

def opMonStatsRead : Op := readOp 0x0F02 [0, 2, 3] 64 [] okArg anyTenant (fun _ s =>
  (s, outData 64 (([s.perf.tagged, s.perf.skipped, s.perf.storeFull, s.perf.monLost, s.perf.delivered].map
    (fun c => leBytes 8 c.toNat)).flatten ++ zerosB 24)))

/-- A change of any field of a counter but PERF_THRESH sets it and its flags to 0 (R436). What step 4 latched, and the event selected
then, stay for the reads of the boundary (R437). -/
def applyPerfObj (o : Obj) (old : Nat) (s : State) : State :=
  if objSub o = 15 && objFld o ≤ 4 then
    { s with perf.counters := kmod perfCounterReset s.perf.counters (objIdx o) (fun k => { perfCounterReset with
        latch := k.latch, latchOvf := k.latchOvf, latchHit := k.latchHit, cleared := true
        oldEvent := if objFld o = 1 then k.oldEvent.orElse (fun _ => some (bitsOf old 0 16)) else k.oldEvent }) }
  else s

/-- One interrupt for the counters that crossed their threshold in the Fix before (R435). -/
def perfIrq (s : State) : State :=
  let hit := s.perf.counters.any (fun e => e.2.crossed)
  let s := { s with perf.counters := s.perf.counters.map (fun e => (e.1, { e.2 with crossed := false })) }
  if hit && fv s 15 0x10 0 6 1 == 1 then sendMsix (BitVec.ofNat 6 (fv s 15 0x10 0 0 6)) s else s

end Sys2Proof.Machine
end

