-- ==== Sys2Proof/Machine/Ports.lean ====
section
/-! DEFINITION. The port state machine, port fields and port counters (chapter 4, R454). -/

namespace Sys2Proof.Machine

open Sys2Proof

/-- The first enabled step of a port (Table 4.3). -/
def firstStep (s : State) (p : Nat) : PortState :=
  if fv s 1 5 p 0 1 = 1 then .negotiate else if fv s 1 5 p 1 1 = 1 then .train else .align

/-- The port starts again from its first enabled step. -/
def portRestart (p : Nat) (s : State) : State :=
  let st := firstStep s p
  modPort p (fun k => { k with st := st, loss := false, aligned := false, holdDone := false, lane := 0, faultNow := 0 }) s

/-- MAC_STICKY and the present faults of a loss: 0 alignment or block lock, 1 Local Fault, 2 Remote Fault. -/
def lossMark (p : Nat) (kind : Fin 3) (s : State) : State :=
  let s := stickPort p (if kind.val = 0 then 2 else kind.val - 1) s
  modPort p (fun k => { k with
    lane := if kind.val = 0 then k.lane &&& 0x3 else k.lane
    faultNow := if kind.val = 0 then k.faultNow else k.faultNow ||| (1 <<< (kind.val - 1)) }) s

/-- LINK_LOSS: a port in UP detects a loss and enters DOWN_PEND at once; a loss that recurs in DOWN_PEND counts afresh
(R96, R97). (Log: DEDUCED, log entry 29.) -/
def doLinkLoss (port : Fin 128) (ns : BitVec 10) (kind : Fin 3) (s : State) : State :=
  let s := atNs ns s
  let p := port.val
  let now := monoNs s
  if !isPort s p then s
  else match (portOf s p).st with
  | .up =>
    let s := lossMark p kind s
    let s := modPort p (fun k => { k with st := .downPend, loss := true, since := now, holdDone := false }) s
    truncateRx p (loseTx p s)
  | .downPend =>
    let s := lossMark p kind s
    if (portOf s p).loss then s else modPort p (fun k => { k with loss := true, since := now, holdDone := false }) s
  | _ => s

/-- The reference clock of the lane runs (Table 21.5): groups 0 to 7 have REFCLK_SDS0, the others REFCLK_SDS1. -/
def clocked (s : State) (p : Nat) : Bool := s.boot.refclk.getLsbD (p / 64)

/-- ALIGNMENT_ACQUIRED: alignment and block lock on every lane, no fault received (R96). -/
def doAlignmentAcquired (port : Fin 128) (ns : BitVec 10) (s : State) : State :=
  let s := atNs ns s
  let p := port.val
  let now := monoNs s
  if !isPort s p || !clocked s p || !serdesOn s p then s
  else match (portOf s p).st with
  | .align =>
    if (portOf s p).aligned then s
    else modPort p (fun k => { k with aligned := true, since := now, holdDone := false, lane := 0xF, faultNow := 0 }) s
  | .downPend => modPort p (fun k => { k with loss := false, holdDone := false, lane := 0xF, faultNow := 0 }) s
  | _ => s

/-- ALIGN_LOST: alignment is lost in ALIGN before UP_HOLD, and the port restarts from its first enabled step. -/
def doAlignLost (port : Fin 128) (ns : BitVec 10) (kind : Fin 3) (s : State) : State :=
  let s := atNs ns s
  if isPort s port.val && (portOf s port.val).st == .align then portRestart port.val (lossMark port.val kind s) else s

def downHeld (s : State) (p : Nat) : Bool :=
  (portOf s p).loss && decide (fv s 1 8 p 0 16 * 1024 ≤ monoNs s - (portOf s p).since)

def upHeld (s : State) (p : Nat) : Bool :=
  (portOf s p).aligned && decide (fv s 1 8 p 16 16 * 1024 ≤ monoNs s - (portOf s p).since)

/-- DOWN_HOLD_EXPIRE: the loss has persisted for DOWN_HOLD; the port leaves UP at the next boundary. -/
def doDownHoldExpire (port : Fin 128) (ns : BitVec 10) (s : State) : State :=
  let s := atNs ns s
  if (portOf s port.val).st == .downPend && downHeld s port.val then modPort port.val (fun k => { k with holdDone := true }) s
  else s

/-- UP_HOLD_EXPIRE: alignment has been stable for UP_HOLD; the port enters UP at the next boundary. -/
def doUpHoldExpire (port : Fin 128) (ns : BitVec 10) (s : State) : State :=
  let s := atNs ns s
  if (portOf s port.val).st == .align && upHeld s port.val then modPort port.val (fun k => { k with holdDone := true }) s
  else s

/-- NEGOTIATE_DONE: Clause 73 completes (R92). -/
def doNegotiateDone (port : Fin 128) (s : State) : State :=
  let p := port.val
  if isPort s p && (portOf s p).st == .negotiate && serdesOn s p then
    let st : PortState := if fv s 1 5 p 1 1 = 1 then .train else .align
    modPort p (fun k => { k with st := st }) s
  else s

/-- TRAIN_DONE: the port enters ALIGN. -/
def doTrainDone (port : Fin 128) (s : State) : State :=
  if isPort s port.val && (portOf s port.val).st == .train && serdesOn s port.val then
    modPort port.val (fun k => { k with st := .align, aligned := false }) s
  else s

/-- TRAIN_FAIL: the port restarts from its first enabled step. -/
def doTrainFail (port : Fin 128) (s : State) : State :=
  if isPort s port.val && (portOf s port.val).st == .train then portRestart port.val s else s

/-! ### Boundaries (R96, R97) -/

/-- The port leaves UP for its first enabled step: LINK_DOWN is counted, and the flush begins. -/
def leaveUp (p : Nat) (s : State) : State :=
  let s := modCnt p (fun c => { c with linkDown := c.linkDown + 1 }) s
  flushStart p (raiseFault fkLINK_DOWN p (portRestart p s))

/-- A port enters or leaves UP. The ports of a SerDes domain without power leave it, and wait in their first enabled step (R96,
R400, R409). -/
def portBoundary (p : Nat) (s : State) : State :=
  match (portOf s p).st with
  | .up => if serdesOn s p then s else leaveUp p s
  | .downPend =>
    if !serdesOn s p then leaveUp p s
    else if !(portOf s p).loss then
      pauseCatchUp p (modCnt p (fun c => { c with linkGlitch := c.linkGlitch + 1 })
        (modPort p (fun k => { k with st := .up }) s))
    else if (portOf s p).holdDone || downHeld s p then leaveUp p s
    else s
  | .align =>
    if !serdesOn s p then portRestart p s
    else if (portOf s p).holdDone || upHeld s p then
      let f := s.clock.fix
      pauseCatchUp p (raiseFault fkLINK_UP p (modPort p (fun k => { k with st := .up, upFix := f, holdDone := false }) s))
    else s
  | .train => if serdesOn s p then s else portRestart p s
  | _ => s

/-- Step 5: ports enter and leave UP. -/
def portsBoundary (s : State) : State := (s.ports.map (fun e => e.1)).foldl (fun s p => portBoundary p s) s

/-- Ports that are DISABLED as a boundary begins have been so since an earlier one (R94). -/
def portsAge (s : State) : State :=
  let m := s.ports.map (fun (e : Nat × Port) => (e.1, if e.2.st == .disabled then { e.2 with idle := true } else e.2))
  { s with ports := m.filter (fun e => decide (e.2 ≠ portReset)) }

/-! ### Effects of configuration (R94, R95, R100) -/

/-- PORT_ENABLE becomes 0: the lanes stop at this boundary (R97). -/
def portDisable (p : Nat) (s : State) : State :=
  let up := portLive s p
  let s := truncateRx p (loseTx p s)
  let s := modPort p (fun k => { k with st := .disabled, idle := false, loss := false, aligned := false, holdDone := false,
                                        lane := 0, faultNow := 0 }) s
  if up then flushStart p (raiseFault fkLINK_DOWN (p + 2 ^ 7) s) else s

/-- PORT_ENABLE becomes 1: the port leaves DISABLED for its first enabled step. -/
def portEnable (p : Nat) (s : State) : State :=
  if (portOf s p).st == .disabled then portRestart p (modPort p (fun k => { k with idle := false }) s) else s

/-- The per-port fields of Table 4.2. -/
def portFields : List Nat := [2, 3, 4, 5, 6, 7, 8, 9, 0xB]

/-- A per-port field is addressed to a number that is a port (R95). (Log: DEDUCED, log entry 17.) -/
def portFieldOk (s : State) (o : Obj) : Bool :=
  !(objSub o == 1 && portFields.contains (objFld o)) || isPort s (objIdx o)

/-- A port group's layout changes: numbers that cease to be ports lose their fields; the group's counters and sticky bits
are cleared (R95, R454). (Log: DEDUCED, log entry 29.) -/
def regroup (g : Nat) (s : State) : State :=
  (List.range 8).foldl (fun s i =>
    let p := 8 * g + i
    let s := if isPort s p then s
      else portFields.foldl (fun s f => { s with ctl.cfg := kdel s.ctl.cfg (oid 1 f p) })
        { s with ports := kdel s.ports p }
    modPort p (fun k => { k with cnt := portCountsReset, sticky := 0 }) s) s

/-- What a change of a port object does beside the value in force. -/
def applyPortObj (o : Obj) (old new : Nat) (s : State) : State :=
  let fld := objFld o
  let i := objIdx o
  if objSub o ≠ 1 then s
  else if fld = 1 then regroup i s
  else if fld = 2 then (if new % 2 = 1 then portEnable i s else portDisable i s)
  else if fld = 7 then
    if bitsOf old 0 2 ≠ bitsOf new 0 2 then modPort i (fun k => { k with pauseEnd := List.replicate 8 none }) s
    else
      let gone := fun t => (bitsOf old 8 8).testBit t && !(bitsOf new 8 8).testBit t
      modPort i (fun k => { k with pauseEnd := (List.range 8).map (fun t =>
        if gone t then none else k.pauseEnd.getD t none) }) s
  else s

/-- The port has no cell queued (R94). -/
def portEmpty (s : State) (p : Nat) : Bool :=
  (portQueues s p).all (fun q => (queueOf s q).copies.isEmpty) && (kfind s.sw.tx p).isNone

def portIdle (s : State) (p : Nat) : Bool := (portOf s p).st == .disabled && (portOf s p).idle

/-- The Must rules of Table 4.2 over the resulting configuration. (Log: DEDUCED, log entry 29.) -/
def portCfgOk (s : State) : Bool :=
  let idx := fun f => (s.ctl.cfg.filter (fun e => objSub e.1 == 1 && objFld e.1 == f)).map (fun e => objIdx e.1)
  let pgs := dedupN (idx 1 ++ (idx 3 ++ idx 4).map (fun p => p / 8))
  (idx 1).all (fun g => let v := objVal s (oid 1 1 g); bitsOf v 0 2 != 0 || v == 0)
    && pgs.all (fun g => (List.range 8).all (fun i =>
      let p := 8 * g + i
      !isPort s p || ((fv s 1 3 p 0 1 == 0 || portProfile s p == 2)
        && (fv s 1 4 p 0 2 == 0 || (portProfile s p == 2 && fv s 1 3 p 0 1 == 1)))))

/-! ### PORT_READ (R101) -/

def portStateByte (s : State) (p : Nat) : Nat :=
  if isPort s p then
    (match (portOf s p).st with
     | .disabled => 0
     | .negotiate => 1
     | .train => 2
     | .align => 3
     | .up => 4
     | .downPend => 5)
  else 0xFF

def portEntry (s : State) (p : Nat) : Bytes :=
  let c := if isPort s p then (portOf s p).cnt else portCountsReset
  [byteN p, byteN (portStateByte s p), byteN (if isPort s p then portMode s p else 0)] ++ zerosB 5
    ++ ([c.rxOctets, c.rxFrames, c.rxFcsErr, c.rxRunt, c.rxOversize, c.rxOverrun, c.rxPause, c.rxInbandDrop, c.txOctets,
         c.txFrames, c.txStomp, c.txOversizeStomp, c.txDropDown, c.txPause, c.fecCorr, c.fecUncorr, c.fecSymbol, c.linkDown,
         c.linkGlitch].map (fun v => leBytes 8 v.toNat)).flatten

def opPortRead : Op := readOp 0x0100 [0, 2, 3] 160 [(16, 2)] (fun _ p => argIf (firstCountPorts 160 p)) anyTenant (fun p s =>
  (s, outData (par p 17 1) (((List.range (par p 17 1)).map (fun i => portEntry s (par p 16 1 + i))).flatten)))

end Sys2Proof.Machine
end

