-- ==== Sys2Proof/Machine/Meridian.lean ====
section
/-! DEFINITION. Meridian (chapter 5): synchronisation, steps, the anchor, captures, pulses, timed-action slots, the minute
action, and its commands. -/

namespace Sys2Proof.Machine

open Sys2Proof

/-! ### Registers of Table 5.1 -/

def merSync (s : State) : Nat :=
  (match s.mer.sync with
   | .freerun => 0
   | .acquire => 1
   | .locked => 2
   | .holdover => 3) + b2n s.mer.utcValid * 2 ^ 8 + b2n s.mer.leap61 * 2 ^ 9 + b2n s.mer.leap59 * 2 ^ 10

/-- A signed value saturated to 32 bits. -/
def sat32 (i : Int) : U32 := BitVec.ofInt 32 (max (-2147483648) (min 2147483647 i))

/-! ### Steps (R34, R110, R111) -/

/-- A correction of c ns: whole Fix, rounded to the nearest with a tie toward zero, and the remainder (R34). -/
def splitStep (c : Int) : Int × Int :=
  let k : Int := if 0 ≤ c then ((c.toNat + 511) / 1024 : Nat) else -(((-c).toNat + 511) / 1024 : Nat)
  (k, c - 1024 * k)

/-- The step that a backward correction may take at boundary b without passing M + 1 (R110). -/
def limitStep (s : State) (k : Int) : Int :=
  match s.mer.lastMinute with
  | none => k
  | some m => if k < 0 then max k (-(((s.clock.tai - m) / 1024 - 1 : Nat) : Int)) else k

/-- A number of ns as the remainder to be slewed holds it. -/
def slewOf (ns : Int) : Int := ns * 2 ^ 32

/-- A correction is ordered: its whole Fix land at a boundary, and the rest is slewed. -/
def orderStep (c : Int) (s : State) : State :=
  let k := (splitStep c).1
  { s with clock.stepDue := s.clock.stepDue + k, clock.slew := slewOf (c - 1024 * k) }

/-! ### The addend (R103) -/

/-- 200 ppm of the nominal addend. -/
def addendRange : Nat := 858993

/-- An addend within 200 ppm of nominal (R103). (Log: DEDUCED, log entry 31.) -/
def clampAddend (a : U64) : U64 :=
  BitVec.ofNat 64 (max (2 ^ 32 - addendRange) (min (2 ^ 32 + addendRange) a.toNat))

/-- What slewing adds to the servo's addend: as much of the remainder as one Fix works off, within 200 ppm of nominal. (Log: DEDUCED,
log entry 31.) -/
def slewPart (s : State) : Int :=
  let base : Int := (s.clock.servo.toNat : Int) - 2 ^ 32
  let need : Int := ((s.clock.slew.natAbs + 1023) / 1024 : Nat)
  if 0 < s.clock.slew then min need (max 0 ((addendRange : Int) - base))
  else -(min need (max 0 ((addendRange : Int) + base)))

/-- The addend follows the servo and the remainder; in LOCKED a change joins the history of the last 16 s (Table 5.3). -/
def steer (s : State) : State :=
  let a := BitVec.ofInt 64 ((s.clock.servo.toNat : Int) + slewPart s)
  let now := monoNs s
  let hist := if s.mer.sync ≠ .locked then []
    else if a = s.clock.addend then s.mer.addends
    else (now, a.toNat) :: s.mer.addends.takeWhile (fun e => decide (now - e.1 < 16000000000))
  { s with clock.addend := a, mer.addends := hist }

/-- The servo takes an addend (R103). -/
def setAddend (a : U64) (s : State) : State := steer { s with clock.servo := clampAddend a }

/-- The part of the remainder that the Fix just ended has worked off (R103). -/
def slewStep (s : State) : State :=
  let gain : Int := 1024 * ((s.clock.addend.toNat : Int) - (s.clock.servo.toNat : Int))
  let left := if s.clock.slew.natAbs ≤ gain.natAbs then 0 else s.clock.slew - gain
  steer { s with clock.slew := left }

/-- An addend is held: nothing is slewed any more (Table 5.3, HOLDOVER and FREERUN). -/
def holdAddend (a : U64) (s : State) : State := { s with clock.addend := a, clock.servo := a, clock.slew := 0, mer.addends := [] }

/-- The step lands: Fix numbers and time move by k Fix, and Binnacle owes an anchor and a message (R104, R111). The part
that R110 cuts off is slewed. -/
def landStep (s : State) : State :=
  let k := limitStep s s.clock.stepDue
  let cut := s.clock.stepDue - k
  let s := { s with clock.stepDue := 0, clock.slew := s.clock.slew + slewOf (1024 * cut) }
  if k = 0 then s
  else { s with
    clock.fix := BitVec.ofInt 22 (fixN s + k)
    clock.tai := ((s.clock.tai : Int) + 1024 * k).toNat
    mer.anchorDue := true
    mer.stepsToReport := s.mer.stepsToReport ++ [k]
    mer.stepped := true }

/-! ### The servo (Table 5.3, R109) -/

def syncMsg (kind : FaultKind) (s : State) : State := raiseFault kind 0 s

/-- The mean of the addends of the last 16 s, weighted by time: entries newest first, the end of the newest one. (Log: DEDUCED, log entry 31.) -/
def weighAddends (lo : Nat) : Nat → List (Nat × Nat) → Nat → Nat × Nat
  | _, [], acc => (acc, 0)
  | fin, (t, a) :: rest, acc =>
    if fin ≤ lo then (acc, 0)
    else
      let t' := max t lo
      let r := weighAddends lo t' rest (acc + a * (fin - t'))
      (r.1, r.2 + (fin - t'))

/-- Log: DEDUCED, log entry 31. -/
def meanAddend (s : State) : U64 :=
  let now := monoNs s
  let r := weighAddends (now - 16000000000) now s.mer.addends 0
  if r.2 = 0 then s.clock.addend else BitVec.ofNat 64 (r.1 / r.2)

/-- The state is one in which PPS_OUT pulses (R114). -/
def synced (s : State) : Bool := s.mer.sync == .locked || s.mer.sync == .holdover

/-- PPS_OUT is low unless it is enabled and the state is LOCKED or HOLDOVER (R114). -/
def ppsGate (s : State) : State := if fv s 11 4 0 0 1 = 1 ∧ synced s then s else { s with mer.ppsOut := false }

/-- LOCKED is lost: the addend is held at the mean of the last 16 s (Table 5.3, R111). -/
def enterHoldover (s : State) : State :=
  let a := meanAddend s
  syncMsg fkSYNC_LOST (holdAddend a { s with
    mer.sync := .holdover, mer.heldAddend := a, mer.holdoverStart := monoNs s,
    mer.masterSelected := false, mer.masterOffset := 0, mer.goodSyncs := 0 })

/-- The master is lost before LOCKED: the addend is nominal, or the one that the last holdover held (Table 5.3). -/
def enterFreerun (s : State) : State :=
  holdAddend s.mer.heldAddend { s with mer.sync := .freerun, mer.masterSelected := false, mer.masterOffset := 0, mer.goodSyncs := 0 }

/-- One measured offset from the reference (Table 5.3). -/
def takeOffset (o : Int) (s : State) : State :=
  let th := fv s 11 2 0 0 31
  let mag := o.natAbs
  let s := { s with mer.offsetNs := sat32 o }
  match s.mer.sync with
  | .acquire =>
    if th < mag then orderStep (-o) { s with mer.goodSyncs := 0 }
    else
      let s := { s with clock.slew := slewOf (-o) }
      if mag ≤ 100 then
        if 15 ≤ s.mer.goodSyncs then
          syncMsg fkSYNC_LOCKED { s with mer.sync := .locked, mer.goodSyncs := 0, mer.addends := [(monoNs s, s.clock.addend.toNat)] }
        else { s with mer.goodSyncs := s.mer.goodSyncs + 1 }
      else { s with mer.goodSyncs := 0 }
  | .locked =>
    if th < mag then ppsGate { s with mer.sync := .acquire, mer.goodSyncs := 0, mer.addends := [] }
    else { s with clock.slew := slewOf (-o) }
  | _ => s

/-- A reference is there: FREERUN and HOLDOVER give way to ACQUIRE. -/
def gainReference (s : State) : State :=
  match s.mer.sync with
  | .freerun => { s with mer.sync := .acquire, mer.goodSyncs := 0 }
  | .holdover => ppsGate { s with mer.sync := .acquire, mer.goodSyncs := 0 }
  | _ => s

/-- PPS_IN disciplines the servo (R116). -/
def ppsDiscipline (s : State) : Bool := fv s 11 5 0 0 2 == 2

/-- What Binnacle takes from a message. While PTP runs, offset and flags follow the master (R127). (Log: DEDUCED, log entry 31.) -/
def servoTake (v : ServoIn) (s : State) : State :=
  let s := { s with mer.masterSelected := v.selected, mer.masterId := if v.selected then v.masterId else 0,
                    mer.pathDelay := v.pathDelay }
  if v.selected then
    let same := v.utcOffset == s.mer.utcOffset && v.leap61 == s.mer.leap61 && v.leap59 == s.mer.leap59
    let s := { s with mer.leapTaken := s.mer.leapTaken && same, mer.masterOffset := (v.offset.map BitVec.toInt).getD s.mer.masterOffset }
    let s := { s with mer.utcOffset := v.utcOffset, mer.utcValid := v.utcValid, mer.leap61 := v.leap61, mer.leap59 := v.leap59 }
    let s := if ppsDiscipline s then s else gainReference s
    match v.offset with
    | some o => if ppsDiscipline s then s else setAddend v.addend (takeOffset o.toInt s)
    | none => s
  else if s.mer.sync = .acquire ∧ !ppsDiscipline s then enterFreerun s
  else { s with mer.masterOffset := 0 }

/-- PTP_MESSAGE_RECEIVED: a message of the configured transport and domain is taken from the pipeline to Binnacle; under
the transparent clock the frame goes on, and an event message has its residence time added at egress (R107). -/
def doPtpMessageReceived (port : Fin 128) (pk : Nat) (servo : Option ServoIn) (s : State) : State :=
  let p := port.val
  match pktOf s pk with
  | none => s
  | some k =>
    if k.port ≠ p ∨ !isWhole k ∨ k.tail ≠ .good ∨ k.stage ≠ .ingress then s
    else match ptpOurs s p k.rx with
      | none => s
      | some (o, _) =>
        if clockMode s = 3 then putPkt pk { k with ptp := ptpEvent k.rx o } s
        else
          let t := freePkt pk k s
          match servo with
          | some v => if ptpServes s k.rx o then servoTake v t else t
          | none => t

/-- Binnacle's frame: destination, PORT_MAC, the headers of the transport and the message. (Log: DEDUCED, log entry 31.) -/
def ptpFrame (s : State) (p : Nat) (dst : BitVec 48) (hdr msg : Bytes) : Bytes :=
  beBytes 6 dst.toNat ++ portMacB s p ++ hdr ++ msg

/-- PTP_MESSAGE_SEND (R106, R107). -/
def doPtpMessageSend (port : Fin 128) (dst : BitVec 48) (hdr msg : Bytes) (s : State) : State :=
  let f := ptpFrame s port.val dst hdr msg
  if ptpSends s port.val f then originate port.val (withFcs f) s else s

/-- The frame carries a Follow_Up. -/
def isFollowUp (f : Bytes) : Bool :=
  match ptpHeader f with
  | some (_, o, _) => ptpType f o == 8
  | none => false

/-- FOLLOW_UP_SEND: in two-step operation, the oldest Sync sent on the port without a Follow_Up gets one (R108). -/
def doFollowUpSend (port : Fin 128) (dst : BitVec 48) (hdr msg : Bytes) (s : State) : State :=
  let p := port.val
  match s.mer.followUps.find? (fun e => e.1 == p) with
  | none => s
  | some (_, tai) =>
    let s := { s with mer.followUps := s.mer.followUps.erase (p, tai) }
    let f := ptpFrame s p dst hdr msg
    if ptpSends s p f && isFollowUp f then originate p (withFcs (ptpStamp tai f)) s else s

/-- SYNC_TIMEOUT: announce timeout, or no Sync for four intervals (R111). -/
def doSyncTimeout (s : State) : State :=
  match s.mer.sync with
  | .locked => enterHoldover s
  | .acquire => enterFreerun s
  | _ => { s with mer.masterSelected := false, mer.masterOffset := 0 }

/-- HOLDOVER_LIMIT_EXPIRE (R111). -/
def doHoldoverLimitExpire (s : State) : State :=
  if s.mer.sync = .holdover ∧ fv s 11 3 0 0 16 * 1000000000 ≤ monoNs s - s.mer.holdoverStart then
    syncMsg fkHOLDOVER_END (ppsGate { s with mer.sync := .freerun })
  else s

/-- ANCHOR_REWRITE: the anchor is the TAI time at which TIME_NS was last 0; steps are reported after it (R104, R111). -/
def doAnchorRewrite (s : State) : State :=
  if !s.mer.anchorDue then s
  else
    let ks := s.mer.stepsToReport
    let s := { s with
      mer.wrapTai := BitVec.ofNat 64 (s.clock.tai - fixN s * 1024)
      mer.wrapSeq := s.mer.wrapSeq + 1
      mer.anchorDue := false
      mer.stepsToReport := []
      mer.stepCount := BitVec.ofNat 32 (min 0xFFFFFFFF (s.mer.stepCount.toNat + ks.length)) }
    ks.foldl (fun s k => raiseFault fkTIME_STEP (ofSigned 40 k) s) s

/-! ### PPS and captures (R114 to R116) -/

/-- PPS_OUT_RISE. -/
def doPpsOutRise (ns : BitVec 10) (s : State) : State :=
  let s := atNs ns s
  if fv s 11 4 0 0 1 = 1 ∧ synced s ∧ taiNs s % 1000000000 = 0 then { s with mer.ppsOut := true, mer.ppsRise := monoNs s } else s

/-- PPS_OUT_FALL. -/
def doPpsOutFall (ns : BitVec 10) (s : State) : State :=
  let s := atNs ns s
  if s.mer.ppsOut ∧ fv s 11 4 0 1 20 * 1000 ≤ monoNs s - s.mer.ppsRise then { s with mer.ppsOut := false } else s

def capOf (s : State) (ch : Nat) : List CapEdge :=
  if ch = 0 then s.mer.cap0 else if ch = 1 then s.mer.cap1 else s.mer.ppsIn

def setCap (ch : Nat) (es : List CapEdge) (s : State) : State :=
  if ch = 0 then { s with mer.cap0 := es } else if ch = 1 then { s with mer.cap1 := es } else { s with mer.ppsIn := es }

/-- An edge is recorded, or dropped and counted (R115). -/
def capture (ch : Nat) (rising : Bool) (s : State) : State :=
  if 64 ≤ (capOf s ch).length then
    raiseFault fkCAP_OVERRUN ch { s with mer.capLost := modAt s.mer.capLost ch (fun n => n + 1) }
  else setCap ch (capOf s ch ++ [{ time := BitVec.ofNat 32 (timeNs s), rising := rising }]) s

/-- TIME_CAP_EDGE. -/
def doTimeCapEdge (ch : Fin 2) (rising : Bool) (ns : BitVec 10) (s : State) : State :=
  let s := atNs ns s
  if (fv s 11 6 0 (2 * ch.val) 2).testBit (if rising then 0 else 1) then capture ch.val rising s else s

/-- The offset of TIME from the whole second that the edge marks: the nearest one of the selected master's time, or without a master of
the time that TIME_SET has given (R116). -/
def secondOffset (s : State) : Int :=
  let r := ((taiNs s : Int) - s.mer.masterOffset) % 1000000000
  s.mer.masterOffset + (if r < 500000000 then r else r - 1000000000)

/-- PPS_IN_EDGE: captured, and in discipline mode the servo's phase reference. -/
def doPpsInEdge (ns : BitVec 10) (addend : U64) (s : State) : State :=
  let s := atNs ns s
  if fv s 11 5 0 0 2 = 0 then s
  else
    let s := { capture 2 true s with mer.ppsLast := monoNs s }
    if ppsDiscipline s then setAddend addend (takeOffset (secondOffset s) (gainReference s)) else s

/-- PPS_IN_MISSING (R116). -/
def doPpsInMissing (s : State) : State :=
  if ppsDiscipline s ∧ s.mer.sync = .locked ∧ 2000000000 ≤ monoNs s - s.mer.ppsLast then enterHoldover s else s

/-! ### Timed-action slots (R117 to R122) -/

def slotOf (s : State) (n : Nat) : TimedSlot := kget timedSlotReset s.mer.slots n

def modSlot (n : Nat) (f : TimedSlot → TimedSlot) (s : State) : State :=
  { s with mer.slots := kset timedSlotReset s.mer.slots n (f (slotOf s n)) }

def setPin (pin : Nat) (level : Bool) (s : State) : State :=
  let m : BitVec 4 := 1 <<< pin
  { s with mer.trig := if level then s.mer.trig ||| m else s.mer.trig &&& ~~~m }

/-- Drive the edges that a test selects, in order of time. -/
def driveEdges (now : PinEdge → Bool) (s : State) : State :=
  let due := sortBy (fun e => e.time) (s.mer.edges.filter now)
  due.foldl (fun s e => setPin e.pin e.level s) { s with mer.edges := s.mer.edges.filter (fun e => !now e) }

/-- At a boundary every edge placed before it has been driven. -/
def edgesPast (s : State) : State := driveEdges (fun e => decide (e.time < monoNs s)) s

/-- TIMED_PULSE_FALL. -/
def doTimedPulseFall (slot : Fin 64) (ns : BitVec 10) (s : State) : State :=
  let s := atNs ns s
  driveEdges (fun e => e.slot == slot.val && decide (e.time ≤ monoNs s)) s

/-- The slot acts on a pin. -/
def isPinKind (k : ActKind) : Bool := k == .pinLevel || k == .pinPulse || k == .pinPeriodic

/-- An accepted pin action places its edges in the Fix of the present boundary (R117). -/
def placeEdges (n late : Nat) (s : State) : State :=
  let t := slotOf s n
  let at_ := s.clock.boundaries * 1024 + (if late = 0 then t.target.toNat % 1024 else 0)
  let e : PinEdge := { slot := n, pin := t.pin, level := t.kind != .pinLevel || t.level == 1, time := at_, fall := false }
  let es := if t.kind = .pinLevel then [e]
    else [e, { slot := n, pin := t.pin, level := false, time := at_ + t.width, fall := true }]
  { s with mer.edges := s.mer.edges ++ es }

/-- The next target of a periodic slot: one period on, or after a forward step the first that keeps the phase (R122). -/
def nextPeriod (t : TimedSlot) (s : State) (late : Nat) : U32 :=
  if late = 0 then t.target + BitVec.ofNat 32 t.period
  else
    let least := max 1024 (t.width + 8)
    let b := fixN s * 1024
    let past := ns32 b t.target.toNat
    let k := (past + least + t.period - 1) / t.period
    t.target + BitVec.ofNat 32 (k * t.period)

/-- The slot ends its action with a status (R46, R119): it frees itself, a periodic one is armed again. FIRE_COUNT and LAST_FIX advance
with every action that ends, a superseded or refused one too: the spec does not say whether they do. (Log: DESIGN CHOICE, log entry
83.) -/
def slotDone (n status rank late : Nat) (s : State) : State :=
  let f := s.clock.fix
  let nt := nextPeriod (slotOf s n) s late
  modSlot n (fun t => { t with
    lastStatus := status, winRank := rank, lastFix := f, fireCount := t.fireCount + 1
    armed := t.kind == .pinPeriodic
    target := if t.kind == .pinPeriodic then nt else t.target }) s

/-! ### Commands -/

def slotClaim (_ : State) (p : CmdPkt) : List Obj := [oid 11 0x102 (par p 16 1)]

def kindOfByte (n : Nat) : ActKind :=
  if n = 1 then .pinLevel else if n = 2 then .pinPulse else if n = 3 then .pinPeriodic else if n = 4 then .set
  else if n = 5 then .commit else .role

/-- The change from the value in force touches bits of another class than LV. -/
def notLv (s : State) (o : Obj) (v : Nat) : Bool :=
  !(objFields o).any (fun f => f.cls == .lv) || changesClass o .st (objVal s o) v || changesClass o .qr (objVal s o) v

/-- Table 5.5's checks of form. -/
def timedArmArg (s : State) (p : CmdPkt) : Nat :=
  let slot := par p 16 1
  let kind := par p 17 1
  let pin := par p 18 1
  let level := par p 19 1
  let tgt := par p 20 4
  let width := par p 24 4
  let period := par p 28 4
  let o := par p 32 8
  let v := par p 40 8
  let noPin := pin = 0 ∧ level = 0 ∧ width = 0 ∧ period = 0
  let noObj := o = 0 ∧ v = 0
  if slot ≤ 1 then stDENIED
  else if 64 ≤ slot then stBADARG
  else if kind = 1 then argIf (decide (pin ≤ 3 ∧ level ≤ 1 ∧ width = 0 ∧ period = 0 ∧ noObj))
  else if kind = 2 then argIf (decide (pin ≤ 3 ∧ level = 0 ∧ 8 ≤ width ∧ width ≤ 1000000000 ∧ period = 0 ∧ noObj))
  else if kind = 3 then
    argIf (decide (pin ≤ 3 ∧ level = 0 ∧ 2048 ≤ period ∧ period ≤ 1000000000 ∧ 8 ≤ width ∧ width + 8 ≤ period ∧ noObj))
  else if kind = 4 then
    argIf (decide noPin && tgt % 1024 == 0 && objExists o && valueOk o v && !notLv s o v)
  else if kind = 5 then argIf (decide (noPin ∧ tgt % 1024 = 0 ∧ o < 2 ^ 32 ∧ v = 0) && groupOk o)
  else if kind = 6 then argIf (decide (noPin ∧ tgt % 1024 = 0 ∧ 1 ≤ o ∧ o ≤ 3 ∧ v ≤ 3))
  else stBADARG

/-- TIMED_ARM (R118, R119). An armed slot is BUSY whatever its new target: the spec does not order this test and those of R118. A SET of a
port field needs a port there (R95). (Log: DESIGN CHOICE, log entry 84.) -/
def opTimedArm : Op :=
  actOp 0x0200 [0] .none [(16, 32)] timedArmArg slotClaim (fun p s =>
    let n := par p 16 1
    let d := ns32 (par p 20 4) (fixN s * 1024)
    if (slotOf s n).armed then (s, outErr stBUSY)
    else if 2 ^ 31 ≤ d then (s, outErr stBADARG)
    else if d < 1024 then (s, outErr stSTALE)
    else if par p 17 1 = 4 && !portFieldOk s (par p 32 8) then (s, outErr stNOTFOUND)
    else
      let s := modSlot n (fun t => { t with
        armed := true, kind := kindOfByte (par p 17 1), pin := par p 18 1, level := par p 19 1,
        target := BitVec.ofNat 32 (par p 20 4), width := par p 24 4, period := par p 28 4, obj := par p 32 8,
        value := BitVec.ofNat 64 (par p 40 8) }) s
      (s, outOk n))

/-- TIMED_CANCEL (R121). -/
def opTimedCancel : Op :=
  actOp 0x0201 [0] .none [(16, 1)]
    (fun _ p => if par p 16 1 ≤ 1 then stDENIED else argIf (decide (par p 16 1 < 64))) slotClaim (fun p s =>
      let n := par p 16 1
      let t := slotOf s n
      if !t.armed then (s, outErr stNOTFOUND)
      else
        let high := t.kind == .pinPeriodic && s.mer.trig.getLsbD t.pin && s.mer.edges.any (fun e => e.slot == n && e.fall)
        let s := modSlot n (fun t => { t with armed := false }) s
        let s := if high then setPin t.pin false { s with mer.edges := s.mer.edges.filter (fun e => e.slot != n) } else s
        (s, outOpen []))

def slotBytes (s : State) (n : Nat) : Bytes :=
  let t := slotOf s n
  [byteN n, byteN (if t.armed then (if t.kind = .pinPeriodic then 2 else 1) else 0), byteN t.lastStatus, byteN t.winRank]
    ++ leBytes 4 t.target.toNat ++ leBytes 4 t.lastFix.toNat ++ leBytes 4 t.fireCount.toNat

def opTimedRead : Op := readOp 0x0202 [0, 2, 3] 1024 [] okArg anyTenant (fun _ s =>
  (s, outOpen (((List.range 64).map (slotBytes s)).flatten)))

/-- TIME_CAP_READ (R116). -/
def opTimeCapRead : Op := readOp 0x0203 [0, 2, 3] 8 [(16, 2)]
  (fun _ p => argIf (decide (par p 16 1 ≤ 2) && decide (1 ≤ par p 17 1) && decide (par p 17 1 ≤ 64)
    && decide (par p 17 1 * 8 ≤ p.paramLen.toNat))) anyTenant (fun p s =>
    let ch := par p 16 1
    let es := (capOf s ch).take (par p 17 1)
    let d := (es.map (fun e => leBytes 4 e.time.toNat ++ [byteN (b2n e.rising), 0, 0, 0])).flatten
    let t := if authOf s p.src = 2 then s else setCap ch ((capOf s ch).drop es.length) s
    (t, outData es.length d))

def holdoverSeconds (s : State) : Nat :=
  if s.mer.sync = .holdover then (monoNs s - s.mer.holdoverStart) / 1000000000 else 0

def opTimeStatus : Op := readOp 0x0204 [0, 1, 2, 3] 32 [] okArg anyTenant (fun _ s =>
  (s, outOpen (leBytes 4 (merSync s) ++ leBytes 2 s.mer.utcOffset.toNat ++ zerosB 2 ++ leBytes 4 s.mer.offsetNs.toNat
    ++ leBytes 4 s.mer.pathDelay.toNat ++ leBytes 4 (holdoverSeconds s) ++ zerosB 4 ++ leBytes 8 s.mer.masterId.toNat)))

/-- TIME_SET (R127): the time given is that of the boundary at which it takes effect, and the correction counts from the time that this
boundary has with the steps ordered before. -/
def opTimeSet : Op :=
  actOp 0x0205 [0] .none [(16, 11)]
    (fun s p => if 4 ≤ par p 26 1 then stBADARG
      else if fv s 11 1 0 0 1 = 1 then stDENIED else argIf (par p 26 1 != 3))
    (fun _ _ => [oid 11 0x100 0]) (fun p s =>
      if fv s 11 1 0 0 1 = 1 then (s, outErr stDENIED)
      else
        let c : Int := (par p 16 8 : Nat) - ((s.clock.tai : Int) + 1024 * s.clock.stepDue)
        let s := { s with mer.leapTaken := false, mer.nextLeap := none }
        let s := { s with mer.utcOffset := BitVec.ofNat 16 (par p 24 2), mer.utcValid := true,
                          mer.leap61 := par p 26 1 % 2 == 1, mer.leap59 := par p 26 1 / 2 == 1 }
        (orderStep c s, outOpen []))

/-! ### The minute action (R123 to R125) -/

/-- TAI − UTC as Binnacle counts minutes: a leap second that has ended its minute counts before the master changes its offset (R123). -/
def planOffset (s : State) : Int :=
  s.mer.utcOffset.toInt + (if !s.mer.leapTaken then 0 else if s.mer.leap61 then 1 else if s.mer.leap59 then -1 else 0)

/-- The minute in hand is one of 61 s and its last second runs (R123). -/
def inInserted (s : State) : Bool :=
  s.mer.leap61 && !s.mer.leapTaken && s.mer.nextLen == 61 && decide (s.clock.tai < s.mer.nextMinuteTai)
    && decide (s.mer.nextMinuteTai ≤ s.clock.tai + 1000000000)

/-- The next minute that begins after the present: its TAI instant, the UTC minute that ends with it, the length of that
minute, and the UTC offset after a leap second at its end (R123). -/
def nextMinute (s : State) : Nat × Nat × Nat × Option U16 :=
  if inInserted s then (s.mer.nextMinuteTai, s.mer.nextMinute, s.mer.nextLen, s.mer.nextLeap)
  else
    let off := planOffset s
    let now : Int := (s.clock.tai / 1000000000 : Nat)
    let u := now - off
    let next := (u / 60 + 1) * 60
    let dayEnd := next % 86400 = 0 ∧ !s.mer.leapTaken
    let leap : Int := if dayEnd ∧ s.mer.leap61 then 1 else if dayEnd ∧ s.mer.leap59 then -1 else 0
    let t := next + off + leap
    ((t * 1000000000).toNat, (next / 60 - 1).toNat, (60 + leap).toNat,
      if leap = 0 then none else some (BitVec.ofInt 16 (off + leap)))

/-- The Fix whose boundary is the first at or after a TAI instant. -/
def fixAtTai (s : State) (t : Nat) : Nat :=
  let d := (t : Int) - s.clock.tai
  let k : Int := (d + 1023) / 1024
  ((fixN s + k) % (2 ^ 22 : Nat)).toNat

/-- Boundaries from the present one to a TAI instant, rounded up. -/
def fixesTo (s : State) (t : Nat) : Nat := (((t : Int) - s.clock.tai + 1023) / 1024).toNat

/-- Arm the minute action for a boundary in the free one of slots 0 and 1; the other is freed if it holds an action. -/
def armMinute (m : Nat) (late : Bool) (s : State) : State :=
  let n := if (slotOf s 0).armed then 1 else if (slotOf s 1).armed then 0 else s.mer.minuteSlot
  let other := 1 - n
  let s := modSlot other (fun t => { t with armed := false }) s
  let s := modSlot n (fun t => { t with armed := true, kind := .minute, pin := 0, level := 0, width := 0, period := 0,
                                        obj := 0, value := 0, target := BitVec.ofNat 32 (m * 1024) }) s
  { s with mer.minuteSlot := other, mer.minuteLate := late, mer.windowAt := none }

/-- Binnacle takes the next minute in hand: the action is armed at the first boundary after the computation, or at the boundary at which
the window of R124 opens (R125). -/
def planMinute (s : State) : State :=
  let (t, num, len, leap) := nextMinute s
  let m := fixAtTai s t
  let free := fun (t : TimedSlot) => { t with armed := false }
  modSlot 0 free (modSlot 1 free { s with
    mer.nextMinuteTai := t
    mer.nextMinute := num
    mer.nextLen := len
    mer.nextLeap := leap
    mer.nextM := fixOf m
    mer.minuteLate := false
    mer.windowAt := some (if 2097152 < fixesTo s t then fixOf (m + 2 ^ 22 - 2097151) else s.clock.fix + 1) })

/-- Slot 0 or 1 holds the action of the minute in hand. -/
def minuteArmed (s : State) (m : Nat) : Bool :=
  [0, 1].any (fun n => (slotOf s n).armed && (s.mer.minuteLate || (slotOf s n).target == BitVec.ofNat 32 (m * 1024)))

/-- The action for the next minute is in place already, or one for a minute that has ended has still to fire. An action whose minute a
step has moved away is not in place (R125). -/
def minuteInHand (s : State) : Bool :=
  let (t, _, _, _) := nextMinute s
  let d := fixesTo s t
  if s.mer.nextMinuteTai = t then
    s.mer.windowAt.isSome || (minuteArmed s (fixAtTai s t) && decide (d ≤ 2097151) && (!s.mer.minuteLate || decide (d < 2)))
  else decide (s.mer.nextMinuteTai ≤ s.clock.tai) && (s.mer.windowAt.isSome || (slotOf s 0).armed || (slotOf s 1).armed)

/-- MINUTE_ARM: Binnacle computes the next minute Fix, for slot 0 or 1 (R125). -/
def doMinuteArm (s : State) : State :=
  if !s.ctl.ready || minuteInHand s then s else planMinute s

/-- The minute action takes effect at this boundary: its slot is free, no backward step may pass the boundary any more (R110), and the
bank flips at step 8. The block carries LATE where the boundary is later than M (R125). -/
def minuteFire (n : Nat) (s : State) : State :=
  let late := s.mer.minuteLate || decide (s.mer.nextMinuteTai + 1024 ≤ s.clock.tai)
  let f := s.clock.fix
  let s := modSlot n (fun t => { t with armed := false, lastStatus := 0, winRank := 0, lastFix := f, fireCount := t.fireCount + 1 }) s
  { s with mer.lastMinute := some s.clock.tai, mer.minuteLate := false, mer.windowAt := none, mer.flipDue := some (f, late) }

/-- Step 8: the banks flip, and a leap second takes effect (R28, R40, R127). -/
def minuteFlip (s : State) : State :=
  match s.mer.flipDue with
  | none => s
  | some (f, late) =>
    let s := meterFlip f s.mer.nextMinute s.mer.nextLen s.mer.stepped late { s with mer.flipDue := none }
    let s := { s with mer.stepped := false }
    match s.mer.nextLeap with
    | some off =>
      if fv s 11 1 0 0 1 = 0 then
        { s with mer.utcOffset := off, mer.leap61 := false, mer.leap59 := false, mer.nextLeap := none }
      else { s with mer.leapTaken := true, mer.nextLeap := none }
    | none => s

def fireMinute (n : Nat) (s : State) : State := minuteFlip (minuteFire n s)

/-- The arming boundary of R125: the action targets M where M lies at least 2 Fix on, and otherwise the boundary two Fix on. (Log: DEDUCED, log entry 21.) -/
def minuteWindow (s : State) : State :=
  match s.mer.windowAt with
  | none => s
  | some _ =>
    let d := fixesTo s s.mer.nextMinuteTai
    if 2097151 < d then s
    else if d < 2 then armMinute ((fixN s + 2) % 2 ^ 22) true s
    else armMinute (fixAtTai s s.mer.nextMinuteTai) false s

/-! ### The boundary (R10, R103) -/

/-- Time reaches the next boundary. -/
def tick (s : State) : State :=
  let f := s.clock.fix + 1
  slewStep { s with clock.fix := f, clock.sub := 0, clock.boundaries := s.clock.boundaries + 1, clock.tai := s.clock.tai + 1024,
                    mer.anchorDue := s.mer.anchorDue || f == 0 }

end Sys2Proof.Machine
end

