-- ==== Sys2Proof/Machine/PairCore.lean ====
section
/-! DEFINITION. Homes and the production of mirrored events (R349, R356, R358, Table 15.4). -/

namespace Sys2Proof.Machine

open Sys2Proof

/-- The device is ACTIVE for home h, 1 or 2. In SOLO it is for both (R346). -/
def activeFor (s : State) (h : Nat) : Bool := s.pair.st == .solo || s.pair.roles.getLsbD (h - 1)

/-- The home of a new record (R349), or none where the device is ACTIVE for neither. -/
def newHome (s : State) (key : Bytes) : Option Nat :=
  let k := keyHome s key
  if activeFor s k then some k else if activeFor s (3 - k) then some (3 - k) else none

def recHome (r : Bytes) : Nat := rget rHOME r + 1

/-- The record is of a home for which the device is STANDBY (R350). -/
def recStandby (s : State) (r : Bytes) : Bool := !activeFor s (recHome r)

/-- Events flow (R356). -/
def mirroring (s : State) : Bool := s.pair.st == .resync || s.pair.st == .paired

/-- Add to counter i of PAIR_STATS_READ, 0 EVENTS_SENT to 15 SWEEP_EVENTS (R368). -/
def pairCount (i n : Nat) (s : State) : State :=
  { s with pair.cnt := modAt s.pair.cnt i (fun c => inc64 c n) }

/-- Sizes of the event kinds in bytes (Table 15.4). -/
def evSize (kind : Nat) : Nat := [0, 64, 96, 32, 64, 96, 96, 32].getD kind 32

/-- An event's bytes: header and body. -/
def evBytes (s : State) (kind flags : Nat) (body : Bytes) : Bytes :=
  padTo (evSize kind) ([byteN kind, byteN (evSize kind / 32), byteN flags, 0] ++ beBytes 4 (fixN s) ++ body)

/-- An event enters the transmit queue. A live event that finds 16,384 there is lost, and the pair resynchronises
(R358). -/
def queueEvent (kind flags : Nat) (body : Bytes) (s : State) : State :=
  let sweep := flags.testBit 1
  if 16384 ≤ s.pair.txq.length && !sweep then
    { raiseFault fkMIRROR_OVERFLOW (s.pair.txq.length % 65536) s with pair.want := some .resync }
  else
    let e : PairEvent := { seq := s.pair.txSeq, kind := kind, body := evBytes s kind flags body }
    { s with
      pair.txq := s.pair.txq ++ [e]
      pair.lagq := s.pair.lagq ++ [(s.pair.txSeq, s.clock.fix)]
      pair.txSeq := (s.pair.txSeq + 1) % 2 ^ 32
      pair.budget := if sweep then s.pair.budget else s.pair.budget - 10 }

/-- The compact key of BIND4 and UNBIND4. -/
def compactKey (key : Bytes) : Bytes :=
  sliceB key 0 4 ++ sliceB key 16 4 ++ sliceB key 32 4 ++ sliceB key 36 4

def bindBody (r : Bytes) : Bytes :=
  let key := recKey r
  let rest := fun (n : Nat) => beBytes 4 (rget rACTION r) ++ beBytes n (rget rREWRITE r) ++ beBytes 4 (rget rENDPOINT r)
    ++ beBytes 4 (rget rEXT r) ++ beBytes 4 (rget rFIRST r) ++ [byteN (rget rAGE_CLASS r)]
  if recLong r then key ++ rest 24 else compactKey key ++ rest 8

def queueBind (r : Bytes) (sweep : Bool) (s : State) : State :=
  queueEvent (if recLong r then 2 else 1) (rget rHOME r + 2 * b2n sweep) (bindBody r) s

def queueUnbind (r : Bytes) (s : State) : State :=
  queueEvent (if recLong r then 4 else 3) (rget rHOME r) (if recLong r then recKey r else compactKey (recKey r)) s

/-- A record becomes live (R356, R358): with MIRRORED as it is admitted. -/
def mirrorNew (r : Bytes) (s : State) : Bytes × State :=
  let r0 := rset rMIRRORED 0 r
  if !mirroring s || !activeFor s (recHome r) || fv s 13 6 0 0 1 = 0 then (r0, s)
  else if s.pair.budget ≤ 0 then (r0, pairCount 2 1 s)
  else
    let r1 := rset rMIRRORED 1 r
    (r1, queueBind r1 false s)

def mirrors (r : Bytes) (s : State) : Bool := mirroring s && activeFor s (recHome r) && rget rMIRRORED r == 1

/-- A binding field of a mirrored record has changed. -/
def mirrorChange (r : Bytes) (s : State) : State := if mirrors r s then queueBind r false s else s

/-- A mirrored record becomes a tombstone. -/
def mirrorGone (r : Bytes) (s : State) : State := if mirrors r s then queueUnbind r s else s

/-- EXT_LINE for a line of the extension pools region as it stands (R356). -/
def queueExtLine (sweep : Bool) (a : Nat) (s : State) : State :=
  if mirroring s then queueEvent 5 (2 * b2n sweep) (beBytes 8 a ++ hbmRead s 1 a 64) s else s

end Sys2Proof.Machine
end

