-- ==== Sys2Proof/Machine/FlowStore.lean ====
section
/-! DEFINITION. Records where they live: table, cache and stash; insertion, deletion and release, locks, events
(chapter 7). -/

namespace Sys2Proof.Machine

open Sys2Proof

/-! ### Slices -/

/-- Add to counter i of FLOW_STATS_READ, 0 LOOKUPS to 12 REC_CRC_DROPS (R192). -/
def flowCount (sl i n : Nat) (s : State) : State :=
  modSlice sl (fun k => { k with cnt := modAt k.cnt i (fun c => inc64 c n) }) s

def nextStamp (s : State) : State := { s with flow.stamp := s.flow.stamp + 1 }

def ageNow (s : State) : Nat := s.flow.ageNow.toNat

/-! ### The table in HBM -/

/-- The 128 bytes of a bucket as HBM holds them. -/
def bucketHbm (s : State) (b : Nat) : Bytes := hbmRead s 0 (b * 128) 128

/-- EXILED of a bucket (R162). -/
def exiledOf (s : State) (b : Nat) : Nat :=
  let u := bucketHbm s b
  if recLong u then bitsOf (leNat (u.take 64)) 402 8 else bitsOf (leNat (u.take 64)) 466 8

/-- Write EXILED and the REC_CRC of slot 0's unit; a unit whose REC_CRC did not hold keeps failing its check (R162, R164). (Log: DEDUCED,
log entry 37.) -/
def putExiled (b v : Nat) (s : State) : State :=
  let old := (bucketHbm s b).take 64
  let u := leBytes 64 (setBits (leNat old) (if recLong old then 402 else 466) 8 v)
  let body := u.take 60
  let slip := if isZeros old then 0 else leAt old 60 4 ^^^ unitCrc (mkHandle b 0) old
  hbmWrite 0 (b * 128) (if isZeros body && slip = 0 then zerosB 64
    else body ++ leBytes 4 (unitCrc (mkHandle b 0) u ^^^ slip)) s

/-- Write a record into its slot; slot 0 keeps EXILED. -/
def writeSlot (h : Nat) (r : Bytes) (s : State) : State :=
  let b := hBucket h
  if hSlot h = 0 then hbmWrite 0 (b * 128) (sealRec h (rset rEXILED (exiledOf s b) r)) s
  else hbmWrite 0 (b * 128 + 64) (sealRec h r) s

/-- Write a slot empty (R181). -/
def clearSlot (h : Nat) (long : Bool) (s : State) : State :=
  let b := hBucket h
  if hSlot h = 1 then hbmWrite 0 (b * 128 + 64) (zerosB 64) s
  else
    let ex := exiledOf s b
    let s := hbmWrite 0 (b * 128) (zerosB (if long then 128 else 64)) s
    putExiled b ex s

/-! ### Requests of a slice (R23, R316, R322) -/

/-- A slice is its own requester, on the arbiter port of its number (Table 13.4). -/
def sliceReq (sl : Nat) (kind : HbmKind) (a n : Nat) : HbmReq := plainReq (0x200 + sl) kind 0 a n

/-- What a step changes in a bucket goes to the arbiter: one write of the units changed. A miss that writes nothing ends the hold
of its row with a release. (Log: DESIGN CHOICE, log entry 88.) -/
def sliceWritten (sl : Nat) (paired : Bool) (b : Nat) (f : State → State) (s : State) : State :=
  let u := bucketHbm s b
  let s := f s
  let v := bucketHbm s b
  let lo := u.take 64 != v.take 64
  let hi := u.drop 64 != v.drop 64
  let kind : HbmKind := if paired then .pairedWrite else .write
  if lo || hi then
    hbmPresent sl (sliceReq sl kind (b * 128 + if lo then 0 else 64) (if lo && hi then 128 else 64)) s
  else if paired then hbmPresent sl (sliceReq sl .release (b * 128) 0) s
  else s

/-- A step that may write several buckets of a slice. -/
def slicesWritten (s0 : State) (bs : List Nat) (f : State → State) : State → State :=
  bs.foldl (fun g b => sliceWritten (bucketSlice s0 b) false b g) f

/-! ### Records by handle -/

def cachedAt (s : State) (h : Nat) : Option CacheRec := kfind s.flow.cache h

/-- A slot's record as HBM holds it, if the slot is taken. -/
def hbmSlot (s : State) (h : Nat) : Option Bytes :=
  let u := bucketHbm s (hBucket h)
  if hSlot h = 0 then
    (if !recValid u then none else if recLong u then some u else some (u.take 64))
  else if recValid u && recLong u then none
  else if recValid (u.drop 64) then some (u.drop 64) else none

/-- The record at a handle: stash, else cache, else HBM. (Log: DEDUCED, log entry 37.) -/
def recAt (s : State) (h : Nat) : Option Bytes :=
  if isStash h then ((sliceOf s (hSlice s h)).stash.getD (hEntry h) none).map (fun r => r.bytes)
  else match cachedAt s h with
    | some c => some c.bytes
    | none => hbmSlot s h

/-- The records of a bucket with their handles, cache copies in place of their HBM copies. -/
def bucketRecs (s : State) (b : Nat) : List (Nat × Bytes) :=
  [mkHandle b 0, mkHandle b 1].filterMap (fun h =>
    if hSlot h = 1 && (match recAt s (mkHandle b 0) with
      | some r => recLong r
      | none => false) then none
    else (recAt s h).map (fun r => (h, r)))

/-- The stash records of a slice with their handles. (Log: DEDUCED, log entry 37.) -/
def stashRecs (s : State) (sl : Nat) : List (Nat × Bytes) :=
  (List.range 8).filterMap (fun e =>
    ((sliceOf s sl).stash.getD e none).map (fun r => (stashHandle sl e, r.bytes)))

/-- The cached records of a set. -/
def setRecs (s : State) (sl set : Nat) : List (Nat × CacheRec) :=
  s.flow.cache.filter (fun e => e.2.slice == sl && e.2.set == set)

/-- Ways that a cached record occupies. -/
def waysOf (c : CacheRec) : List Nat := if recLong c.bytes then [c.way, c.way + 1] else [c.way]

/-- Ways of a set that are clean or invalid. -/
def cleanWays (s : State) (sl set : Nat) : Nat :=
  12 - ((setRecs s sl set).filter (fun e => e.2.dirty)).foldl (fun n e => n + (waysOf e.2).length) 0

/-- The sets of a slice that a higher CACHE_CLEAN_MIN leaves below it join the cleaner's list, in ascending order (R175). (Log: DEDUCED, log
entry 37.) -/
def cleanSweep (sl : Nat) (s : State) : State :=
  let sets := sortBy id (dedupN ((s.flow.cache.filter (fun e => e.2.slice == sl && e.2.dirty)).map (fun e => e.2.set)))
  modSlice sl (fun k => { k with cleanList := k.cleanList ++ sets.filter (fun x =>
    decide (cleanWays s sl x < fv s 3 6 sl 0 4) && !k.cleanList.contains x) }) s

/-- A set that falls below CACHE_CLEAN_MIN joins the cleaner's list (R175). -/
def noteDirty (sl set : Nat) (s : State) : State :=
  if cleanWays s sl set < fv s 3 6 sl 0 4 && !(sliceOf s sl).cleanList.contains set then
    modSlice sl (fun k => { k with cleanList := k.cleanList ++ [set] }) s
  else s

/-- The packet path or a Skipper commit changes the record at a handle where it lives; a cached record becomes dirty. The cleaner will
write the unit of R165 only, so the first half of a long record, where a commit changes it, is written at once. (Log: DEDUCED, log entry 37.) -/
def putRec (h : Nat) (r : Bytes) (s : State) : State :=
  if isStash h then
    modSlice (hSlice s h) (fun k => { k with stash := modAt k.stash (hEntry h) (fun o =>
      o.map (fun x => { x with bytes := sealRec h r })) }) s
  else match cachedAt s h with
    | some c =>
      let r := sealRec h (if hSlot h = 0 then rset rEXILED (exiledOf s (hBucket h)) r else r)
      let s := if recLong r && r.take 64 != c.bytes.take 64 then hbmWrite 0 (hBucket h * 128) (r.take 64) s else s
      let c := { c with bytes := r, dirty := true }
      noteDirty c.slice c.set { s with flow.cache := kput s.flow.cache h c }
    | none => writeSlot h r s

/-- Any other change of the record at a handle: it is written to HBM, and a cached copy follows it and is clean, since only
the packet path and a Skipper commit make a record dirty. (Log: DEDUCED, log entry 37.) -/
def rewriteRec (h : Nat) (r : Bytes) (s : State) : State :=
  match (if isStash h then none else cachedAt s h) with
  | none => putRec h r s
  | some c =>
    let r := sealRec h (if hSlot h = 0 then rset rEXILED (exiledOf s (hBucket h)) r else r)
    { writeSlot h r s with flow.cache := kput s.flow.cache h { c with bytes := r, dirty := false } }

/-- A key's record in a list. -/
def findKey (key : Bytes) (rs : List (Nat × Bytes)) : Option (Nat × Bytes) :=
  rs.find? (fun e => recMatches e.2 && recKey e.2 == key)

/-- The live or pending record of a key: stash, then cache, then chosen bucket (R161, R168). (Log: DEDUCED, log entry 37.) -/
def findRec (s : State) (key : Bytes) : Option (Nat × Bytes) :=
  let sl := keySlice s key
  match findKey key (stashRecs s sl) with
  | some e => some e
  | none => findKey key (bucketRecs s (chosenBucket s key))

/-! ### The cache (R24, R175) -/

/-- The ways into which a record may be installed: none of them dirty. Invalid ways first, then the least recently
used. -/
def installWay (s : State) (sl set : Nat) (long : Bool) : Option Nat :=
  let rs := setRecs s sl set
  let at_ := fun (w : Nat) => rs.find? (fun e => (waysOf e.2).contains w)
  let cand := (List.range (if long then 6 else 12)).map (fun i => if long then [2 * i, 2 * i + 1] else [i])
  let ok := cand.filter (fun ws => ws.all (fun w => match at_ w with
    | some e => !e.2.dirty
    | none => true))
  let cost := fun (ws : List Nat) => ws.foldl (fun m w => match at_ w with
    | some e => max m (e.2.used + 1)
    | none => m) 0
  (ok.foldl (fun (b : Option (List Nat)) ws => match b with
    | none => some ws
    | some x => if cost ws < cost x then some ws else some x) none).map (fun ws => ws.getD 0 0)

/-- Install a clean copy of a record where the set has a clean slot (R24). Answers whether it was installed. -/
def installRec (h : Nat) (key r : Bytes) (s : State) : Bool × State :=
  let sl := keySlice s key
  let set := keySet s key
  match installWay s sl set (recLong r) with
  | none => (false, s)
  | some w =>
    let c : CacheRec := { slice := sl, set := set, way := w, bytes := sealRec h r, dirty := false, used := s.flow.stamp }
    let mine := waysOf c
    let gone := (setRecs s sl set).filter (fun e => (waysOf e.2).any (fun x => mine.contains x))
    let m := gone.foldl (fun m e => kdel m e.1) s.flow.cache
    (true, nextStamp { s with flow.cache := kput m h c })

def uncache (h : Nat) (s : State) : State := { s with flow.cache := kdel s.flow.cache h }

/-- Write a dirty record back, that is the unit of R165; it stays cached and is clean (R175). -/
def writeBack (h : Nat) (s : State) : State :=
  match cachedAt s h with
  | some c =>
    if c.dirty then
      let t := if recLong c.bytes then hbmWrite 0 (hBucket h * 128 + 64) (c.bytes.drop 64) s else writeSlot h c.bytes s
      { t with flow.cache := kput s.flow.cache h { c with dirty := false } }
    else s
  | none => s

/-- A record is used in the cache. -/
def touchRec (h : Nat) (s : State) : State :=
  match cachedAt s h with
  | some c => nextStamp { s with flow.cache := kput s.flow.cache h { c with used := s.flow.stamp } }
  | none => s

/-! ### Locks (R182, R183) -/

def lockHolder (s : State) (b : Nat) : Option Nat := (kfind (sliceOf s (bucketSlice s b)).locks b).map (fun l => l.holder)
/-- The bucket is locked. A free bucket for which a request waits is locked too, since its release has granted it to that request (R182). -/
def isLocked (s : State) (b : Nat) : Bool :=
  let k := sliceOf s (bucketSlice s b)
  (lockHolder s b).isSome || (decide (k.locks.length < 4096) && k.waits.any (fun w => w.bucket == b))

def fkLOCK_UNCORR : FaultKind := (0x05, 5, 2)

/-- The lock table of a bucket's slice is used (R193): a damaged entry is reported. The spec gives no further effect. (Log: DEDUCED, log
entry 32.) -/
def lockUse (b : Nat) (s : State) : State :=
  (s.lod.damage.filter (fun d => d.source.toNat == 0x05 && d.kind.toNat == 5 && d.addr.toNat / 2 ^ 38 == bucketSlice s b)).foldl
    (fun s d => raiseInjected fkLOCK_UNCORR d.addr.toNat [] [] s) s

def putLock (b holder : Nat) (s : State) : State :=
  modSlice (bucketSlice s b) (fun k => { k with locks := kput k.locks b { holder := holder, granted := s.clock.fix } }) s

def dropLock (b : Nat) (s : State) : State := modSlice (bucketSlice s b) (fun k => { k with locks := kdel k.locks b }) s

/-- The bucket can be locked at once: free, no request waits for it, and the table has a free entry. -/
def lockFree (s : State) (b : Nat) : Bool :=
  let k := sliceOf s (bucketSlice s b)
  !isLocked s b && !(k.waits.any (fun w => w.bucket == b)) && decide (k.locks.length < 4096)

/-! ### Events (Table 7.8) -/

def eventBytes (s : State) (kind sl h : Nat) (r : Bytes) : Bytes :=
  let key := recKey r
  [byteN kind, byteN (rget rPROTO r), byteN sl, 0] ++ leBytes 4 (fixN s) ++ leBytes 4 h ++ leBytes 4 (rget rTENANT r)
    ++ leBytes 2 (rget rSPORT r) ++ leBytes 2 (rget rDPORT r) ++ leBytes 4 (rget rLAST r) ++ leBytes 8 (rget rPKTS r)
    ++ leBytes 8 (rget rOCTETS r) ++ sliceB key 4 16 ++ sliceB key 20 16 ++ zerosB 8

/-- Write an event, if its kind is enabled; a full ring loses its oldest entry. -/
def flowEvent (kind sl h : Nat) (r : Bytes) (s : State) : State :=
  if !(fv s 3 8 sl 0 8).testBit (kind - 1) then s
  else
    let e := eventBytes s kind sl h r
    if (sliceOf s sl).events.length < 1048576 then modSlice sl (fun k => { k with events := k.events ++ [e] }) s
    else flowCount sl 11 1 (modSlice sl (fun k => { k with events := k.events.drop 1 ++ [e] }) s)

/-! ### Insertion (R173, R197) -/

/-- Insertion into a bucket is refused while one of its units is damaged (R170). -/
def refused (s : State) (b : Nat) : Bool := s.flow.refuse.any (fun h => hBucket h == b)

/-- The bucket takes a record of that size: free slots, and no refusal of R170. -/
def bucketPlace (s : State) (b : Nat) (long : Bool) : Option Nat :=
  if refused s b then none
  else
    let s0 := recAt s (mkHandle b 0)
    let s1 := recAt s (mkHandle b 1)
    let long0 := match s0 with
      | some r => recLong r
      | none => false
    if long then (if s0.isNone && s1.isNone then some (mkHandle b 0) else none)
    else if s0.isNone then some (mkHandle b 0)
    else if !long0 && s1.isNone then some (mkHandle b 1) else none

def stashFree (s : State) (sl : Nat) : Option Nat :=
  (List.range 8).find? (fun e => ((sliceOf s sl).stash.getD e none).isNone)

/-- The group of a key is exiled. -/
def exiledKey (s : State) (key : Bytes) : Bool := chartOf s (keyPrimary s key)

/-- The EXILED queue of a slice has room, beside the changes for which commits handed over have taken room (R162). -/
def exqRoom (s : State) (sl : Nat) : Bool :=
  decide ((sliceOf s sl).exq.length + (s.skip.commits.map (fun c => c.exUps.getD sl 0)).sum < 1024)

/-- Where a new record of a key goes: the chosen bucket, else the stash; nowhere while an exiled group's EXILED queue is
full (R162, R173). -/
def insertPlace (s : State) (key : Bytes) : Option Nat :=
  let sl := keySlice s key
  if exiledKey s key && !exqRoom s sl then none
  else match bucketPlace s (chosenBucket s key) (keyLong key) with
    | some h => some h
    | none => (stashFree s sl).map (stashHandle sl)

/-- A change of EXILED is queued for a record that enters or leaves its second candidate bucket (R162). -/
def exileNote (key : Bytes) (h : Nat) (up : Bool) (s : State) : State :=
  if isStash h || hBucket h = keyPrimary s key then s
  else modSlice (keySlice s key) (fun k => { k with exq := k.exq ++ [(keyPrimary s key, up)] }) s

/-- Put a record at a free place. -/
def placeRec (h : Nat) (r : Bytes) (s : State) : State :=
  if isStash h then
    let x : StashRec := { bytes := sealRec h r, order := s.flow.stamp }
    nextStamp (modSlice (hSlice s h) (fun k => { k with stash := setAt k.stash (hEntry h) (some x) }) s)
  else exileNote (recKey r) h true (writeSlot h r s)

/-- An insertion that found no room: INSERT_FAIL is counted with its event, and a full stash is reported. -/
def insertFail (key : Bytes) (count : Bool) (s : State) : State :=
  let sl := keySlice s key
  let s := if (stashFree s sl).isNone then raiseFault fkSTASH_FULL (sl * 2 ^ 38) s else s
  if count then flowEvent 6 sl 0 (blankRec key) (flowCount sl 5 1 s) else s

/-! ### Deletion and release (R180, R181) -/

/-- Log: DEDUCED, log entry 41. -/
def tombRoom (s : State) (sl : Nat) : Bool := decide ((sliceOf s sl).tombs.length < 8192)

/-- The record at a handle becomes a tombstone, whose release event will have a kind; `write` puts the changed record in place. -/
def tombWith (write : Nat → Bytes → State → State) (h kind : Nat) (s : State) : State :=
  match recAt s h with
  | none => s
  | some r =>
    let sl := hSlice s h
    let s := mirrorGone r s
    modSlice sl (fun k => { k with tombs := k.tombs ++ [{ handle := h, born := k.flips, kind := kind }] })
      (write h (rset rSTATE 1 r) s)

/-- A deletion by a command, by the scanner or by the mirror. -/
def makeTomb (h kind : Nat) (s : State) : State := tombWith rewriteRec h kind s

/-- A deletion by a Skipper's commit (R207). -/
def commitTomb (h kind : Nat) (s : State) : State := tombWith putRec h kind s

/-- The extension block of a released record is freed where the slice owns it (R301). -/
def freeExt (sl : Nat) (r : Bytes) (s : State) : State :=
  let ref := refOfExt s (rget rEXT r)
  if rget rEXT r ≠ 0 && kfind s.pools.alloc ref == some (0x200 + sl) then poolRelease ref s else s

/-- Release one tombstone, unless its EXILED decrement finds the queue full. Answers whether it has gone. -/
def releaseTomb (t : Tomb) (s : State) : Bool × State :=
  match recAt s t.handle with
  | none => (true, s)
  | some r =>
    let key := recKey r
    let sl := hSlice s t.handle
    let exiled := !isStash t.handle && hBucket t.handle ≠ keyPrimary s key
    if exiled && !exqRoom s sl then (false, s)
    else
      let s := exileNote key t.handle false s
      let s := flowEvent t.kind sl t.handle r s
      let s := freeExt sl r s
      if isStash t.handle then (true, modSlice sl (fun k => { k with stash := setAt k.stash (hEntry t.handle) none }) s)
      else (true, clearSlot t.handle (recLong r) (uncache t.handle s))

/-- A release, with its write of the slot as an ordinary request. -/
def releaseTombW (t : Tomb) (s : State) : State :=
  if isStash t.handle then (releaseTomb t s).2
  else sliceWritten (hSlice s t.handle) false (hBucket t.handle) (fun s => (releaseTomb t s).2) s

/-- Release those of a list that were made before the previous flip; the others stay. -/
def releaseTombs (flips : Nat) : List Tomb → State → List Tomb × State
  | [], s => ([], s)
  | t :: ts, s =>
    if t.born < flips then
      match (releaseTomb t s).1, releaseTombW t s with
      | true, s => releaseTombs flips ts s
      | false, s => let r := releaseTombs flips ts s; (t :: r.1, r.2)
    else let r := releaseTombs flips ts s; (t :: r.1, r.2)

/-- Step 4 of a boundary for one slice (R181): with no packet left in epoch E XOR 1, old tombstones go and E flips. -/
def epochStep (sl : Nat) (s : State) : State :=
  let k := sliceOf s sl
  if s.sw.epochCount.getD (sl * 2 + (1 - b2n k.e)) 0 ≠ 0 then s
  else
    let (left, s) := releaseTombs k.flips k.tombs s
    modSlice sl (fun k => { k with tombs := left, e := !k.e, flips := k.flips + 1 }) s

/-- TOMBSTONE_RELEASE in every slice. -/
def tombstoneStep (s : State) : State := [0, 1, 2, 3].foldl (fun s i => epochStep i s) s

/-- CHART[p] is cleared once EXILED is 0 and no change of the group waits (R162). -/
def chartClear (s : State) : State :=
  let gone := s.flow.chart.filter (fun e =>
    e.2 && exiledOf s e.1 == 0 && !(sliceOf s (bucketSlice s e.1)).exq.any (fun x => x.1 == e.1))
  { s with flow.chart := gone.foldl (fun m e => kdel m e.1) s.flow.chart }

/-- Valid records of a slice in short-record equivalents: table and stash, tombstones apart (R192). (Log: DEDUCED, log entry 39.) -/
def sliceRecords (s : State) (sl : Nat) : Nat :=
  let lo := sl * sliceN s * 128
  let hi := lo + sliceN s * 128
  let tab := (s.hbm.mem.filter (fun c => decide (lo ≤ c.1) && decide (c.1 < hi) && c.1 % 64 == 0 && c.2.getLsbD 0
    && (c.1 % 128 == 0 || !(memByte s.hbm.mem (c.1 - 64)).getLsbD 1))).foldl
    (fun n c => n + if c.2.getLsbD 1 then 2 else 1) 0
  let st := (stashRecs s sl).foldl (fun n e => n + if recLong e.2 then 2 else 1) 0
  let tm := (sliceOf s sl).tombs.foldl (fun n t => n + match recAt s t.handle with
    | some r => if recLong r then 2 else 1
    | none => 0) 0
  tab + st - tm

end Sys2Proof.Machine
end

