-- ==== Sys2Proof/Machine/SkipCore.lean ====
section
/-! DEFINITION. Skipper engines: dispatch, discarding work, replay, failure, loss, and the application of commits
(chapter 8). -/

namespace Sys2Proof.Machine

open Sys2Proof

/-! ### Engines and clusters -/

def engOf (s : State) (id : Nat) : Engine := kget engineReset s.skip.engines id
def modEng (id : Nat) (f : Engine → Engine) (s : State) : State :=
  { s with skip.engines := kmod engineReset s.skip.engines id f }
def clusterOf (s : State) (c : Nat) : Cluster := kget clusterReset s.skip.clusters c
def modCluster (c : Nat) (f : Cluster → Cluster) (s : State) : State :=
  { s with skip.clusters := kmod clusterReset s.skip.clusters c f }

/-- Add to counter i of SKIP_STATS_READ, 0 DISPATCHES to 15 TELEM_LOSS (R224). -/
def skipCount (i n : Nat) (s : State) : State := { s with skip.cnt := modAt s.skip.cnt i (fun c => inc64 c n) }

/-- An engine is idle and not held out (R196, R216, R236, R238). -/
def engineFree (s : State) (id : Nat) : Bool :=
  let c := clusterOf s (id / 16)
  (engOf s id).st == .idle && (engOf s id).out.isNone && c.state == 1 && !c.loading && !c.failMask.testBit (id % 16)

/-- The idle engine with the lowest number in a cluster. -/
def freeIn (s : State) (c : Nat) : Option Nat := ((List.range 16).map (fun i => c * 16 + i)).find? (engineFree s)

/-- The clusters that a DECIDE of a key tries, in order (R196). (Log: DEDUCED, log entry 39.) -/
def decideClusters (s : State) (key : Bytes) : List Nat :=
  let c0 := flowH2 s key % 32
  (((List.range 32).map (fun i => (c0 + i) % 32)).filter (fun c => (fv s 4 1 0 0 32).testBit c)).take (fv s 4 2 0 4 4)

def pickEngine (s : State) (key : Bytes) : Option Nat := (decideClusters s key).findSome? (freeIn s)

/-- Entry table entry (R234): ENTRY_PC [13:0], VALID [14], DECIDE_OK [15]. -/
def entryAt (s : State) (c r : Nat) : Nat := (kget 0 s.skip.entry (c * 64 + r)).toNat

def fkUC_CORR : FaultKind := (0x08, 1, 3)
def fkUC_UNCORR : FaultKind := (0x08, 2, 2)

/-- A word of a cluster's store 0 microwords, 1 nanowords, 2 entries is read and checked (R239): an uncorrectable one takes the cluster
out of dispatch. -/
def ucFetch (c store word : Nat) (s : State) : Bool × State :=
  let (bad, s) := useWord fkUC_CORR fkUC_UNCORR (c * 2 ^ 16 + store * 2 ^ 14 + word) s
  (bad, if bad then modCluster c (fun k => { k with state := 2 }) s else s)

/-! ### Local store -/

def lsRead (e : Engine) (a n : Nat) : Bytes := memReadN e.ls a n

/-- Bytes past the end of the local store are dropped. (Log: DEDUCED, log entry 42.) -/
def lsWrite (a : Nat) (bs : Bytes) (e : Engine) : Engine := { e with ls := memWriteN e.ls a (bs.take (1024 - a)) }

/-! ### Dispatch (R195, R198) -/

/-- The dispatch descriptor (Table 8.2). -/
def descriptor (s : State) (kind routine slice pipe handle gen level ingTs : Nat) (user key arg hdr : Bytes) : Bytes :=
  [byteN kind, byteN routine, byteN slice, byteN pipe] ++ leBytes 4 handle ++ leBytes 2 gen
    ++ [byteN level, byteN hdr.length] ++ leBytes 4 (ageNow s) ++ leBytes 4 ingTs ++ leBytes 4 (fixN s)
    ++ padTo 16 user ++ padTo 40 key ++ padTo 24 arg ++ zerosB 24 ++ padTo 128 hdr

/-- The 128 bytes of a bucket as the slice holds them: cache copies in place of HBM copies (R190, R195). -/
def bucketView (s : State) (b : Nat) : Bytes :=
  let u := bucketHbm s b
  let part := fun (h o : Nat) => match recAt s h with
    | some r => r
    | none => sliceB u o 64
  let p0 := part (mkHandle b 0) 0
  if 64 < p0.length then p0 else p0 ++ part (mkHandle b 1) 64

/-- A free engine starts a routine with its home bucket locked, if it has one. -/
def startEngine (id : Nat) (why : DispWhy) (routine handle : Nat) (home : Option Nat) (descr : Bytes) (s : State) : State :=
  let copy := match home with
    | some b => bucketView s b
    | none => zerosB 128
  let held := home.toList
  let e : Engine := { engineReset with
    st := .running
    pc := entryAt s (id / 16) routine % 2 ^ 14
    ls := memWriteN [] 0 (padTo 256 descr ++ copy)
    held := held
    heldOnce := !held.isEmpty
    why := some why
    routine := routine
    handle := handle
    descr := padTo 256 descr }
  let s := held.foldl (fun s b => putLock b id (lockUse b s)) s
  skipCount 0 1 (modEng id (fun _ => e) s)

/-! ### Held flows (R18, R199) -/

def holdOf (s : State) (key : Bytes) : Option Hold := s.flow.holds.find? (fun h => h.key == key)
def dropHold (key : Bytes) (s : State) : State := { s with flow.holds := s.flow.holds.filter (fun h => h.key != key) }
def modHold (key : Bytes) (f : Hold → Hold) (s : State) : State :=
  { s with flow.holds := s.flow.holds.map (fun h => if h.key = key then f h else h) }

/-- The action snapshot that a packet carries (R167). -/
def mkAnswer (status h : Nat) (r : Bytes) (l : Level) : Answer :=
  let w := rget rREWRITE r
  { status := status, handle := BitVec.ofNat 32 h, action := BitVec.ofNat 32 (rget rACTION r), gen := BitVec.ofNat 16 (rget rGEN r),
    rwAddr := if recLong r then w % 2 ^ 128 else w % 2 ^ 32
    rwPort := if recLong r then bitsOf w 128 16 else bitsOf w 32 16
    level := l }

/-- The zeroed result of a lookup without a record (R166, R210). -/
def noAnswer (l : Level) : Answer :=
  { status := 5, handle := 0, action := 0, gen := 0, rwAddr := 0, rwPort := 0, level := l }

/-- The held packets of a flow are released towards stage 7 with an answer, or with a drop (R207, R210). -/
def releaseHold (key : Bytes) (ans : Level → Answer) (drop : Option Nat) (s : State) : State :=
  match holdOf s key with
  | none => s
  | some hd =>
    let s := dropHold key s
    hd.pkts.foldl (fun s h => match pktOf s h with
      | none => s
      | some k =>
        let l := match k.ans with
          | some a => a.level
          | none => levelReset
        let s := putPkt h { k with ans := some (ans l), failDrop := drop, stage := .answered } s
        let pipe := pipeOf k.port
        reenterSettle pipe (modPipe pipe (fun p => { p with reentry := p.reentry ++ [h] }) s)) s

/-! ### Discarding a routine's work (R209, R210, R214) -/

def reverseUndo (us : List Undo) (s : State) : State :=
  us.reverse.foldl (fun s u =>
    skipCount 14 1 (if u.isAdd then (hbmAtom 0 1 u.addr (2 ^ 64 - u.operand % 2 ^ 64) s).2
                    else (hbmAtom 2 1 u.addr u.operand s).2)) s

def removeWaits (id : Nat) (s : State) : State :=
  { s with flow.slices := s.flow.slices.map (fun k => { k with waits := k.waits.filter (fun w => w.engine != id) }) }

/-- Write buffer, undo log, deferred operations and provisional allocations are dropped; locks stay. -/
def dropWork (id : Nat) (s : State) : State :=
  let e := engOf s id
  let s := reverseUndo e.undo (removeWaits id s)
  let s := e.allocs.foldl (fun s r => poolRelease r s) s
  modEng id (fun e => { e with wbuf := [], undo := [], bclr := [], frees := [], allocs := [],
                               tags := List.replicate 8 tagReset }) s

/-- The locks that a holder has. -/
def releaseLocks (id : Nat) (bs : List Nat) (s : State) : State :=
  bs.foldl (fun s b => if lockHolder s b = some id then dropLock b s else s) s

def discardWork (id : Nat) (s : State) : State :=
  let s := releaseLocks id (engOf s id).held (dropWork id s)
  modEng id (fun e => { e with held := [] }) s

/-- The engine runs no routine. One that stays out of dispatch after its self-test reads as lost again (R216). -/
def endRoutine (id : Nat) (s : State) : State :=
  modEng id (fun e => { engineReset with st := if e.out.isSome then .lost else .idle, out := e.out }) s

/-- A self-test ends (R236). -/
def endSelfTest (id : Nat) (pass : Bool) (s : State) : State :=
  let c := id / 16
  let s := modCluster c (fun k => { k with
    testing := k.testing.filter (fun i => i != id)
    failMask := if pass then k.failMask else k.failMask ||| 2 ^ (id % 16) }) s
  let k := clusterOf s c
  let s := if k.testing.isEmpty then modCluster c (fun k => { k with loading := false }) s else s
  if k.testing.isEmpty && k.failMask ≠ 0 then raiseFault fkSELFTEST_FAIL (c * 2 ^ 16 + k.failMask) s else s

/-- What a routine that ends without a commit leaves behind, by what started it. -/
def failOutcome (id : Nat) (why : Option DispWhy) (raise : Bool) (s : State) : State :=
  match why with
  | some (.decide key) => { s with skip.failing := s.skip.failing ++ [(id, key, raise)] }
  | some (.run slot) => { s with skip.ended := s.skip.ended ++ [(slot, stPARTIAL, 0)] }
  | some .selfTest => endSelfTest id false s
  | none => s

/-- A decision failure by FAIL or by too many replays (R210). -/
def failRoutine (id : Nat) (s : State) : State :=
  let why := (engOf s id).why
  failOutcome id why true (endRoutine id (discardWork id s))

/-- An engine is lost (R214): it stops, and its mask is asserted at every arbiter. -/
def loseEngine (id : Nat) (out : OutWhy) (s : State) : State :=
  let e := engOf s id
  if e.st == .idle || e.st == .lost then s
  else hbmMask id (modEng id (fun e => { e with st := .lost, out := some out, lossDue := true }) s)

/-- The attempt is aborted and replayed (R209). A routine without a restart point fetches its entry again, which may find the word
uncorrectable (R239). (Log: DEDUCED, log entry 42.) -/
def replay (id : Nat) (s : State) : State :=
  let e := engOf s id
  if fv s 4 4 0 0 4 < e.replays + 1 then failRoutine id s
  else
    let s := skipCount 7 1 (discardWork id s)
    let (bad, s) := if e.restart.isNone then ucFetch (id / 16) 2 e.routine s else (false, s)
    if bad then loseEngine id (.quiet 8) s else
    let s := match e.why with
      | some (.decide key) => modHold key (fun h => { h with next := 1 }) s
      | _ => s
    let (pc, gpr) := match e.restart with
      | some x => x
      | none => (entryAt s (id / 16) e.routine % 2 ^ 14, List.replicate 32 0)
    modEng id (fun e => { lsWrite 0 e.descr e with
      st := .running, pc := pc, gpr := gpr, stack := [], issued := false, timedOut := false, waitMask := 0
      replays := e.replays + 1 }) s

/-- SK_ILLEGAL (Table 8.8). -/
def skIllegal (id : Nat) (s : State) : State :=
  loseEngine id (.quiet 7) (raiseFault fkSK_ILLEGAL (id + (engOf s id).pc * 2 ^ 9) s)

/-! ### Boundary work: owner loss and failed decisions (R184, R210, R214) -/

/-- One released lock of a lost Skipper: FLOW_GEN of the bucket's records, and its message. -/
def ownerLost (id b : Nat) (s : State) : State :=
  let s := (bucketRecs s b).foldl (fun s e => rewriteRec e.1 (genBump e.2) s) s
  let s := skipCount 8 1 (if lockHolder s b = some id then dropLock b s else s)
  raiseFault fkOWNER_LOST (id * 2 ^ 28 + b) s

def lossCleanup (id : Nat) (s : State) : State :=
  let e := engOf s id
  let s := e.held.foldl (fun s b => ownerLost id b s) s
  let s := poolFreeOwner id (dropWork id s)
  let s := failOutcome id e.why false s
  if e.out = some .reset then hbmUnmask id (modEng id (fun _ => engineReset) s)
  else modEng id (fun e => { engineReset with st := .lost, out := e.out }) s

/-- OWNER_LOSS_CLEANUP for every lost engine. -/
def ownerLossStep (s : State) : State :=
  ((s.skip.engines.filter (fun e => e.2.lossDue)).map (fun e => e.1)).foldl (fun s id => lossCleanup id s) s

/-- One failed decision: the pending record becomes a tombstone and its packets are handled by SKIP_FAIL_ACT. -/
def failOne (x : Nat × Bytes × Bool) (s : State) : State :=
  let (id, key, raise) := x
  let b := match findRec s key with
    | some (h, _) => if isStash h then chosenBucket s key else hBucket h
    | none => chosenBucket s key
  let s := match findRec s key with
    | some (h, r) => if rget rSTATE r = 2 then makeTomb h 4 s else s
    | none => s
  let drop := if fv s 4 5 0 0 1 = 1 then some (fv s 4 5 0 1 7) else none
  let s := releaseHold key noAnswer drop s
  if raise then skipCount 4 1 (raiseFault fkDECIDE_FAIL (id + b * 2 ^ 9) s) else s

/-- Decisions that failed before this boundary (R210). One whose slice's tombstone list is full waits. (Log: DEDUCED, log entry 41.) -/
def decisionFailStep (s : State) : State :=
  let now := s.skip.failing.filter (fun x => tombRoom s (keySlice s x.2.1))
  let later := s.skip.failing.filter (fun x => !tombRoom s (keySlice s x.2.1))
  now.foldl (fun s x => failOne x s) { s with skip.failing := later }

/-- No Class 2 message of a source is under way. -/
def quietSource (s : State) (src : Nat) : Bool :=
  let mine := fun (m : FaultMsg) => m.source.toNat == src && m.cls.val == 2
  !(s.lod.wire.any mine) && !(s.ctl.queue.any (fun i => match i.body with
    | .reaction m => mine m
    | _ => false)) && !(s.ctl.apply.any (fun r => match r.inp.body with
    | .reaction m => mine m
    | _ => false))

/-- Engines whose Class 2 state has ended return to dispatch (R216); one in its self-test finishes it. -/
def engineReturn (s : State) : State :=
  ((s.skip.engines.filter (fun e => !e.2.lossDue && (match e.2.out with
    | some (.quiet src) => (srcState s src 2).st == .none && quietSource s src
    | _ => false))).map (fun e => e.1)).foldl
      (fun s id => hbmUnmask id (modEng id (fun e => if e.st = .lost then engineReset else { e with out := none }) s)) s

/-! ### Commits (R202, R206, R207) -/

/-- Bytes under a mask. -/
def mergeMask (mask : U64) (new : Bytes) : Nat → Bytes → Bytes
  | _, [] => []
  | i, b :: bs => (if mask.getLsbD i then new.getD i 0 else b) :: mergeMask mask new (i + 1) bs

/-- Lines laid over the bytes of a region from address a. -/
def overlay (ws : List WLine) (region a : Nat) (bs : Bytes) : Bytes :=
  ws.foldl (fun bs w =>
    if w.region = region && decide (a ≤ w.addr) && decide (w.addr + 64 ≤ a + bs.length) then
      let o := w.addr - a
      spliceB bs o (mergeMask w.mask w.bytes 0 (sliceB bs o 64))
    else bs) bs

/-- The binding fields that a routine may write (R202). -/
def takeFields (r m : Bytes) : Bytes :=
  [rACTION, rREWRITE, rAGE_CLASS, rENDPOINT, rEXT].foldl (fun r f => rset f (rget f m) r) r

/-- A commit's bytes m for a slot that holds a record r. The pending record of another routine stays as it is (R199). -/
def commitRecord (why : Option DispWhy) (h : Nat) (r m : Bytes) (s : State) : State :=
  let mine := why == some (.decide (recKey r)) && rget rSTATE r == 2
  if rget rSTATE r = 1 || (rget rSTATE r == 2 && !mine) then s
  else if recStandby s r then pairCount 9 1 s
  else if !recValid m then commitTomb h 4 s
  else
    let new := takeFields r m
    if mine then putRec h new s
    else mirrorChange (genBump new) (putRec h (genBump new) s)

/-- A created record in the form that its key asks for: a routine's long record of two IPv4-mapped addresses becomes a short
one (R163, R202). (Log: DEDUCED, log entry 41.) -/
def fitLong (m : Bytes) : Bytes :=
  let key := recKey m
  if recLong m = keyLong key then m
  else
    let w := rget rREWRITE m
    [(rAGE_CLASS, rget rAGE_CLASS m), (rACTION, rget rACTION m), (rFIRST, rget rFIRST m), (rEXT, rget rEXT m),
     (rENDPOINT, rget rENDPOINT m), (rREWRITE, bitsOf w 0 32 + bitsOf w 128 16 * 2 ^ 32)].foldl
      (fun r (f : RecField × Nat) => rset f.1 f.2 r) (blankRec key)

/-- A record that a commit creates in an empty slot (R202, R349). (Log: DEDUCED, log entry 41.) -/
def commitCreate (h : Nat) (m0 : Bytes) (s : State) : State :=
  let m := fitLong m0
  let key := recKey m
  match if refused s (hBucket h) then none else newHome s key with
  | none => if refused s (hBucket h) then s else pairCount 8 1 s
  | some home =>
    let r := [(rSTATE, 0), (rMIRRORED, 0), (rHOME, home - 1), (rGEN, 1), (rOCTETS, 0), (rPKTS, 0), (rTCPF, 0),
      (rLAST, ageNow s)].foldl (fun r (f : RecField × Nat) => rset f.1 f.2 r) m
    let (r, s) := mirrorNew r s
    placeRec h r s

/-- Apply a commit's lines of one bucket. -/
def commitBucket (why : Option DispWhy) (ws : List WLine) (b : Nat) (s : State) : State :=
  let m := overlay ws 0 (b * 128) (bucketView s b)
  let wrote := fun (u : Nat) => ws.any (fun w => w.region == 0 && w.addr == b * 128 + 64 * u)
  let h0 := mkHandle b 0
  let h1 := mkHandle b 1
  let r0 := recAt s h0
  let r1 := recAt s h1
  match r0 with
  | some r =>
    if recLong r then (if wrote 0 || wrote 1 then commitRecord why h0 r m s else s)
    else
      let s := if wrote 0 then commitRecord why h0 r (m.take 64) s else s
      if wrote 1 then second h1 r1 m s else s
  | none =>
    if wrote 0 && recValid m && recLong m then (if r1.isNone then commitCreate h0 m s else s)
    else
      let s := if wrote 0 && recValid m then commitCreate h0 (m.take 64) s else s
      if wrote 1 then second h1 r1 m s else s
where
  second (h1 : Nat) (r1 : Option Bytes) (m : Bytes) (s : State) : State :=
    match r1 with
    | some r => commitRecord why h1 r (m.drop 64) s
    | none => if recValid (m.drop 64) && !recLong (m.drop 64) then commitCreate h1 (m.drop 64) s else s

/-- The decision of a flow is complete (R207): its record is live, and its packets carry the committed action. -/
def decideDone (key : Bytes) (s : State) : State :=
  match findRec s key with
  | some (h, r) =>
    if rget rSTATE r = 2 then
      let (r, s) := mirrorNew (genBump (rset rSTATE 0 r)) s
      let s := flowEvent 3 (hSlice s h) h r (putRec h r s)
      releaseHold key (mkAnswer 4 h r) none s
    else releaseHold key noAnswer none s
  | none => releaseHold key noAnswer none s

/-- A Skipper commit may free a buffer of the engine, or of a slice in which it holds a lock (R301). -/
def commitMayFree (s : State) (c : Commit) (owner : Nat) : Bool :=
  owner == c.engine || c.locks.any (fun b => owner == 0x200 + bucketSlice s b)

/-- The buckets that lines name. -/
def lineBuckets (ws : List WLine) : List Nat := dedupN ((ws.filter (fun w => w.region == 0)).map (fun w => w.addr / 128))

/-- COMMIT_APPLY of one commit. -/
def applyCommit (c : Commit) (s : State) : State :=
  let buckets := lineBuckets c.lines
  let s := (buckets.reverse).foldl
    (fun s b => sliceWritten (bucketSlice s b) false b (commitBucket c.why c.lines b) s) s
  let ext := c.lines.filter (fun w => w.region == 1)
  let s := ext.foldl (fun s w =>
    hbmPresent (4 + c.engine / 16) (plainReq c.engine .write 1 w.addr 64)
      (hbmWrite 1 w.addr (mergeMask w.mask w.bytes 0 (hbmRead s 1 w.addr 64)) s)) s
  let s := c.bclr.foldl (fun s x => (hbmAtom 2 1 x.1 x.2 s).2) s
  let s := match c.why with
    | some (.decide key) => decideDone key s
    | some (.run slot) => { s with skip.ended := s.skip.ended ++ [(slot, stOK, c.gpr0)] }
    | _ => s
  let s := c.frees.foldl (fun s r => (poolFree 8 r (commitMayFree s c) s).2) s
  let s := c.allocs.foldl (fun s r => match kfind s.pools.prov r with
    | some o =>
      { s with pools.alloc := if kfind s.pools.alloc r = some 0xFFF then s.pools.alloc else kput s.pools.alloc r o
               pools.prov := kdel s.pools.prov r }
    | none => s) s
  let touched := dedupN (ext.map (fun w => w.addr) ++ c.atoms)
  let s := touched.foldl (fun s a => queueExtLine false a s) s
  skipCount 3 1 (c.locks.foldl (fun s b => if lockHolder s b = some 0x201 then dropLock b s else s) s)

/-- A line clears VALID of a record: its commit adds a tombstone in that slice (R202). -/
def lineDeletes (s : State) (ws : List WLine) (w : WLine) : Bool :=
  let b := w.addr / 128
  let u := w.addr % 128 / 64
  w.region == 0 && (recAt s (mkHandle b u)).isSome && !recValid ((overlay ws 0 (b * 128) (bucketView s b)).drop (64 * u))

/-- A line makes a record in the second candidate bucket of its group (R162, R202). -/
def lineExiles (s : State) (ws : List WLine) (w : WLine) : Bool :=
  let b := w.addr / 128
  let u := w.addr % 128 / 64
  let m := overlay ws 0 (b * 128) (bucketView s b)
  let r := m.drop (64 * u)
  w.region == 0 && (recAt s (mkHandle b u)).isNone && recValid r && !(u == 1 && recValid m && recLong m)
    && b != keyPrimary s (recKey r)

def linesIn (s : State) (sl : Nat) (p : WLine → Bool) (ws : List WLine) : Nat :=
  (ws.filter (fun w => bucketSlice s (w.addr / 128) == sl && p w)).length

/-- Every slice's tombstone list has room for the deletions of a commit (R181). -/
def tombsRoom (s : State) (c : Commit) : Bool :=
  [0, 1, 2, 3].all (fun sl =>
    let n := linesIn s sl (lineDeletes s c.lines) c.lines
    n == 0 || decide ((sliceOf s sl).tombs.length + n ≤ 8192))

/-- The commits due at this boundary, in order of hand-over (R207). One whose deletions find a tombstone list full waits for the next
boundary (R181). (Log: DEDUCED, log entry 41.) -/
def commitStep (s : State) : State :=
  let due := s.skip.commits.filter (fun c => decide (c.wait ≤ 1))
  let rest := (s.skip.commits.filter (fun c => !decide (c.wait ≤ 1))).map (fun c => { c with wait := c.wait - 1 })
  due.foldl (fun s c => if tombsRoom s c then applyCommit c s
                        else { s with skip.commits := s.skip.commits ++ [{ c with wait := 1 }] })
    { s with skip.commits := rest }

/-- Lines in a slice's commit store, by covering bucket. -/
def storeLines (s : State) (sl : Nat) (ws : List WLine) : Nat := (ws.filter (fun w => bucketSlice s w.cover == sl)).length

/-- Entries of the EXILED queues that the lines ask for, by slice (R162). -/
def exiledUps (s : State) (ws : List WLine) : List Nat := [0, 1, 2, 3].map (fun sl => linesIn s sl (lineExiles s ws) ws)

/-- Every commit store and every EXILED queue has room for the lines (R162, R206). -/
def storesRoom (s : State) (ws : List WLine) : Bool :=
  [0, 1, 2, 3].all (fun sl =>
    let n := (exiledUps s ws).getD sl 0
    decide ((s.skip.commits.foldl (fun n c => n + storeLines s sl c.lines) 0) + storeLines s sl ws ≤ 2048)
      && (n == 0 || decide ((sliceOf s sl).exq.length + (s.skip.commits.map (fun c => c.exUps.getD sl 0)).sum + n ≤ 1024)))

/-- The work of an engine is handed over and the engine is idle (R206). -/
def handOver (id : Nat) (s : State) : State :=
  let e := engOf s id
  let early : Bool := decide (s.clock.sub.toNat ≤ 896)
  let c : Commit :=
    { engine := id, wait := if early then 1 else 2, lines := e.wbuf
      atoms := e.undo.map (fun u => u.addr / 64 * 64)
      bclr := e.bclr, frees := e.frees, allocs := e.allocs, locks := e.held, why := e.why
      exUps := exiledUps s e.wbuf
      gpr0 := (e.gpr.getD 0 0).toNat % 2 ^ 32 }
  let s := e.held.foldl (fun s b => if lockHolder s b = some id then putLock b 0x201 s else s) s
  let s := match e.why with
    | some .selfTest => endSelfTest id (e.gpr.getD 0 0 == (clusterOf s (id / 16)).expect) s
    | _ => s
  { endRoutine id s with skip.commits := s.skip.commits ++ [c] }

/-- COMMIT (R206): handed over, or stalled while a store lacks room. A damaged line of the write buffer is found first,
and no commit is made (R225). -/
def commitTry (id : Nat) (s : State) : State :=
  let e := engOf s id
  let bad := (List.range e.wbuf.length).find? (fun i => (damageAt s 0x07 4 (id + i * 2 ^ 9)).isSome)
  match bad with
  | some i => loseEngine id (.quiet 7) (raiseInjected (0x07, 4, 2) (id + i * 2 ^ 9) [] [] s)
  | none => if storesRoom s e.wbuf then handOver id s else modEng id (fun e => { e with st := .stalled }) s

end Sys2Proof.Machine
end

