-- ==== Sys2Proof/Machine/Flow.lean ====
section
/-! DEFINITION. Lookups, the sequence guard, insertion by the packet path, the cleaner, the mover, the scanner and the
EXILED queue (chapter 7). -/

namespace Sys2Proof.Machine

open Sys2Proof

/-! ### Answers -/

/-- The slice answers a packet: it takes the slice's epoch with its result (R181). -/
def answerPkt (h sl : Nat) (a : Answer) (k : Pkt) (s : State) : State :=
  let e := sl * 2 + b2n (sliceOf s sl).e
  let s := { s with sw.epochCount := modAt s.sw.epochCount e (fun n => n + 1) }
  putPkt h { k with ans := some a, stage := .answered, epoch := some e } s

/-- The event of Table 19.1 for an answered lookup. -/
def lookupEvent (sl bucket status : Nat) (s : State) : State := perfEvent 0x0301 5 (0x200 + sl) bucket status 1 s

/-- The packet is dropped for integrity by its slice (R170, R193). -/
def sliceDrop (h sl : Nat) (l : Level) (k : Pkt) (s : State) : State :=
  answerPkt h sl (noAnswer l) { k with failDrop := some 0x83 } s

/-- A counted packet adds to its record (R168). -/
def countInto (k : Pkt) (l : Level) (s : State) (r : Bytes) : Bytes :=
  rset rPKTS (rget rPKTS r + 1) (rset rOCTETS (rget rOCTETS r + rxLen k)
    (rset rTCPF (rget rTCPF r ||| pktTcpFlags k l) (rset rLAST (ageNow s) r)))

/-! ### Stream state (R153) -/

/-- The stitch scan: the automaton goes on from a state over the kept bytes, until its depth is no greater than the byte
offset. The patterns matched on the way. (Log: DEDUCED, log entry 38.) -/
def stitch (pats : List Pattern) (cur : List Sym) : Nat → List Sym → List Pattern
  | _, [] => []
  | i, b :: bs =>
    let cur := autoState pats (cur ++ [b])
    if cur.length ≤ i + 1 then []
    else pats.filter (fun p => decide (p.bytes.length ≤ cur.length)
      && startsWith p p.bytes (cur.drop (cur.length - p.bytes.length))) ++ stitch pats cur (i + 1) bs

/-- Check, stitch and update the stream state of a flow with an extension block, for a packet of a stream class. The 16
bytes stand at the start of the block: PS_STATE [20:0], PS_BANK [21], NEXT_SEQ [53:22], PS_FLAGS [61:54] (DESIGN
CHOICE). (Log: DEDUCED, log entry 38.) -/
def streamStep (sl : Nat) (lane : Bool) (l : Level) (r : Bytes) (k : Pkt) (s : State) : Pkt × State :=
  match k.pmClass, keyL4 (parsedFrame k) l with
  | some c, some (o, 4) =>
    if fv s 2 0x20 c 6 1 = 0 || rget rEXT r = 0 then (k, s)
    else
      let gen := pget k bGEN
      let a := rget rEXT r * 128
      let w := leNat (hbmRead s 1 a 16)
      let seq := beAt (parsedFrame k) (o + 4) 4
      let all := (bankOf s gen).compiled
      let scanned := pget k bPM_STATUS = 1 || pget k bPM_STATUS = 2
      let same := bitsOf w 21 1 = gen && bitsOf w 22 32 = seq
      let st0 := stateSyms all (bitsOf w 0 21)
      let pipe := pipeOf k.port
      let left := s.cls.budget.getD pipe 0
      let doIt := same && !st0.isEmpty && decide (k.pmKept.length ≤ left)
      let hits := if doIt && lane then
          (stitch all st0 0 (k.pmKept.map symOf)).filter (fun p => (fv s 2 0x20 c 16 16).testBit p.group)
        else []
      let s := if doIt && lane then { s with cls.budget := setAt s.cls.budget pipe (left - k.pmKept.length) } else s
      let scan := ((payWindow k).take k.pmScanned).map symOf
      let exit := if !scanned || !k.pmWhole then []
        else if doIt && lane && k.pmScanned < 63 then autoState all (st0 ++ k.pmKept.map symOf) else autoState all scan
      let payLen := payTotal k
      let w := setBits (setBits (setBits w 0 21 (stateNum all exit)) 21 1 gen) 22 32 (seq + payLen)
      ({ k with streamHit := lowestId hits, streamGap := !same, laneMiss := doIt && !lane },
       hbmPresent sl (plainReq (0x200 + sl) .write 1 a 16)
         (hbmPresent sl (plainReq (0x200 + sl) .read 1 a 16) (hbmWrite 1 a (leBytes 16 w) s)))
  | _, _ => (k, s)

/-! ### Holding (R18, R199) -/

/-- A packet of a pending record is held behind its decision: its cells move to the allowance, and one buffer holds its
metadata and header (R251). Beyond HOLD_MAX it is dropped. (Log: DEDUCED, log entry 39.) -/
def holdPkt (h sl : Nat) (key : Bytes) (l : Level) (k : Pkt) (s : State) : State :=
  let pipe := pipeOf k.port
  let n := match holdOf s key with
    | some hd => hd.pkts.length
    | none => 0
  let nobuf := fun (s : State) =>
    discardEnd h k 0 (modPipe pipe (fun p => { p with holdNobuf := p.holdNobuf + 1 }) s)
  if fv s 4 2 0 8 4 ≤ n then discardEnd h k 0 (skipCount 12 1 s)
  else if k.part = .staging && decide (4096 < (pipeState s pipe).allowance + k.cells) then nobuf s
  else match poolTake (0x210 + pipe) pipe 1 s with
    | (none, s) => nobuf s
    | (some r, s) =>
      let s := if k.part = .staging then
          modPipe pipe (fun p => { p with staging := p.staging - k.cells, allowance := p.allowance + k.cells }) s
        else s
      let s := match holdOf s key with
        | some _ => modHold key (fun hd => { hd with pkts := hd.pkts ++ [h] }) s
        | none => { s with flow.holds := s.flow.holds ++ [{ key := key, slice := sl, pkts := [h], next := 1 }] }
      let s := monPoint h 6 k s
      let (k, s) := ingMeter k s
      let s := answerPkt h sl { noAnswer l with status := 4 } { k with wasHeld := true, part := .allowance, bufs := r :: k.bufs } s
      match pktOf s h with
      | some k => putPkt h { k with stage := .held } s
      | none => s

/-! ### A packet that finds a record -/

/-- Count the packet in the record at a handle, and answer it or hold it (Table 7.5). -/
def hitPkt (h rh status sl : Nat) (key : Bytes) (lane : Bool) (l : Level) (k : Pkt) (s : State) : State :=
  match recAt s rh with
  | none => s
  | some r =>
    let r := countInto k l s r
    let s := touchRec rh (putRec rh r s)
    if rget rSTATE r = 2 then holdPkt h sl key l k (lookupEvent sl (chosenBucket s key) 4 s)
    else
      let (k, s) := streamStep sl lane l r k s
      answerPkt h sl (mkAnswer status rh r l) k (lookupEvent sl (chosenBucket s key) status s)

/-- A packet that finds no record. -/
def missPkt (h sl : Nat) (key : Bytes) (l : Level) (k : Pkt) (s : State) : State :=
  answerPkt h sl (noAnswer l) k (lookupEvent sl (chosenBucket s key) 5 s)

/-! ### Insertion by the packet path (R197 to R200) -/

/-- The record that learning or a DECIDE makes (Tables 7.2 and 7.3). -/
def newRec (s : State) (key : Bytes) (home rstate ageClass endpoint : Nat) : Bytes :=
  [(rSTATE, rstate), (rAGE_CLASS, ageClass), (rHOME, home - 1), (rGEN, 1), (rLAST, ageNow s), (rFIRST, ageNow s),
   (rENDPOINT, endpoint)].foldl (fun r (f : RecField × Nat) => rset f.1 f.2 r) (blankRec key)

/-- HDR of a packet: bytes from the key level's IP header (Table 8.2). -/
def hdrOf (k : Pkt) (l : Level) : Bytes := ((parsedFrame k).drop (l.ipOff.getD 0)).take 128

def keyLevelOf (k : Pkt) : Nat := if (pget k bFLOW_REQ).testBit 2 then 2 else 1

/-- The engine and routine of a DECIDE, or the counter of R197 that the failing test names. An entry that cannot be corrected allows
no dispatch (R239). (Log: DEDUCED, log entry 39.) -/
def decidePick (key : Bytes) (k : Pkt) (s : State) : Except Nat (Nat × Nat) × State :=
  let routine := pget k (384 + 16 * fv s 4 2 0 0 3, 6)
  match if s.ctl.ready then pickEngine s key else none with
  | none => (.error 1, s)
  | some id =>
    let (bad, s) := ucFetch (id / 16) 2 routine s
    (if !bad && entryAt s (id / 16) routine / 2 ^ 14 = 3 then .ok (id, routine) else .error 2, s)

/-- A learn or a DECIDE that finds no record (R197): `mode` is 2 or 3; `inst` says that the cache may take the record (R170). A DECIDE
takes the home lock at once, for which the lock table needs a free entry (R182, R198). (Log: DEDUCED, log entry 39.) -/
def insertPkt (h sl mode : Nat) (inst : Bool) (key : Bytes) (l : Level) (k : Pkt) (s : State) : State :=
  let none_ := missPkt h sl key l k
  let b := chosenBucket s key
  match newHome s key with
  | none => none_ (pairCount 8 1 s)
  | some home =>
    if isLocked s b || (mode = 3 && !lockFree s b) then none_ (flowEvent 6 sl 0 (blankRec key) (flowCount sl 5 1 s))
    else match insertPlace s key with
      | none => none_ (insertFail key true s)
      | some rh =>
        if keyLong key && decide (fv s 3 7 sl 0 9 ≤ (sliceOf s sl).longUsed) then none_ (flowCount sl 6 1 s)
        else
          let s0 := if keyLong key then modSlice sl (fun x => { x with longUsed := x.longUsed + 1 }) s else s
          let make := fun (st : Nat) => countInto k l s (newRec s key home st (fv s 3 3 sl 4 4) (pget k bENDPOINT))
          if mode = 2 then
            let (r, s) := mirrorNew (make 0) s0
            let s := flowEvent 1 sl rh r (flowCount sl 3 1 (placeRec rh r s))
            let s := if isStash rh || !inst then s else (installRec rh key r s).2
            answerPkt h sl (mkAnswer 3 rh r l) k (lookupEvent sl b 3 s)
          else match decidePick key k s with
            | (.error i, s) => none_ (skipCount i 1 s)
            | (.ok (id, routine), s) =>
              let r := make 2
              let s := if keyLong key then modSlice sl (fun x => { x with longUsed := x.longUsed + 1 }) s else s
              let s := flowCount sl 4 1 (placeRec rh r s)
              let user := leBytes 16 (pget k bUSER)
              let d := descriptor s 1 routine sl (pipeOf k.port) rh 1 (keyLevelOf k) k.ingTs.toNat user key [] (hdrOf k l)
              let s := startEngine id (.decide key) routine rh (some b) d s
              holdPkt h sl key l k (lookupEvent sl b 4 s)

/-- One packet of a guard entry after the bucket has returned (R171). `inst`: no error forbids an installation (R170). -/
def serveMiss (h sl : Nat) (inst leader lane : Bool) (s : State) : State :=
  match pktOf s h with
  | none => s
  | some k =>
    match lookupLevel k with
    | none => s
    | some l =>
      let key := pktKey k l
      let mode := pget k bFLOW_REQ % 4
      let mode := if mode = 2 && fv s 3 3 sl 0 1 = 0 then 1 else mode
      match findRec s key with
      | some (rh, _) =>
        let near := isStash rh || (cachedAt s rh).isSome
        if near then hitPkt h rh (if leader then 2 else 1) sl key lane l k (if leader then s else flowCount sl 1 1 s)
        else
          let s := hitPkt h rh 2 sl key lane l k s
          if leader && inst then
            match recAt s rh with
            | none => s
            | some r =>
              let (ok, s) := installRec rh key r s
              if ok then s
              else flowCount sl 7 1 (modSlice sl (fun x => { x with winSkip := x.winSkip + 1 }) s)
          else s
      | none => if mode = 1 then missPkt h sl key l k s else insertPkt h sl mode inst key l k s

/-! ### FLOW_LOOKUP (R168, R171, R172) -/

/-- A damaged word that a predicate on its address names: corrected, or uncorrectable (Table 16.2). (Log: DEDUCED, log entry 41.) -/
def useNear (corr uncorr : FaultKind) (mine : Nat → Bool) (s : State) : Bool × State :=
  match s.lod.damage.find? (fun d => d.source.toNat == corr.1
      && (d.kind.toNat == corr.2.1 || d.kind.toNat == uncorr.2.1) && mine d.addr.toNat) with
  | none => (false, s)
  | some d => useWord corr uncorr d.addr.toNat s

def fkCHART_CORR : FaultKind := (0x05, 3, 3)
def fkCHART_UNCORR : FaultKind := (0x05, 4, 1)
def fkCACHE_CORR : FaultKind := (0x06, 1, 3)
def fkCACHE_UNCORR : FaultKind := (0x06, 2, 1)

/-- Records in a way of a set are given up (R193). -/
def wayGone (sl set : Nat) (way : Option Nat) (s : State) : State :=
  let gone := (setRecs s sl set).filter (fun e => match way with
    | some w => (waysOf e.2).contains w
    | none => false)
  gone.foldl (fun s e => uncache e.1 s) s

/-- The chart word and the cache set of a key are used (R193): an uncorrectable cache word's way is given up, and read
again from HBM. -/
def touchWords (sl : Nat) (key : Bytes) (s : State) : Bool × State :=
  let p := keyPrimary s key
  let set := keySet s key
  let (b1, s) := useNear fkCHART_CORR fkCHART_UNCORR (fun a => a / 64 == (sl * 2 ^ 38 + p) / 64) s
  let inSet := fun (a : Nat) => a / 2 ^ 38 == sl && bitsOf a 4 14 == set
  let way := (s.lod.damage.find? (fun d => d.source.toNat == 0x06 && inSet d.addr.toNat)).map (fun d => d.addr.toNat % 16)
  let (b2, s) := useNear fkCACHE_CORR fkCACHE_UNCORR inSet s
  if b2 then
    let s := wayGone sl set way s
    (true, { s with lod.damage := s.lod.damage.filter (fun d => !(d.source.toNat == 0x06 && inSet d.addr.toNat)) })
  else (b1, s)

/-- The lookup that a slice serves next: its pipeline and its packet, the FIFOs taken in rotation (R17). -/
def servedNext (k : Slice) : Option (Nat × Nat) :=
  (List.range 4).findSome? (fun i =>
    let p := (k.rot + i) % 4
    (k.fifo.getD p []).head?.map (fun h => (p, h)))

/-- The lookup served leaves its FIFO, and stage 6 of its pipeline may go on. -/
def servedOut (sl pipe : Nat) (s : State) : State :=
  stage6Resume pipe (modSlice sl (fun x => { x with fifo := modAt x.fifo pipe (fun q => q.drop 1), rot := (pipe + 1) % 4 }) s)

/-- The guard entries of a slice. -/
def guardCount (s : State) (sl : Nat) : Nat := (s.flow.guards.filter (fun g => g.slice == sl)).length

/-- A miss: the packet waits behind a guard entry, and the chosen bucket is read through the arbiter as a paired read (R168, R316). -/
def openGuard (pk sl : Nat) (key : Bytes) (k : Pkt) (s : State) : State :=
  let s := flowCount sl 2 1 (modSlice sl (fun x => { x with winMiss := x.winMiss + 1 }) s)
  let b := chosenBucket s key
  let g : Guard := { slice := sl, key := key, bucket := b, pkts := [pk], back := none }
  hbmPresent sl (sliceReq sl .pairedRead (b * 128) 128)
    { putPkt pk { k with stage := .chained } s with flow.guards := s.flow.guards ++ [g] }

/-- The lookup of a packet that its slice serves; none where the pipeline's wait store has no room for a miss (R172). -/
def lookupPkt (pk sl : Nat) (lane : Bool) (l : Level) (k : Pkt) (s : State) : Option State :=
  let key := pktKey k l
  let full := decide (4096 ≤ waitingOf s (pipeOf k.port))
  let s := flowCount sl 0 1 s
  if s.flow.guards.any (fun g => g.key == key) then
    if full then none
    else some { putPkt pk { k with stage := .chained } s with
      flow.guards := s.flow.guards.map (fun g => if g.key = key then { g with pkts := g.pkts ++ [pk] } else g) }
  else
    let (bad, s) := touchWords sl key s
    if bad then some (sliceDrop pk sl l k s)
    else
      let near := stashRecs s sl ++ (setRecs s sl (keySet s key)).map (fun e => (e.1, e.2.bytes))
      match findKey key near with
      | some (rh, _) => some (hitPkt pk rh 1 sl key lane l k (flowCount sl 1 1 s))
      | none => if full then none else some (openGuard pk sl key k s)

/-- The slice accepts lookups: its domain is on, a guard entry is free, and its arbiter port does not stall (R171, R324). -/
def sliceAccepts (s : State) (sl : Nat) : Bool :=
  domainOn s (8 + sl) && decide (guardCount s sl < 4096) && (kget [] s.hbm.stalled sl).isEmpty && !s.pair.replaying

/-- The slice that serves a packet next, and the pipeline whose FIFO it heads. -/
def lookupServed (s : State) (pk : Nat) : Option (Nat × Nat) :=
  [0, 1, 2, 3].findSome? (fun sl => (servedNext (sliceOf s sl)).bind (fun e => if e.2 = pk then some (sl, e.1) else none))

/-- FLOW_LOOKUP: a slice serves the packet that is next in its FIFOs. `lane` says that a stitch lane is free. A lookup that the slice
cannot serve stays at the head of its FIFO. -/
def doFlowLookup (pk : Nat) (lane : Bool) (s : State) : State :=
  match lookupServed s pk with
  | none => s
  | some (sl, pipe) =>
    match pktOf s pk with
    | none => servedOut sl pipe s
    | some k =>
      match lookupLevel k with
      | none => servedOut sl pipe s
      | some l =>
        if !sliceAccepts s sl then s
        else match lookupPkt pk sl (lane && domainOn s (4 + pipeOf k.port)) l k s with
          | none => s
          | some s => servedOut sl pipe s

/-! ### FLOW_BUCKET_RETURN (R164, R170, R171) -/

/-- One unit of a returned bucket: readable, and its REC_CRC. -/
inductive UnitCheck where
  | good | unread | wrong
deriving DecidableEq, Repr

/-- The check of unit u (0 or 1) of a bucket: `bad` says that HBM could not correct it. -/
def unitCheck (b u : Nat) (bad : Bool) (s : State) : UnitCheck × State :=
  let raw := bucketHbm s b
  let h := mkHandle b u
  let (ecc, s) := hbmCheck (placeOf s 0 (b * 128 + 64 * u)) s
  if bad || ecc then (.unread, s)
  else if unitFails h (sliceB raw (64 * u) 64) || (damageAt s 0x05 1 h).isSome then (.wrong, s)
  else (.good, s)

/-- The unit is an empty slot: no record, and no half of a long one. -/
def unitEmpty (raw : Bytes) (u : Nat) : Bool :=
  if u = 0 then !recValid raw else !(recValid raw && recLong raw) && !recValid (raw.drop 64)

/-- The unit holds the key, or half of the record that does. -/
def unitHolds (raw : Bytes) (key : Bytes) (u : Nat) : Bool :=
  let r := if recValid raw && recLong raw then raw else sliceB raw (64 * u) 64
  recMatches r && recKey r == key

/-- A failing empty slot is rewritten as an empty unit (R170). -/
def fixEmpty (b u : Nat) (s : State) : State :=
  let h := mkHandle b u
  let s := clearDamage 0x05 1 h (raiseFault fkREC_CRC h s)
  if u = 1 then hbmWrite 0 (b * 128 + 64) (zerosB 64) s
  else
    let s := hbmWrite 0 (b * 128) (zerosB 64) s
    if chartOf s b then { putExiled b 255 s with flow.exFixed := b :: s.flow.exFixed.filter (fun x => x != b) } else s

/-- A damaged unit keeps insertion out of its bucket until it is rewritten (R170). -/
def refuseUnit (h : Nat) (s : State) : State :=
  if s.flow.refuse.contains h then s else { s with flow.refuse := h :: s.flow.refuse }

/-- What the checks of a returned bucket leave: the unit that fails the lookup, if one does, and whether a record may be installed. -/
def bucketChecks (b : Nat) (key : Bytes) (bad : BitVec 2) (s : State) : Option Nat × Bool × State :=
  let raw := bucketHbm s b
  [0, 1].foldl (fun (x : Option Nat × Bool × State) u =>
    let (c, s) := unitCheck b u (bad.getLsbD u) x.2.2
    match c with
    | .good => (x.1, x.2.1, s)
    | .unread => (some u, x.2.1, s)
    | .wrong =>
      if unitEmpty raw u then (x.1, false, fixEmpty b u s)
      else if unitHolds raw key u then (some u, x.2.1, s) else (x.1, x.2.1, s)) (none, true, s)

/-- Any other read of a bucket from HBM: every unit is checked (R164). The damaged units that hold a record, with REC_CRC raised for
each; a damaged empty slot is made good (R170). (Log: DEDUCED, log entry 37.) -/
def readChecked (b : Nat) (s : State) : List Nat × State :=
  let raw := bucketHbm s b
  [0, 1].foldl (fun (x : List Nat × State) u =>
    let (c, s) := unitCheck b u false x.2
    if c = .good then (x.1, s)
    else if c = .wrong ∧ unitEmpty raw u = true then (x.1, fixEmpty b u s)
    else (x.1 ++ [u], refuseUnit (mkHandle b u) (raiseFault fkREC_CRC (mkHandle b u) s))) ([], s)

/-- A read of a bucket by a slice beside the packet path. -/
def sliceRead (b : Nat) (s : State) : List Nat × State :=
  let sl := bucketSlice s b
  readChecked b (hbmPresent sl (sliceReq sl .read (b * 128) 128) s)

/-- The units that a record at a handle takes: both, for a long one. -/
def recUnits (h : Nat) (r : Bytes) : List Nat := if recLong r then [0, 1] else [hSlot h]

/-- A record met in a bucket can be used: it is cached, or none of its units is damaged. -/
def usable (s : State) (fails : List Nat) (x : Nat × Bytes) : Bool :=
  (cachedAt s x.1).isSome || !(recUnits x.1 x.2).any (fun u => fails.contains u)

/-- A record command looks for its key (R161, R164, R193): whether a damaged word or unit stands in the way, with the chosen bucket
read and checked where stash and cache do not hold the key. (Log: DEDUCED, log entry 37.) -/
def seekKey (key : Bytes) (s : State) : Bool × State :=
  let sl := keySlice s key
  let (bad, s) := touchWords sl key s
  let near := stashRecs s sl ++ (setRecs s sl (keySet s key)).map (fun e => (e.1, e.2.bytes))
  if bad || (findKey key near).isSome then (bad, s)
  else
    let (fails, s) := sliceRead (chosenBucket s key) s
    (!fails.isEmpty, s)

/-- FLOW_BUCKET_RETURN: the slice acts on the bucket of a guard entry that has returned from HBM; `bad` are its units that HBM could not
correct. What the packets change goes out as the one paired write of the miss, or the hold is released (R23, R171). -/
def doFlowBucketReturn (pk : Nat) (bad : BitVec 2) (lane : Bool) (s : State) : State :=
  match s.flow.guards.find? (fun g => g.pkts.head? == some pk) with
  | none => s
  | some g =>
    match g.back with
    | none => s
    | some faulted => stage6Resumes (serveGuard g (if faulted then 3 else bad) lane s)
where
  serveGuard (g : Guard) (bad : BitVec 2) (lane : Bool) (s : State) : State :=
    let s := { s with flow.guards := s.flow.guards.filter (fun x => x.key != g.key) }
    let body := fun (s : State) =>
      match bucketChecks g.bucket g.key bad s with
      | (some u, _, s) =>
        let h := mkHandle g.bucket u
        let s := refuseUnit h (raiseFault fkREC_CRC h (flowCount g.slice 12 g.pkts.length s))
        g.pkts.foldl (fun s h => match pktOf s h with
          | some k => sliceDrop h g.slice ((lookupLevel k).getD levelReset) k s
          | none => s) s
      | (none, inst, s) =>
        match g.pkts with
        | [] => s
        | h :: rest => rest.foldl (fun s h => serveMiss h g.slice inst false lane s) (serveMiss h g.slice inst true lane s)
    let c := chosenBucket s g.key
    if c = g.bucket then sliceWritten g.slice true g.bucket body s
    else sliceWritten g.slice false c (sliceWritten g.slice true g.bucket body) s

/-! ### The answer at the pipeline (R167, R18, R210) -/

/-- A packet with its answer goes on at stage 7; a drop that its slice decided takes it past the stages. -/
def resume (pk : Nat) (bad : Option (Fin 12)) (k : Pkt) (s : State) : State :=
  let k := match k.ans with
    | some a => applyFlowAction a k
    | none => k
  match k.failDrop with
  | some r => putPkt pk { setDrop r k with stage := .stage12 } s
  | none => let ks := lateStages pk bad (k, s); putPkt pk ks.1 ks.2

/-- LOOKUP_ANSWER. -/
def doLookupAnswer (pk : Nat) (bad : Option (Fin 12)) (s : State) : State :=
  match pktOf s pk with
  | none => s
  | some k => if k.stage != .answered || k.wasHeld then s else resume pk bad k (monPoint pk 3 k s)

/-- DECIDE_REENTER: a packet held behind a decision that has ended comes to the head of its pipeline's recirculation FIFO and re-enters at
stage 7 (R18, R251). -/
def doDecideReenter (pk : Nat) (bad : Option (Fin 12)) (s : State) : State :=
  match pktOf s pk with
  | none => s
  | some k =>
    let pipe := pipeOf k.port
    if k.stage != .answered || !k.wasHeld || (pipeState s pipe).recirc.head? != some pk || (pipeState s pipe).hold6.isSome then s
    else
      let s := modPipe pipe (fun p => { p with recirc := p.recirc.drop 1 }) s
      let s := k.bufs.foldl (fun s r => poolRelease r s) s
      resume pk bad { k with bufs := [], passCfg := pipeCfg s } (monPoint pk 7 k s)

/-! ### The cleaner (R175) -/

/-- The dirty record of a set that was least recently used, in a bucket that is not locked. -/
def cleanPick (s : State) (sl set : Nat) : Option Nat :=
  (((setRecs s sl set).filter (fun e => e.2.dirty && !isLocked s (hBucket e.1))).foldl
    (fun (b : Option (Nat × CacheRec)) e => match b with
      | none => some e
      | some x => if e.2.used < x.2.used then some e else some x) none).map (fun e => e.1)

/-- One write-back, as a request of the slice: the unit of R165, in its own activation (R25, R175). -/
def cleanOne (sl h : Nat) (s : State) : State :=
  let o := match cachedAt s h with
    | some c => if recLong c.bytes then 64 else 64 * hSlot h
    | none => 0
  hbmPresent sl (sliceReq sl .write (hBucket h * 128 + o) 64) (flowCount sl 8 1 (writeBack h s))

/-- CACHE_CLEANER_WRITEBACK: one write-back of the set at the head of a slice's list. A set that is back at CACHE_CLEAN_MIN leaves the
list; a stalled port takes no write-back (R324). -/
def doCacheCleanerWriteback (slice : Fin 4) (s : State) : State :=
  let sl := slice.val
  let enough := fun (s : State) (set : Nat) => decide (fv s 3 6 sl 0 4 ≤ cleanWays s sl set)
  let left := (sliceOf s sl).cleanList.dropWhile (enough s)
  let s := modSlice sl (fun k => { k with cleanList := left }) s
  match left with
  | [] => s
  | set :: rest =>
    if !(kget [] s.hbm.stalled sl).isEmpty then s
    else match cleanPick s sl set with
      | none => s
      | some h =>
        let s := cleanOne sl h s
        if enough s set then modSlice sl (fun k => { k with cleanList := rest }) s else s

/-! ### The mover (R174) -/

/-- A record of the stash goes to a free place of a bucket; a tombstone's entry and the record's refresh bit go with it (R365). -/
def moveRec (sl e h : Nat) (r : Bytes) (note : Bool) (s : State) : State :=
  let old := stashHandle sl e
  let s := modSlice sl (fun k => { k with stash := setAt k.stash e none }) s
  let s := if note then placeRec h r s else writeSlot h r s
  let s := modSlice sl (fun k => { k with tombs := k.tombs.map (fun t => if t.handle = old then { t with handle := h } else t) }) s
  let s := { s with pair.refresh := s.pair.refresh.map (fun x => if x = old then h else x) }
  flowEvent 7 sl h r s

/-- Stash entries of a slice, oldest first, tombstones left out. -/
def moverOrder (s : State) (sl : Nat) : List (Nat × StashRec) :=
  let es := (List.range 8).filterMap (fun e => ((sliceOf s sl).stash.getD e none).map (fun r => (e, r)))
  sortBy (fun x => x.2.order) (es.filter (fun x => recMatches x.2.bytes))

/-- Places for records in their second buckets, one after another; none if one finds none. -/
def secondPlaces (s : State) : List Bytes → List Nat → Option (List Nat)
  | [], taken => some taken
  | r :: rs, taken =>
    let b := keySecond s (recKey r)
    let free := [mkHandle b 0, mkHandle b 1].filter (fun h => (recAt s h).isNone && !taken.contains h
      && !(hSlot h = 1 && (match recAt s (mkHandle b 0) with
        | some x => recLong x
        | none => false)))
    if refused s b then none
    else if recLong r then (if free.length = 2 then secondPlaces s rs (taken ++ free) else none)
    else match free with
      | h :: _ => secondPlaces s rs (taken ++ [h])
      | [] => none

/-- The mover starts to move the group of a stash record to its second candidates (R174, step 2), if it can. (Log: DEDUCED, log entry 40.) -/
def moveGroup (sl e : Nat) (r : Bytes) (s : State) : Option State :=
  let p := keyPrimary s (recKey r)
  let (fails, s) := sliceRead p s
  let recs := (bucketRecs s p).filter (fun x => keyPrimary s (recKey x.2) == p)
  let free := (List.range 8).filter (fun i => ((sliceOf s sl).stash.getD i none).isNone)
  let all := r :: recs.map (fun x => x.2)
  let locks := sortBy id (dedupN (p :: all.map (fun x => keySecond s (recKey x))))
  if chartOf s p || recs.any (fun x => !recMatches x.2) || !fails.isEmpty || decide (free.length < recs.length)
      || locks.any (fun b => !lockFree s b) || (secondPlaces s all []).isNone then none
  else
    let s := locks.foldl (fun s b => putLock b 0x200 s) s
    let s := (recs.zip free).foldl (fun s (x : (Nat × Bytes) × Nat) =>
      placeRec (stashHandle sl x.2) x.1.2
        (uncache x.1.1 (sliceWritten sl false (hBucket x.1.1) (writeBack x.1.1) s))) s
    let entries := (e, keySecond s (recKey r)) :: (recs.zip free).map (fun x => (x.2, keySecond s (recKey x.1.2)))
    let m : Move := { primary := p, stash := entries, group := recs.map (fun x => x.1), locked := locks, age := 0 }
    some (modSlice sl (fun k => { k with move := some m }) s)

/-- What the mover can do for a stash record (R174): nothing while a bucket is locked or no place is found. -/
def moverTry (sl : Nat) (x : Nat × StashRec) (s : State) : Option State :=
  let key := recKey x.2.bytes
  let b := chosenBucket s key
  if isLocked s b then none
  else match bucketPlace s b (recLong x.2.bytes) with
    | some h =>
      if exiledKey s key && !exqRoom s sl then none
      else some (sliceWritten sl false b (moveRec sl x.1 h x.2.bytes true) s)
    | none => moveGroup sl x.1 x.2.bytes s

/-- MOVER_ATTEMPT: a slice's mover makes its attempt of the Fix for the oldest stash entry that can be moved; the others wait for a
slot of their buckets (R174). -/
def doMoverAttempt (slice : Fin 4) (s : State) : State :=
  let sl := slice.val
  let k := sliceOf s sl
  if k.move.isSome || k.moverUsed || asleep s || !domainOn s (8 + sl) then s
  else modSlice sl (fun k => { k with moverUsed := true })
    (((moverOrder s sl).findSome? (fun x => moverTry sl x s)).getD s)

/-- A record of the group goes from the stash to its second candidate; answers whether it found its place. -/
def moveHome (sl : Nat) (x : Nat × Nat) (s : State) : Bool × State :=
  match (sliceOf s sl).stash.getD x.1 none with
  | none => (false, s)
  | some r => match bucketPlace s x.2 (recLong r.bytes) with
    | some h => (true, sliceWritten sl false x.2 (moveRec sl x.1 h r.bytes false) s)
    | none => (false, s)

/-- The boundary at which a group move ends: the chart changes, the records go to their second candidates (R174). -/
def moveEnd (sl : Nat) (s : State) : State :=
  match (sliceOf s sl).move with
  | none => s
  | some m =>
    let s := { s with flow.chart := kset false s.flow.chart m.primary true }
    let old := m.group.map (fun h => (h, match hbmSlot s h with
      | some r => recLong r
      | none => false))
    let (n, s) := m.stash.foldl (fun (a : Nat × State) x => let r := moveHome sl x a.2; (a.1 + b2n r.1, r.2)) (0, s)
    let s := sliceWritten sl false m.primary (fun s =>
      putExiled m.primary n (old.foldl (fun s x => clearSlot x.1 x.2 s) s)) s
    releaseLocks 0x200 m.locked (modSlice sl (fun k => { k with move := none }) s)

def moverStep (s : State) : State := [0, 1, 2, 3].foldl (fun s i => moveEnd i s) s

/-! ### EXILED updates (R162) -/

/-- EXILED_UPDATE: the head of a slice's EXILED queue is applied to slot 0 of its primary bucket, whose unit is read and checked; a
damaged empty unit of an exiled group is made good and holds 255 from then on (R162, R170). -/
def doExiledUpdate (slice : Fin 4) (s : State) : State :=
  match (sliceOf s slice.val).exq with
  | [] => s
  | (p, up) :: rest =>
    sliceWritten slice.val false p (fun s =>
      let (_, s) := sliceRead p (modSlice slice.val (fun k => { k with exq := rest }) s)
      if s.flow.exFixed.contains p then s
      else putExiled p (if up then exiledOf s p + 1 else exiledOf s p - 1) s) s

/-! ### The scanner (R178, R179, R351) -/

/-- Ages since a record was last seen, counted from HOME_SINCE where that is later. -/
def recAge (s : State) (r : Bytes) : Nat :=
  let a := ns32 (ageNow s) (rget rLAST r)
  let hs := ns32 (ageNow s) (s.pair.homeSince.getD (rget rHOME r) 0)
  if s.pair.st = .solo || 2 ^ 31 ≤ hs then a else min a hs

def recExpired (s : State) (sl : Nat) (r : Bytes) : Bool :=
  let lim := fv s 3 4 (rget rAGE_CLASS r) 0 31
  recLive r && !recStandby s r && lim ≠ 0 && decide (max 1 (lim * fv s 3 5 sl 0 9 / 256) ≤ recAge s r)

/-- One record met by the scanner. (Log: DEDUCED, log entry 39; DEDUCED, log entry 40.) -/
def scanRec (sl : Nat) (x : Nat × Bytes) (s : State) : State :=
  if !recExpired s sl x.2 then s
  else if tombRoom s sl then flowCount sl 9 1 (makeTomb x.1 5 s) else flowCount sl 10 1 s

def damagedChart (sl b : Nat) (d : Damage) : Bool :=
  d.source.toNat == 0x05 && (d.kind.toNat == 3 || d.kind.toNat == 4) && d.addr.toNat / 64 == (sl * 2 ^ 38 + b) / 64

/-- The scanner's visit to the 64 primary indices of a damaged chart word, in whose course both candidate buckets of their records are
read, makes the word good at its end (R193). -/
def chartVisit (sl b : Nat) (s : State) : State :=
  let w := b / 64
  let s := if b % 64 = 0 then
      modSlice sl (fun k => { k with rebuild := if s.lod.damage.any (damagedChart sl b) then some w else none }) s
    else s
  if (sliceOf s sl).rebuild ≠ some w then s
  else
    let s := ((bucketRecs s b).filter (fun x => keyPrimary s (recKey x.2) == b)).foldl
      (fun s x => (sliceRead (keySecond s (recKey x.2)) s).2) s
    if b % 64 = 63 then
      modSlice sl (fun k => { k with rebuild := none })
        { s with lod.damage := s.lod.damage.filter (fun d => !damagedChart sl b d) }
    else s

/-- One bucket met by the scanner: locked ones are skipped, and every unit read is checked. -/
def scanBucket (sl b : Nat) (s : State) : State :=
  let s := chartVisit sl b s
  if isLocked s b then flowCount sl 10 1 s
  else sliceWritten sl false b (fun s =>
    let (fails, s) := sliceRead b s
    ((bucketRecs s b).filter (usable s fails)).foldl (fun s x => scanRec sl x s) s) s

def scanLoop (sl : Nat) : Nat → State → State
  | 0, s => s
  | n + 1, s =>
    let pos := (sliceOf s sl).scanPos
    let s := scanBucket sl (sl * sliceN s + pos) s
    scanLoop sl n (modSlice sl (fun k => { k with scanPos := (pos + 1) % sliceN s }) s)

/-- AGE_SCAN: a slice's scanner makes the reads of one Fix and tests the stash. -/
def doAgeScan (slice : Fin 4) (s : State) : State :=
  let sl := slice.val
  if !s.ctl.ready || asleep s || !domainOn s (8 + sl) then s
  else
    let s := scanLoop sl (fv s 3 9 sl 0 9) s
    (stashRecs s sl).foldl (fun s x =>
      if isLocked s (chosenBucket s (recKey x.2)) then flowCount sl 10 1 s else scanRec sl x s) s

/-! ### Boundary work -/

/-- Waiting lock requests have seen one more boundary (R182); limits of one Fix start again (R169, R174, R192). -/
def flowAge (s : State) : State :=
  let ms := s.flow.slices.map (fun k => { k with
    longUsed := 0
    moverUsed := false
    waits := k.waits.map (fun w => { w with age := w.age + 1 }) })
  { s with
    flow.slices := ms
    flow.eventAge := (s.flow.eventAge.map (fun n => n + 1)).filter (fun n => decide (n < 256)) }

/-- The records of the slices as loop 2 sees them (R40). -/
def loop2Latch (s : State) : State :=
  if fixN s % 1024 ≠ 0 then s else { s with flow.apRecs := [0, 1, 2, 3].map (sliceRecords s) }

/-- Autopilot loop 2 (R187): the new value of a slice's AGE_PRESSURE object. -/
def loop2 (s : State) (sl : Nat) : Nat :=
  let v := objVal s (oid 3 5 sl)
  let n := s.flow.apRecs.getD sl 0
  let cap := sliceN s
  let p := bitsOf v 0 9
  let p := if cap * 7 < n * 8 then p - 16 else if n * 4 < cap * 3 then p + 16 else p
  setBits v 0 9 (max (bitsOf v 16 9) (min 256 p))

/-- Autopilot loop 3 (R187): the new value of a slice's CACHE_CLEAN_MIN object. -/
def loop3 (s : State) (sl : Nat) : Nat :=
  let v := objVal s (oid 3 6 sl)
  let k := sliceOf s sl
  let m := bitsOf v 0 4
  let m := if k.winMiss < k.winSkip * 16 then m + 1 else if k.winSkip * 256 < k.winMiss then m - 1 else m
  setBits v 0 4 (max (bitsOf v 8 4) (min (bitsOf v 12 4) m))

/-- The counts of loop 3 start again. -/
def loop3Reset (s : State) : State :=
  { s with flow.slices := s.flow.slices.map (fun k => { k with winMiss := 0, winSkip := 0 }) }

/-- QR idleness of the seeds: no slice holds a record, a tombstone or a stash entry. -/
def flowEmpty (s : State) : Bool :=
  [0, 1, 2, 3].all (fun sl => sliceRecords s sl == 0 && (sliceOf s sl).tombs.isEmpty && (stashRecs s sl).isEmpty)

/-- The checks of a commit on the flow engine's fields (R186). -/
def flowCfgOk (s : State) : Bool :=
  [0, 1, 2, 3].all (fun sl =>
    decide (fv s 3 6 sl 8 4 ≤ fv s 3 6 sl 0 4) && decide (fv s 3 6 sl 0 4 ≤ fv s 3 6 sl 12 4)
      && decide (fv s 3 6 sl 12 4 ≤ 11) && decide (fv s 3 5 sl 16 9 ≤ fv s 3 5 sl 0 9))

end Sys2Proof.Machine
end

