-- ==== Sys2Proof/Machine/FlowCmds.lean ====
section
/-! DEFINITION. The group 0x04xx commands (Table 7.10, R188 to R192). -/

namespace Sys2Proof.Machine

open Sys2Proof

/-- The 40-byte key of a command's payload. -/
def payKey (p : CmdPkt) : Bytes := sliceB (payBytes p) 0 40

def recObj (b : Nat) : Obj := oid 3 0x100 b

/-- Ring 1 addresses only records of its tenants (R188). A payload that is too short or cannot be read names no tenant: the checks
after this one refuse it (R72). -/
def keyTenantOk (s : State) (p : CmdPkt) : Bool :=
  p.payload.isNone || decide (p.paramLen.toNat < 40) || mayTenant s p (keyTenant (payKey p))

def keyClaims (s : State) (p : CmdPkt) : List Obj := [recObj (chosenBucket s (payKey p))]

/-- An input that addresses a record counts as addressing the group of its tenant (chapter 7, Configuration fields). -/
def keyTouch (_ : State) (p : CmdPkt) : List (List Nat × Bool) :=
  [([0, grp 4 3, grp 1 (keyTenant (payKey p))], false)]

/-- FLOW_ACTION is legal (Table 7.4). -/
def actionOk (w : Nat) : Bool :=
  let op := bitsOf w 0 4
  decide (op ≤ 3) && bitsOf w 29 3 == 0 && (op != 1 || (!w.testBit 4 && bitsOf w 7 7 != 0))

/-- REWRITE is legal: reserved bits zero; a short record uses 8 bytes. -/
def rewriteOk (long : Bool) (b : Bytes) : Bool := if long then leNat b < 2 ^ 144 else leNat b < 2 ^ 48

/-- Log: DEDUCED, log entry 40. -/
def specReserved (b : Bytes) : Bool := isZeros (sliceB b 42 2) && isZeros (sliceB b 80 48)

/-- A flow spec for FLOW_INSERT (R189). -/
def specOk (b : Bytes) : Bool :=
  let long := keyLong (b.take 40)
  specReserved b && leAt b 40 1 == b2n long && decide (leAt b 41 1 ≤ 15) && actionOk (leAt b 44 4)
    && rewriteOk long (sliceB b 48 24) && decide (leAt b 72 4 < 2 ^ 18)

/-- The fields of a flow spec that a mask selects, written into a record (R189). -/
def specApply (mask : Nat) (b r : Bytes) : Bytes :=
  let set := fun (i : Nat) (f : RecField) (v : Nat) (r : Bytes) => if mask.testBit i then rset f v r else r
  let r := set 0 rACTION (leAt b 44 4) r
  let r := set 1 rREWRITE (leAt b 48 24) r
  let r := set 2 rAGE_CLASS (leAt b 41 1) r
  let r := set 3 rENDPOINT (leAt b 72 4) r
  let r := set 4 rEXT (leAt b 76 4) r
  let r := set 5 rPKTS 0 r
  let r := set 5 rOCTETS 0 r
  set 5 rTCPF 0 r

/-- The units of a record have been rewritten: their damage is gone, and they no longer keep insertion out of the bucket (R170). -/
def unitRewritten (h : Nat) (r : Bytes) (s : State) : State :=
  if isStash h then s
  else (recUnits h r).foldl (fun s u =>
    let x := mkHandle (hBucket h) u
    clearDamage 0x05 1 x { s with flow.refuse := s.flow.refuse.filter (fun b => b != x) }) s

/-- A record command's write goes to the arbiter as the slice's own request. -/
def recWritten (key : Bytes) (f : State → State) (s : State) : State :=
  sliceWritten (keySlice s key) false (chosenBucket s key) f s

/-- The bucket whose lock keeps a record command out (R183). -/
def lockedFor (s : State) (key : Bytes) : Bool := isLocked s (chosenBucket s key)

def insertBody (p : CmdPkt) (s : State) : State × CmdOut :=
  let b := payBytes p
  let key := payKey p
  let sl := keySlice s key
  if lockedFor s key then (s, outErr stBUSY)
  else
  let (bad, s) := seekKey key s
  if (findRec s key).isSome then (s, outErr stEXISTS)
  else if bad then (s, outErr stFAULTED)
  else match newHome s key with
    | none => (s, outErr stDENIED)
    | some home =>
      match insertPlace s key with
      | none => (insertFail key false s, outErr stNOBUF)
      | some h =>
        let r := specApply 0x1F b (newRec s key home 0 0 0)
        let (r, s) := mirrorNew r s
        (flowEvent 2 sl h r (recWritten key (placeRec h r) s), outOk h)

/-- A command that addresses the record of the key in its payload. -/
def recordOp (code : Nat) (n : Nat) (used : List (Nat × Nat)) (arg : State → CmdPkt → Nat)
    (body : CmdPkt → State → State × CmdOut) : Op :=
  { code := code, rings := [0, 1], dir := .toDev n n, used := used, isRead := false, isMulti := false, inert := false,
    arg := arg, tenant := keyTenantOk, claims := keyClaims, touch := keyTouch,
    body := fun p _ s => let r := body p s; (r.1, .done r.2) }

def opFlowInsert : Op := recordOp 0x0400 128 [] (fun _ p => argIf (specOk (payBytes p))) insertBody

def deleteBody (p : CmdPkt) (s : State) : State × CmdOut :=
  let key := payKey p
  if lockedFor s key then (s, outErr stBUSY)
  else
    let (bad, s) := seekKey key s
    match findRec s key with
    | none => (s, outErr (if bad then stFAULTED else stNOTFOUND))
    | some (h, r) =>
      if rget rSTATE r = 2 then (s, outErr stBUSY)
      else if recStandby s r then (s, outErr stDENIED)
      else if !tombRoom s (hSlice s h) then (s, outErr stBUSY)
      else (recWritten key (fun s => unitRewritten h r (makeTomb h 4 s)) s, outOk h)

def opFlowDelete : Op := recordOp 0x0401 40 [] okArg deleteBody

def modifyArg (_ : State) (p : CmdPkt) : Nat :=
  let m := par p 16 2
  let b := payBytes p
  let long := keyLong (payKey p)
  argIf (bitsOf m 6 9 == 0 && specReserved b && (!m.testBit 0 || actionOk (leAt b 44 4))
    && (!m.testBit 1 || rewriteOk long (sliceB b 48 24)) && (!m.testBit 2 || decide (leAt b 41 1 ≤ 15))
    && (!m.testBit 3 || decide (leAt b 72 4 < 2 ^ 18)))

def modifyBody (p : CmdPkt) (s : State) : State × CmdOut :=
  let key := payKey p
  let m := par p 16 2
  if lockedFor s key then (s, outErr stBUSY)
  else
    let (bad, s) := seekKey key s
    match findRec s key with
    | none => (s, outErr (if bad then stFAULTED else stNOTFOUND))
    | some (h, r) =>
      if rget rSTATE r = 2 then (s, outErr stBUSY)
      else if recStandby s r then (s, outErr stDENIED)
      else if m.testBit 15 && rget rGEN r ≠ par p 18 2 then (s, outErr stNOTFOUND)
      else
        let n := genBump (specApply m (payBytes p) r)
        let s := recWritten key (fun s => unitRewritten h n (rewriteRec h n s)) s
        let s := if m % 32 = 0 then s else mirrorChange n s
        (s, outOk (rget rGEN n))

def opFlowModify : Op := recordOp 0x0403 128 [(16, 4)] modifyArg modifyBody

/-! ### FLOW_READ (R190) -/

/-- The bytes of a slot that ring 1 may not see read zero (R188). -/
def hideSlot (s : State) (p : CmdPkt) (h : Nat) (b : Bytes) : Bytes :=
  match recAt s h with
  | none => b
  | some r => if mayTenant s p (rget rTENANT r) then b else zerosB b.length

def cacheByte (s : State) (h : Nat) : Byte :=
  match cachedAt s h with
  | none => 0
  | some c => if c.dirty then 2 else 1

def bucketEntry (s : State) (p : CmdPkt) (b : Nat) : Bytes :=
  let v := bucketView s b
  let long := match recAt s (mkHandle b 0) with
    | some r => recLong r
    | none => false
  let body := if long then hideSlot s p (mkHandle b 0) v
    else hideSlot s p (mkHandle b 0) (v.take 64) ++ hideSlot s p (mkHandle b 1) (v.drop 64)
  body ++ [byteN (b2n (chartOf s b)), cacheByte s (mkHandle b 0), cacheByte s (mkHandle b (if long then 0 else 1)), 0]
    ++ leBytes 2 ((lockHolder s b).getD 0xFFFF) ++ zerosB 10

/-- A stash entry: its record, padded, and status bytes for a place that is neither cached nor locked. -/
def stashEntry (s : State) (p : CmdPkt) (sl e : Nat) : Bytes :=
  let h := stashHandle sl e
  let body := match recAt s h with
    | some r => hideSlot s p h (padTo 128 r)
    | none => zerosB 128
  body ++ [0, 0, 0, 0] ++ leBytes 2 0xFFFF ++ zerosB 10

def flowReadArg (s : State) (p : CmdPkt) : Nat :=
  let b := par p 16 4
  let n := par p 20 2
  let st := par p 22 1
  argIf (decide (1 ≤ n) && decide (n ≤ 64) && decide (n * 144 ≤ p.paramLen.toNat)
    && (if st = 0 then decide (b + n ≤ 4 * sliceN s) else st == 1 && n == 8))

def opFlowRead : Op := readOp 0x0402 [0, 1, 2, 3] 144 [(16, 7)] flowReadArg anyTenant (fun p s =>
  let n := par p 20 2
  let es := (List.range n).map (fun i =>
    if par p 22 1 = 1 then stashEntry s p (par p 16 4 % 4) i else bucketEntry s p (par p 16 4 + i))
  (s, outData n es.flatten))

/-! ### FLOW_PURGE_TENANT (R191) -/

/-- Buckets that a step visits for the first time: 256 of each slice. -/
def purgeBuckets (s : State) (pos : Nat) : List Nat :=
  ((List.range 4).map (fun sl => (List.range 256).map (fun i => sl * sliceN s + pos + i))).flatten

/-- Delete a tenant's live records in a list; answers how many, and whether one was left because the tombstone list was full or its
chosen bucket is locked. -/
def purgeRecs (t : Nat) : List (Nat × Bytes) → Nat × Bool × State → Nat × Bool × State
  | [], x => x
  | (h, r) :: rest, (n, full, s) =>
    if rget rTENANT r ≠ t || !recLive r || recStandby s r then purgeRecs t rest (n, full, s)
    else if !tombRoom s (hSlice s h) || isLocked s (chosenBucket s (recKey r)) then purgeRecs t rest (n, true, s)
    else purgeRecs t rest (n + 1, full, makeTomb h 4 s)

/-- Visit a bucket, with the times that it has been visited again: one that is locked is visited again at the next step, up to 16 times. -/
def purgeVisit (t : Nat) (x : Nat × Nat) (a : Nat × List Nat × Bool × State) : Nat × List Nat × Bool × State :=
  let (n, again, left, s) := a
  let (b, tries) := x
  let retry := fun (n : Nat) (s : State) =>
    if 16 ≤ tries then (n, again, true, s) else (n, again ++ [b, tries + 1], left, s)
  if isLocked s b then retry n s
  else
    let (fails, s) := sliceRead b s
    let (n, full, t') := purgeRecs t ((bucketRecs s b).filter (usable s fails)) (n, false, s)
    let s := sliceWritten (bucketSlice s b) false b (fun _ => t') s
    if full then retry n s else (n, again, left, s)

def pairsOf : List Nat → List (Nat × Nat)
  | a :: b :: rest => (a, b) :: pairsOf rest
  | _ => []

/-- One step of FLOW_PURGE_TENANT. `aux` holds whether records have been left, then the buckets to visit again. -/
def purgeUnit (m : Multi) (s : State) : State × MStep :=
  let t := par m.p 16 4
  let left := m.aux.head? == some 1
  let again := pairsOf (m.aux.drop 1)
  let fresh := if m.pos < sliceN s then (purgeBuckets s m.pos).map (fun b => (b, 0)) else []
  let (n0, full, s) := if m.pos = 0 then
      [0, 1, 2, 3].foldl (fun x sl => purgeRecs t (stashRecs x.2.2 sl) x) (0, false, s)
    else (0, false, s)
  let (n, again, left, s) := (again ++ fresh).foldl (fun a x => purgeVisit t x a) (n0, [], left || full, s)
  let m := { m with units := m.units + n, pos := m.pos + 256, aux := b2n left :: again, lastFix := s.clock.fix }
  if sliceN s ≤ m.pos && again.isEmpty then
    (s, .fin { status := if left then stPARTIAL else stOK, winRank := 0, result := m.units, data := [] })
  else (s, .more m)

def opFlowPurgeTenant : Op :=
  multiOp 0x0404 [0, 1] .none [(16, 4)] 524288 (fun _ p => argIf (decide (par p 16 4 < 2 ^ 24)))
    (fun s p => mayTenant s p (par p 16 4)) (fun s _ => (purgeBuckets s 0).map recObj)
    (fun _ p => [([0, grp 4 3, grp 1 (par p 16 4)], false)]) (fun _ _ => 0) purgeUnit

/-! ### Reads (R189, R192) -/

def sliceStats (s : State) (sl : Nat) : Bytes :=
  let k := sliceOf s sl
  (k.cnt.map (fun c => leBytes 8 c.toNat)).flatten ++ leBytes 8 (sliceRecords s sl) ++ leBytes 8 k.tombs.length
    ++ leBytes 8 (stashRecs s sl).length

def opFlowStatsRead : Op := readOp 0x0405 [0, 2, 3] 512 [] okArg anyTenant (fun _ s =>
  (s, outData 512 (((List.range 4).map (sliceStats s)).flatten)))

def opFlowEventRead : Op := readOp 0x0406 [0, 2, 3] 80 [(16, 1), (18, 2)]
  (fun s p => if !(decide (par p 16 1 < 4) && decide (1 ≤ par p 18 2) && decide (par p 18 2 ≤ 256)
      && decide (par p 18 2 * 80 ≤ p.paramLen.toNat)) then stBADARG
    else if s.flow.eventAge.isSome then stBUSY else 0) anyTenant
  (fun p s =>
    if s.flow.eventAge.isSome then (s, outErr stBUSY) else
    let sl := par p 16 1
    let es := (sliceOf s sl).events.take (par p 18 2)
    let s := { s with flow.eventAge := some 0 }
    let s := if authOf s p.src = 2 then s
      else modSlice sl (fun k => { k with events := k.events.drop es.length }) s
    (s, outData es.length es.flatten))

/-- Log: DEDUCED, log entry 40. -/
def opFlowFind : Op :=
  { code := 0x0407, rings := [0, 1, 2, 3], dir := .toDev 40 40, used := [], isRead := true, isMulti := false,
    inert := false, arg := okArg, tenant := keyTenantOk, claims := noClaims, touch := noTouch
    body := fun p _ s =>
      let key := payKey p
      if lockedFor s key then (s, .done (outErr stBUSY))
      else
        let (bad, s) := seekKey key s
        match findRec s key with
        | some (h, _) => (s, .done (outOk h))
        | none => (s, .done (outErr (if bad then stFAULTED else stNOTFOUND))) }

end Sys2Proof.Machine
end

