-- ==== Sys2Proof/Machine/Lodestar.lean ====
section
/-! DEFINITION. Lodestar (chapter 16): the fault log, safe states, tenant drains, and its commands. -/

namespace Sys2Proof.Machine

open Sys2Proof

/-! ### Kinds (Tables 16.5 and 16.6) -/

/-- By source, from kind 0x01: the class, plus 4 where MODE 1 of FAULT_INJECT is accepted (R395). -/
def kindTable : List (List Nat) :=
  [ [], [3, 3], [7, 5], [7, 5, 5, 1, 2], [7, 6], [5, 2, 7, 5, 6, 3], [7, 5], [7, 6, 6, 6, 2, 2, 3, 7], [7, 6, 2, 2],
    [7, 6, 5, 5, 5, 2, 2], [7, 5, 6, 6, 7], [2, 2, 2, 7, 6, 3], [7, 6, 2, 2, 0, 3, 6], [7, 6], [3, 3, 3, 3, 3],
    [7, 6, 3, 2, 2], [3, 2, 2, 3, 2, 2, 3, 6], [3, 3, 2, 6], [4, 0, 2, 2], [2, 3, 0], [2, 3, 2],
    [1, 5, 5, 1, 1, 7, 5, 0], [7, 6, 3] ]

/-- The code of a kind, if it is defined. -/
def kindCode (src kind : Nat) : Option Nat := if kind = 0 then none else (kindTable.getD src [])[kind - 1]?

def kindClass (src kind : Nat) : Option Nat := (kindCode src kind).map (fun c => c % 4)

/-! ### The log (R379 to R381) -/

def sameKind (a b : FaultMsg) : Bool := a.source == b.source && a.kind == b.kind

/-- A later message of a source and kind in one Fix increments COALESCED of the first (R380). -/
def coalesce (m : FaultMsg) (f : FixNo) (rs : List LogRec) : List LogRec :=
  rs.map (fun r => if sameKind r.msg m && r.fix == f && r.coalesced < 511 then { r with coalesced := r.coalesced + 1 } else r)

def addRecord (r : LogRec) (s : State) : State :=
  if 4096 ≤ s.lod.ring.length then { s with lod.lost := s.lod.lost + 1 }
  else { s with lod.ring := s.lod.ring ++ [r], lod.tailCount := s.lod.tailCount + 1 }

/-- The newest entry of the Logbook's ring of 1,024 comes first. -/
def bookRecord (r : LogRec) (s : State) : State := { s with lod.book := (r :: s.lod.book).take 1024 }

/-- The message begins a Class 0 or Class 1 state: none lasts and no reaction for it waits. -/
def beginsState (m : FaultMsg) (s : State) : Bool :=
  let waits := s.ctl.queue.any (fun i => match i.body with
    | .reaction x => x.source == m.source && x.cls == m.cls
    | _ => false)
  if m.cls.val = 0 then !s.lod.grave
  else m.cls.val == 1 && !stateOn (srcState s m.source.toNat 1) && !waits

/-- Record a message in order of arrival. -/
def recordMsg (m : FaultMsg) (s : State) : State :=
  let key := (m.source.toNat, m.kind.toNat)
  let f := s.clock.fix
  if s.lod.inFix.contains key then { s with lod.ring := coalesce m f s.lod.ring, lod.book := coalesce m f s.lod.book }
  else
    let r : LogRec := { msg := m, fix := f, coalesced := 0, seq := s.lod.nextSeq }
    let b := beginsState m s
    let s := addRecord r { s with lod.inFix := key :: s.lod.inFix, lod.nextSeq := s.lod.nextSeq + 1 }
    if b then bookRecord r s else s

/-! ### Scope (Table 16.8) -/

/-- Tenants with a table entry in ascending order. -/
def isoTenants (s : State) : List Nat :=
  sortBy id (dedupN ((s.ctl.cfg.filter (fun e => objSub e.1 == 14 && (objFld e.1 == 0x100 || objFld e.1 == 0x101) && e.2 != 0)).map
    (fun e => objIdx e.1)))

/-- The tenant of a table entry: entries in ascending order of tenant. -/
def isoEntryTenant (s : State) (e : Nat) : Option Nat := (isoTenants s)[e]?

def endpointsOf (s : State) (t : Nat) : List Nat :=
  (s.ctl.cfg.filter (fun e => objSub e.1 == 12 && objFld e.1 == 2 && e.2.toNat == t)).map (fun e => objIdx e.1)

/-- The ports that a Class 1 message places in the safe state. -/
def scopePorts (s : State) (m : FaultMsg) : List Nat :=
  let a := m.addr.toNat
  let src := m.source.toNat
  let kind := m.kind.toNat
  if src = 0x15 then
    (if 1 ≤ kind ∧ kind ≤ 4 then [a % 128]
     else if kind = 5 then (List.range 8).map (fun i => 8 * (a % 16) + i)
     else [])
  else if src = 9 ∧ kind = 3 then (queuePort s (bitsOf a 19 17)).toList
  else if src = 9 ∧ kind = 4 then (queuePort s (a % 2 ^ 17)).toList
  else []

/-- The endpoints that a Class 1 message freezes. -/
def scopeEndpoints (s : State) (m : FaultMsg) : List Nat :=
  let src := m.source.toNat
  let kind := m.kind.toNat
  if src = 0x15 ∧ kind = 7 then
    (match isoEntryTenant s (m.addr.toNat % 65536) with
     | some t => endpointsOf s t
     | none => [])
  else if src = 0x15 ∧ (kind = 1 ∨ kind = 3 ∨ kind = 4) then m.endpoints
  else []

/-! ### States (R383 to R391) -/

def modSrc (src cls : Nat) (f : SrcState → SrcState) (s : State) : State :=
  { s with lod.states := kset srcStateReset s.lod.states (src * 4 + cls) (f (srcState s src cls)) }

def flushPorts (ps : List Nat) (s : State) : State :=
  ps.foldl (fun s p => if isPort s p then flushStart p s else s) s

/-- GRAVE (R387): a hardware path places every port in the safe state, freezes every endpoint and asserts both pins.
During start-up the device halts (R419). (Log: DEDUCED, log entry 58.) -/
def setGrave (s : State) : State :=
  if s.lod.grave then s
  else
    let s := { s with lod.grave := true }
    let s := if s.boot.sysRst && decide (s.boot.stage < 7) then
        { s with boot.stage := 8, boot.reason := 0x10, boot.pushHalt := false }
      else s
    meterFreeze (frozenNow s) true (flushPorts (List.range 128) s)

/-- A message arrives: it is recorded, and its reaction waits for the next sample (R379, R383, R384, R387). (Log: DEDUCED, log entry 58.) -/
def arrive (m : FaultMsg) (s : State) : State :=
  let s := recordMsg m s
  if m.cls.val = 0 then setGrave s
  else if m.cls.val = 3 then s
  else
    { s with ctl.queue := s.ctl.queue ++ [{ rank := 0, sub := m.source.toNat, due := s.clock.fix + 1, body := .reaction m }] }

def faultIrq (s : State) : State := sendMsix (BitVec.ofNat 6 (fv s 14 4 0 0 6)) s

/-- The state's quiet period runs from the Fix stamp of the message (R388, R389). -/
def renew (cls : Nat) (stamp : FixNo) (s : State) (k : SrcState) : SrcState :=
  if k.st = .held then k
  else { k with st := .active, quietEnd := stamp + BitVec.ofNat 22 (fv s 14 2 cls 0 24) }

/-- The reaction to a Class 1 message at its boundary (R386). -/
def react1 (m : FaultMsg) (stamp : FixNo) (s : State) : State :=
  let ps := dedupN (m.ports ++ scopePorts s m)
  let es := dedupN (scopeEndpoints s m)
  let s := modSrc m.source.toNat 1 (fun k => { renew 1 stamp s k with
    ports := dedupN (k.ports ++ ps), endpoints := dedupN (k.endpoints ++ es) }) s
  meterFreeze (frozenNow s) false (flushPorts ps s)

/-- The reaction to a Class 2 message at its boundary (R385); `unitReset` resets the unit of Table 16.5. With mask 0 the message is
only logged. -/
def react2 (unitReset : FaultMsg → State → State) (m : FaultMsg) (stamp : FixNo) (s : State) : State :=
  let src := m.source.toNat
  if (srcState s src 2).st = .held then s
  else if fv s 14 1 src 0 5 = 0 then s
  else
    let mask := fv s 14 1 src 0 5
    let s := modSrc src 2 (renew 2 stamp s) s
    let s := if mask.testBit 0 then faultIrq s else s
    let s := if mask.testBit 1 then { s with lod.bnIrqs := s.lod.bnIrqs + 1 } else s
    let s := if mask.testBit 2 then unitReset m s else s
    let s := if mask.testBit 3 then
        { s with ctl.queue := s.ctl.queue ++ [{ rank := 1, sub := 0, due := s.clock.fix + 1, body := .order (.chip 3 src) }] }
      else s
    if mask.testBit 4 && !s.lod.errHolders.contains src then { s with lod.errHolders := src :: s.lod.errHolders } else s

def react (unitReset : FaultMsg → State → State) (m : FaultMsg) (stamp : FixNo) (s : State) : State :=
  if m.cls.val = 1 then react1 m stamp s else if m.cls.val = 2 then react2 unitReset m stamp s else s

/-- Extended TAI seconds, as the recovery history keeps them. -/
def taiSec (s : State) : Nat := taiNs s / 1000000000

/-- Recoveries of the last hour. -/
def hourCount (s : State) (k : SrcState) : Nat := (k.history.filter (fun t => decide (taiSec s < t + 3600))).length

/-- The state ends: its recovery is counted and enters the history (R389, R390). -/
def endState (src cls : Nat) (s : State) : State :=
  let now := taiSec s
  let s := modSrc src cls (fun k => { k with
    st := .none, quietEnd := 0, ports := [], endpoints := [],
    recoveries := BitVec.ofNat 32 (min 0xFFFFFFFF (k.recoveries.toNat + 1))
    history := (now :: k.history).take 31 }) s
  if cls = 2 then { s with lod.errHolders := s.lod.errHolders.filter (fun x => x != src) } else s

/-- The end of a quiet period (R389): an ACTIVE state ends, or becomes HELD when RECOV_LIMIT recoveries lie in the last hour. (Log: UNVERIFIED, log entry 72.) -/
def quietEnd (src : Fin 23) (cls : Fin 4) (s : State) : State :=
  let k := srcState s src.val cls.val
  if k.st ≠ .active ∨ 2 ^ 21 ≤ fixSub (fixN s) k.quietEnd.toNat then s
  else if fv s 14 3 src.val 0 5 ≤ hourCount s k then
    faultIrq (modSrc src.val cls.val (fun k => { k with st := .held }) s)
  else endState src.val cls.val s

/-! ### Self-tests (R378, R387) -/

/-- The reaction path has failed its self-test: Lodestar records its own message, and the GRAVE latch is set (R387). The numbers of
the tests are open: the number is a free value. (Log: DESIGN CHOICE, log entry 92.) -/
def reactionFailed (s : State) : State :=
  arrive { source := 0x15, kind := 8, cls := 0, addr := BitVec.ofNat 40 ((openDraw 30 s).toNat % 16), ports := [], endpoints := [],
           injected := false } (advanceDraws 1 s)

/-- Every fourth boundary: each group's checker halves, and the reaction path. The checkers of a switch-core quarter that is off
are not tested (R399). -/
def selfTests (bad : List (Fin 32)) (reactionOk : Bool) (s : State) : State :=
  if fixN s % 4 ≠ 0 then s
  else
    let s := (bad.filter (fun b => domainOn s (44 + b.val / 8))).foldl
      (fun s b => raiseFault fkCHECKER_SELFTEST (b.val / 2 + b.val % 2 * 16) s) s
    if reactionOk then s else reactionFailed s

/-! ### Tenant drains (R375 to R377) -/

def modDrain (t : Nat) (f : Drain → Drain) (s : State) : State :=
  let d := f (kget drainReset s.lod.drains t)
  { s with lod.drains := if d.mask = 0 then kdel s.lod.drains t else kput s.lod.drains t d }

/-- A commit changes a mask: the cleared bits begin to drain at its boundary. -/
def applyIsoObj (o : Obj) (old new : Nat) (s : State) : State :=
  if objSub o = 14 ∧ (objFld o = 0x100 ∨ objFld o = 0x101) then
    let gone := (BitVec.ofNat 128 old) &&& ~~~(BitVec.ofNat 128 new)
    let gone := if objFld o = 0x101 then gone <<< 64 else gone
    if gone = 0 then s
    else
      let f := s.clock.fix
      modDrain (objIdx o) (fun d => { mask := d.mask ||| gone, fix := f }) s
  else s

/-- A copy admitted before boundary c. -/
def admittedBefore (c : FixNo) (x : Copy) : Bool :=
  let d := ns32 (c.toNat * 1024) x.admitted.toNat
  decide (1 ≤ d) && decide (d ≤ 2 ^ 31)

/-- A port leaves DRAIN_MASK at the first boundary at which none of its queues holds a copy admitted before c. -/
def drainLeave (s : State) : State :=
  s.lod.drains.foldl (fun s e =>
    let holds := fun p => (portQueues s p).any (fun q => (queueOf s q).copies.any (admittedBefore e.2.fix))
    let keep := (List.range 128).foldl (fun (a : BitVec 128) p =>
      if e.2.mask.getLsbD p && holds p then a ||| (1 <<< p) else a) 0
    modDrain e.1 (fun d => { d with mask := keep }) s) s

/-- TENANT_DRAIN_END: 1,048,576 boundaries after c the drain ends; copies of the tenant still queued are discarded at the
heads of their queues. -/
def doTenantDrainEnd (tenant : BitVec 24) (s : State) : State :=
  let t := tenant.toNat
  match kfind s.lod.drains t with
  | none => s
  | some d =>
    if fixSub (fixN s) d.fix.toNat < 1048576 then s
    else
      let hit := fun (q : Nat) (c : Copy) =>
        (match queuePort s q with
         | some p => d.mask.getLsbD p
         | none => false) && admittedBefore d.fix c
          && (match pktOf s c.pkt with
              | some k => pget k bTENANT == t
              | none => false)
      let qs := s.sw.queues.map (fun (e : Nat × QueueState) => (e.1, { e.2 with
        copies := e.2.copies.map (fun c => if hit e.1 c then { c with expired := true } else c) }))
      qs.foldl (fun s e => purgeHead e.1 e.2.copies.length s) { s with sw.queues := qs, lod.drains := kdel s.lod.drains t }

/-! ### Commands (R391, R393 to R395) -/

def msgWord (m : FaultMsg) : Nat :=
  m.addr.toNat + m.cls.val * 2 ^ 44 + m.kind.toNat * 2 ^ 48 + m.source.toNat * 2 ^ 56

/-- A record of 16 bytes (Table 16.4). -/
def recBytes (r : LogRec) : Bytes :=
  leBytes 8 (msgWord r.msg) ++ leBytes 4 (r.fix.toNat + r.coalesced * 2 ^ 22 + b2n r.msg.injected * 2 ^ 31)
    ++ leBytes 4 r.seq.toNat

/-- Records leave the on-die ring at its head. -/
def dropRecords (n : Nat) (s : State) : State :=
  { s with lod.ring := s.lod.ring.drop n, lod.headCount := s.lod.headCount + BitVec.ofNat 13 n }

def opFaultLogRead : Op := readOp 0x0C00 [0, 2, 3] 16 [(16, 3)]
  (fun _ p => argIf (decide (1 ≤ par p 16 2) && decide (par p 16 2 ≤ 4096) && decide (par p 18 1 ≤ 1)
    && decide (par p 16 2 * 16 ≤ p.paramLen.toNat))) anyTenant (fun p s =>
    let rs := (if par p 18 1 = 1 then s.lod.book else s.lod.ring).take (par p 16 2)
    let t := if par p 18 1 = 0 && authOf s p.src != 2 then dropRecords rs.length s else s
    (t, outData rs.length ((rs.map recBytes).flatten)))

def stateObj (src cls : Nat) : Obj := oid 14 0x200 (src * 4 + cls)

/-- FAULT_RELEASE (R391). -/
def opFaultRelease : Op :=
  actOp 0x0C01 [0] .none [(16, 2)]
    (fun _ p => if !(decide (1 ≤ par p 16 1) && decide (par p 16 1 ≤ 0x16)) then stBADARG
      else if par p 17 1 = 0 then stDENIED else argIf (decide (par p 17 1 ≤ 2)))
    (fun _ p => [stateObj (par p 16 1) (par p 17 1)]) (fun p s =>
      let src := par p 16 1
      let cls := par p 17 1
      if !stateOn (srcState s src cls) then (s, outErr stNOTFOUND)
      else
        let s := modSrc src cls (fun k => { k with history := [] }) (endState src cls s)
        (s, outOk (srcState s src cls).recoveries.toNat))

def stByte (k : SrcState) : Nat :=
  match k.st with
  | .none => 0
  | .active => 1
  | .held => 2

def srcEntry (s : State) (src : Nat) : Bytes :=
  let a := srcState s src 1
  let b := srcState s src 2
  [byteN src, byteN (stByte a), byteN (stByte b), 0] ++ leBytes 4 a.quietEnd.toNat ++ leBytes 4 b.quietEnd.toNat
    ++ [byteN (hourCount s a), byteN (hourCount s b), 0, 0] ++ leBytes 4 a.recoveries.toNat ++ leBytes 4 b.recoveries.toNat

/-- Log: DEDUCED, log entry 58. -/
def opFaultStatusRead : Op := readOp 0x0C02 [0, 2, 3] 584 [] okArg anyTenant (fun _ s =>
  (s, outData 584 ([byteN (b2n s.lod.grave), byteN (b2n s.lod.factory), byteN (b2n (pinsNow s).1 + 2 * b2n (pinsNow s).2)]
    ++ zerosB 5 ++ leBytes 8 s.lod.lost.toNat ++ leBytes 16 (ports128 (portSafe s))
    ++ ((List.range 23).map (srcEntry s)).flatten)))

/-- FAULT_INJECT_UNLOCK (R394). -/
def opFaultInjectUnlock : Op :=
  { code := 0x0C03, rings := [0, 3], dir := .byMode, used := [(16, 1)], isRead := false, isMulti := false, inert := false,
    arg := fun s _ => if s.lod.ftest then 0 else stDENIED, tenant := anyTenant, claims := noClaims, touch := noTouch,
    body := fun p _ s =>
      if par p 16 1 = 0 then
        let n : BitVec 128 := Config.random (s.draws + 2) ++ Config.random (s.draws + 3)
        ({ advanceDraws 2 s with lod.nonce := some n }, .done { outOk 0 with data := beBytes 16 n.toNat })
      else match s.lod.nonce with
        | none => (s, .done (outErr stAUTH))
        | some n =>
          let s := { s with lod.nonce := none }
          if Config.ed448Verify Config.factoryKey (ctxFT ++ uniqueIdB) (beBytes 16 n.toNat) (payBytes p) then
            ({ s with lod.factory := true, lod.factoryEntries := s.lod.factoryEntries + 1 }, .done (outOk 0))
          else (s, .done (outErr stAUTH)) }

/-- Log: DESIGN CHOICE, log entry 57. -/
def injectMsg (p : CmdPkt) (cls : Nat) : FaultMsg :=
  { source := byteN (par p 16 1), kind := byteN (par p 17 1), cls := Fin.ofNat 4 cls, addr := BitVec.ofNat 40 (par p 24 5),
    ports := [], endpoints := [], injected := true }

/-- The SEQ of the record that a message of this Fix has. -/
def recordSeq (s : State) (m : FaultMsg) : Nat :=
  match s.lod.ring.find? (fun r => sameKind r.msg m && r.fix == s.clock.fix) with
  | some r => r.seq.toNat
  | none => (s.lod.nextSeq - 1).toNat

/-- FAULT_INJECT (R395). -/
def opFaultInject : Op :=
  actOp 0x0C04 [0, 3] .none [(16, 3), (24, 5), (32, 8)]
    (fun s p => if !s.lod.ftest || !s.lod.factory then stDENIED
      else match kindCode (par p 16 1) (par p 17 1) with
        | none => stBADARG
        | some c => argIf (par p 18 1 == 0 || (par p 18 1 == 1 && decide (4 ≤ c)))) noClaims (fun p s =>
      match kindClass (par p 16 1) (par p 17 1) with
      | none => (s, outErr stBADARG)
      | some cls =>
        if par p 18 1 = 0 then
          let s := arrive (injectMsg p cls) s
          (s, outOk (recordSeq s (injectMsg p cls)))
        else
          let d : Damage := { source := byteN (par p 16 1), kind := byteN (par p 17 1), addr := BitVec.ofNat 40 (par p 24 5),
                              flip := BitVec.ofNat 64 (par p 32 8) }
          ({ s with lod.damage := s.lod.damage ++ [d] }, outOk 0))

def opIsoTenantRead : Op := readOp 0x0C05 [0, 2, 3] 48 [(16, 4)] (fun _ p => argIf (decide (par p 16 4 < 2 ^ 24))) anyTenant
  (fun p s =>
    let t := par p 16 4
    let lo := objVal s (oid 14 0x100 t)
    let hi := objVal s (oid 14 0x101 t)
    let d := kget drainReset s.lod.drains t
    (s, outData (b2n (lo != 0 || hi != 0)) (leBytes 8 lo ++ leBytes 8 hi ++ leBytes 16 d.mask.toNat
      ++ leBytes 4 d.fix.toNat ++ zerosB 12)))

/-- R392. -/
def lodCfgOk (s : State) : Bool := decide ((isoTenants s).length ≤ 65536)

end Sys2Proof.Machine
end

