-- ==== Sys2Proof/Machine/SkipOps.lean ====
section
/-! DEFINITION. Memory operations of the Skippers (Table 8.3) and the execution of microwords (chapter 9). -/

namespace Sys2Proof.Machine

open Sys2Proof

/-! ### Tags -/

def tagOf (e : Engine) (t : Nat) : Tag := e.tags.getD t tagReset
def modTag (id t : Nat) (f : Tag → Tag) (s : State) : State := modEng id (fun e => { e with tags := modAt e.tags t f }) s

/-- A tag may be used: no operation is in flight, and the routine has seen its MEM_DONE bit (R201). -/
def tagFree (e : Engine) (t : Nat) : Bool :=
  let k := tagOf e t
  k.op.isNone && (!k.done || k.seen)

/-- A parked engine wakes to its WAIT (R212). -/
def wake (id : Nat) (s : State) : State :=
  modEng id (fun e => if e.st = .parked then { e with st := .waiting, cycles := e.cycles + 2 } else e) s

/-- An operation completes (R201): MEM_DONE, MEM_STATUS and MEM_RESULT of its tag; a parked engine that waits for the tag
wakes. -/
def finishTag (id t status result : Nat) (s : State) : State :=
  let s := modTag id t (fun _ => { op := none, done := true, seen := false, status := status, result := result }) s
  if (engOf s id).waitMask.testBit t then wake id s else s

def setOp (id t : Nat) (o : MemOp) (s : State) : State := modTag id t (fun k => { k with op := some o, done := false }) s

/-- The controller's estimate for a request of an engine (R212, R327). -/
def skHint (id region addr len : Nat) (kind : HbmKind) (s : State) : Nat :=
  hintWord (4 + id / 16) { id := BitVec.ofNat 12 id, kind := kind, region := Fin.ofNat 5 region, offset := addr, len := len,
                           data := [] } s % 4096

/-- An operation as it is issued. -/
def newOp (s : State) (id code : Nat) : MemOp :=
  let e := engOf s id
  { code := code, order := e.nextOrder, cycles := e.cycles, hint := none, wait := false, locks := [], lines := [],
    reads := [], data := [], out := [], before := e.held, took := [], status := 0, result := 0 }

/-- Issue: the counting event, the issue order, and the operations after which RESTART is illegal (R233). -/
def noteIssue (id code : Nat) (s : State) : State :=
  let e := engOf s id
  let s := modEng id (fun e => { e with
    nextOrder := e.nextOrder + 1
    issued := e.issued || [1, 2, 3, 5, 7, 8, 10].contains code }) s
  perfEvent 0x0403 5 id e.routine (min 15 code) 1 s

/-- An access of the local store lies within its 1,024 bytes (R230). -/
def lsIn (a n : Nat) : Bool := decide (a + n ≤ 1024)

/-- A damaged byte of the local store that an access touches (R225). -/
def lsDamaged (s : State) (id a n : Nat) : Option Nat :=
  ((List.range n).map (fun i => id + (a + i) * 2 ^ 9)).find? (fun x => (damageAt s 0x07 3 x).isSome)

/-- An operation that reads n bytes of the local store at a: outside it the engine is lost with SK_ILLEGAL, over a damaged byte with
SK_LS_ECC_UNCORR (R225, R230). (Log: DEDUCED, log entry 42.) -/
def withLs (id a n : Nat) (s : State) (f : Bytes → State → State) : State :=
  if !lsIn a n then skIllegal id s
  else match lsDamaged s id a n with
    | some x => loseEngine id (.quiet 7) (raiseInjected (0x07, 3, 2) x [] [] s)
    | none => f (lsRead (engOf s id) a n) s

def linesOf (region a n : Nat) : List (Nat × Nat) := (List.range ((n + 63) / 64)).map (fun i => (region, a / 64 + i))

/-! ### Reads (R201) -/

/-- A damaged line of the write buffer that lies over a read (R225). -/
def wbufDamaged (s : State) (id region a n : Nat) : Option Nat :=
  let ws := (engOf s id).wbuf
  (List.range ws.length).find? (fun i =>
    let w := ws.getD i { region := 0, addr := 0, mask := 0, bytes := [], cover := 0 }
    w.region == region && decide (a ≤ w.addr) && decide (w.addr < a + n) && (damageAt s 0x07 4 (id + i * 2 ^ 9)).isSome)

/-- What one read brings: the memory bytes with the engine's buffered bytes over them, and whether they are FAULTED: HBM cannot correct
them, or REC_CRC does not hold for a unit that is not cached (R164, R201). -/
def readBytes (id : Nat) (r : Nat × Nat × Nat × Nat) (s : State) : Bool × Bytes × State :=
  let (region, a, n, _) := r
  let (bad, s) := (List.range (n / 64)).foldl (fun (x : Bool × State) i =>
    let (b, s) := hbmCheck (placeOf s region (a + 64 * i)) x.2
    (x.1 || b, s)) (false, s)
  let b := a / 128
  let (fails, s) := if region = 0 && !bad then readChecked b s else ([], s)
  let long := match recAt s (mkHandle b 0) with
    | some r => recLong r
    | none => false
  let crc := fails.any (fun u => (cachedAt s (mkHandle b u)).isNone && !(u == 1 && long && (cachedAt s (mkHandle b 0)).isSome))
  (bad || crc, overlay (engOf s id).wbuf region a (if region = 0 then bucketView s b else hbmRead s region a n), s)

def readAll (id : Nat) : List (Nat × Nat × Nat × Nat) → State → Bool × List (Nat × Bytes) × State
  | [], s => (false, [], s)
  | r :: rs, s =>
    let (bad, d, s) := readBytes id r s
    let (bad', ds, s) := readAll id rs s
    (bad || bad', (r.2.2.2, d) :: ds, s)

/-- The reads of an operation go to the arbiters; the data is as memory and write buffer stand at the issue. (Log: DEDUCED, log entry
42.) -/
def startReads (id t : Nat) (o : MemOp) (s : State) : State :=
  match o.reads.findSome? (fun r => wbufDamaged s id r.1 r.2.1 r.2.2.1) with
  | some i => loseEngine id (.quiet 7) (raiseInjected (0x07, 4, 2) (id + i * 2 ^ 9) [] [] s)
  | none =>
    let h := o.reads.foldl (fun h r => min h (skHint id r.1 r.2.1 r.2.2.1 .read s)) 4095
    let reqs := o.reads.map (fun r => plainReq id .read r.1 r.2.1 r.2.2.1)
    let (bad, data, s) := readAll id o.reads s
    setOp id t { o with wait := false, locks := [], reads := [], hint := some h, data := data, out := reqs,
                        status := if bad then stFAULTED else o.status }
      (reqs.foldl (fun s q => hbmPresent (4 + id / 16) q s) s)

/-! ### Locks (R182, R204, R205) -/

def tableBuckets (s : State) : Nat := 4 * sliceN s

/-- The locks still to be taken, one after another; with the last grant the reads are issued. -/
def lockSteps (id t : Nat) : List (Nat × Bool × Nat) → MemOp → State → State
  | [], o, s => if o.reads.isEmpty then finishTag id t stOK 0 s else startReads id t o s
  | (b, rd, a) :: rest, o, s0 =>
    let s := lockUse b s0
    let e := engOf s id
    let o' := if rd then { o with reads := o.reads ++ [(0, b * 128, 128, a)], lines := o.lines ++ linesOf 0 (b * 128) 128 }
              else o
    if e.held.contains b then lockSteps id t rest o' s
    else if lockFree s b then
      lockSteps id t rest { o' with took := if o'.before.contains b then o'.took else b :: o'.took }
        (modEng id (fun e => { e with held := e.held ++ [b], heldOnce := true }) (putLock b id s))
    else
      let s := modSlice (bucketSlice s b) (fun k => { k with
        waits := k.waits ++ [{ bucket := b, engine := id, tag := t, age := 0 }] }) s
      setOp id t { o with wait := true, locks := (b, rd, a) :: rest } s

def heldHigh (e : Engine) : Nat := e.held.foldl max 0

/-- Buckets that the engine holds or waits for. -/
def lockWants (e : Engine) : List Nat :=
  e.held ++ (e.tags.filterMap (fun t => t.op.map (fun o => o.locks.map (fun l => l.1)))).flatten

/-- LOCK and LOCKR (R204). A lock that a request waits for counts towards the four. (Log: DEDUCED, log entry 42.) -/
def memLock (id t code b : Nat) (rd : Bool) (a : Nat) (s : State) : State :=
  let o := newOp s id code
  let s := noteIssue id code s
  let e := engOf s id
  if rd && !lsIn a 128 then skIllegal id s
  else if tableBuckets s ≤ b then finishTag id t stBADARG 0 s
  else if e.held.contains b then lockSteps id t [(b, rd, a)] o s
  else if !e.held.isEmpty && decide (b < heldHigh e) then finishTag id t stLOCKORDER 0 (skipCount 5 1 s)
  else if 4 < (dedupN (b :: lockWants e)).length then finishTag id t stNOBUF 0 s
  else lockSteps id t [(b, rd, a)] o s

/-- The valid entries of a LOCKSET list (Table 9.7). -/
def lockList (bs : Bytes) : List (Nat × Bool × Nat) :=
  (List.range 4).filterMap (fun i =>
    let w := leAt bs (8 * i) 8
    if w.testBit 63 then some (bitsOf w 0 28, w.testBit 31, bitsOf w 32 10) else none)

/-- LOCKSET of the buckets named (R205). -/
def lockNamed (id t : Nat) (o : MemOp) (named : List (Nat × Bool × Nat)) (s : State) : State :=
  let e := engOf s id
  let low := named.foldl (fun m x => min m x.1) (2 ^ 28)
  let keep := e.held.filter (fun b => decide (b < low))
  let gone := e.held.filter (fun b => !decide (b < low))
  let extra := (gone.filter (fun b => !named.any (fun x => x.1 == b))).map (fun b => (b, false, 0))
  let want := sortBy (fun x => x.1) (named ++ extra)
  if named.any (fun x => x.2.1 && !lsIn x.2.2 128) then skIllegal id s
  else if named.any (fun x => decide (tableBuckets s ≤ x.1)) then finishTag id t stBADARG 0 s
  else if 4 < (dedupN (want.map (fun x => x.1) ++ lockWants e)).length then finishTag id t stNOBUF 0 s
  else
    let s := releaseLocks id gone s
    let s := modEng id (fun e => { e with held := keep, wbuf := e.wbuf.filter (fun w => !gone.contains w.cover) }) s
    lockSteps id t want o s

def memLockset (id t a : Nat) (s : State) : State :=
  let o := newOp s id 3
  withLs id a 32 (noteIssue id 3 s) (fun bs s => lockNamed id t o (lockList bs) s)

/-- LOCK_GRANT: the first request that waits for a released bucket is granted; `cycles` is how long it has waited. (Log: DESIGN CHOICE, log entry 4; DEDUCED, log entry 42.) -/
def doLockGrant (bucket : BitVec 28) (cycles : U32) (s : State) : State :=
  let b := bucket.toNat
  let sl := bucketSlice s b
  let k := sliceOf s sl
  match k.waits.find? (fun w => w.bucket == b) with
  | none => s
  | some w =>
    let mine := lockHolder s b == some w.engine
    if !mine && ((lockHolder s b).isSome || decide (4096 ≤ k.locks.length)) then s
    else
      let s := modSlice sl (fun k => { k with waits := k.waits.filter (fun x => x != w) }) s
      let s := perfEvent 0x0302 5 w.engine b 0 cycles.toNat (wake w.engine s)
      match (tagOf (engOf s w.engine) w.tag).op with
      | some o =>
        let s := if mine then s
          else modEng w.engine (fun e => { e with held := e.held ++ [b], heldOnce := true }) (putLock b w.engine s)
        lockSteps w.engine w.tag o.locks
          { o with wait := false, took := if mine || o.before.contains b then o.took else b :: o.took } s
      | none => s

/-! ### Bucket and line operations (R201, R202) -/

/-- A read of n bytes of a region into the local store. -/
def issueRead (id t code region a n loc : Nat) (s : State) : State :=
  let o := newOp s id code
  startReads id t { o with lines := linesOf region a n, reads := [(region, a, n, loc)] } (noteIssue id code s)

def memBread (id t b loc : Nat) (s : State) : State :=
  if !lsIn loc 128 then skIllegal id (noteIssue id 4 s)
  else if (engOf s id).held.contains b then issueRead id t 4 0 (b * 128) 128 loc s
  else finishTag id t stDENIED 0 (noteIssue id 4 s)

/-- An address range of the extension pools region. -/
def extOk (s : State) (a n : Nat) : Bool := decide (a + n ≤ regionBytes s.small 1)

def memXread (id t a : Nat) (two : Bool) (loc : Nat) (s : State) : State :=
  let n := if two then 128 else 64
  if !lsIn loc n then skIllegal id (noteIssue id 6 s)
  else if a % 64 = 0 && extOk s a n then issueRead id t 6 1 a n loc s else finishTag id t stBADARG 0 (noteIssue id 6 s)

/-- An earlier operation of the engine on one of the same lines is still in flight. -/
def mustWait (e : Engine) (t : Nat) (o : MemOp) : Bool :=
  (List.range 8).any (fun i => i != t && (match (tagOf e i).op with
    | some x => decide (x.order < o.order) && x.lines.any (fun l => o.lines.contains l)
    | none => false))

/-- A write is in its buffer at once, and completes behind an earlier operation of the engine on its line (R201). -/
def finishWrite (id t : Nat) (o : MemOp) (s : State) : State :=
  if mustWait (engOf s id) t o then setOp id t o s else finishTag id t o.status 0 s

/-- Buffer a line; lines to one address merge. NOBUF where the 16 lines are taken. -/
def bufferLine (id t : Nat) (o : MemOp) (w : WLine) (s : State) : State :=
  let o := { o with lines := [(w.region, w.addr / 64)] }
  let e := engOf s id
  if e.wbuf.any (fun x => x.region == w.region && x.addr == w.addr) then
    finishWrite id t o (modEng id (fun e => { e with wbuf := e.wbuf.map (fun x =>
      if x.region = w.region ∧ x.addr = w.addr then
        { x with mask := x.mask ||| w.mask, bytes := mergeMask w.mask w.bytes 0 x.bytes, cover := w.cover } else x) }) s)
  else if 16 ≤ e.wbuf.length then finishTag id t stNOBUF 0 (skipCount 13 1 s)
  else finishWrite id t o (modEng id (fun e => { e with wbuf := e.wbuf ++ [w] }) s)

def memBwrite (id t b unit loc mask : Nat) (s : State) : State :=
  let o := newOp s id 5
  withLs id loc 64 (noteIssue id 5 s) (fun bs s =>
    if !(engOf s id).held.contains b then finishTag id t stDENIED 0 s
    else bufferLine id t o { region := 0, addr := b * 128 + 64 * (unit % 2), mask := BitVec.ofNat 64 mask, bytes := bs, cover := b } s)

def memXwrite (id t a loc mask cover : Nat) (s : State) : State :=
  let o := newOp s id 7
  withLs id loc 64 (noteIssue id 7 s) (fun bs s =>
    if !(engOf s id).held.contains cover then finishTag id t stDENIED 0 s
    else if a % 64 ≠ 0 || !extOk s a 64 then finishTag id t stBADARG 0 s
    else bufferLine id t o { region := 1, addr := a, mask := BitVec.ofNat 64 mask, bytes := bs, cover := cover } s)

/-- ATOM (R203): ADD and BSET act at once and enter the undo log; BCLR waits for the commit. -/
def memAtom (id t kind a operand : Nat) (s : State) : State :=
  let o := newOp s id 8
  let s := noteIssue id 8 s
  let e := engOf s id
  let line := a / 64 * 64
  if !extOk s line 64 then finishTag id t stBADARG 0 s
  else if kind = 2 then
    finishWrite id t { o with lines := [(1, line / 64)] } (modEng id (fun e => { e with bclr := e.bclr ++ [(line, operand % 512)] }) s)
  else if 4 ≤ e.undo.length then finishTag id t stNOBUF 0 s
  else
    let full := kind ≠ 0 && (lowestClear (leNat (hbmRead s 1 line 64))).isNone
    let h := skHint id 1 line 64 (.atom (Fin.ofNat 3 kind)) s
    let q := plainReq id (.atom (Fin.ofNat 3 kind)) 1 line 64
    let s := hbmPresent (4 + id / 16) q s
    let o := { o with hint := some h, lines := [(1, line / 64)], out := [q] }
    if full then setOp id t { o with status := stNOTFOUND } s
    else
      let at_ := if kind = 0 then a / 8 * 8 else line
      let (res, s) := hbmAtom (if kind = 0 then 0 else 1) 1 at_ operand s
      let u : Undo := if kind = 0 then { isAdd := true, addr := at_, operand := operand }
                      else { isAdd := false, addr := line, operand := res }
      setOp id t { o with result := res } (modEng id (fun e => { e with undo := e.undo ++ [u] }) s)

/-- PLACE: the key is read at the issue, the answer is taken at the completion. -/
def memPlace (id t loc : Nat) (s : State) : State :=
  let o := newOp s id 9
  withLs id loc 40 (noteIssue id 9 s) (fun bs s => setOp id t { o with data := [(0, bs)] } s)

def memPoolAlloc (id t pool owner : Nat) (s : State) : State :=
  let o := newOp s id 10
  let s := noteIssue id 10 s
  if pool = 7 || !(owner = id || (0x200 ≤ owner && owner ≤ 0x203) || owner = 0x250) then skIllegal id s
  else match poolTake id (acctOf owner) pool s with
    | (none, s) => setOp id t { o with status := stNOBUF } s
    | (some r, s) =>
      let s := { s with pools.prov := kput s.pools.prov r owner }
      setOp id t { o with result := r } (modEng id (fun e => { e with allocs := e.allocs ++ [r] }) s)

def memPoolFree (id t ref : Nat) (s : State) : State :=
  finishTag id t stOK 0 (modEng id (fun e => { e with frees := e.frees ++ [ref % 2 ^ 32] }) (noteIssue id 11 s))

/-- The next held packet of the flow that a routine decides. -/
def nextHeld (s : State) (id : Nat) : Option (Bytes × Pkt) :=
  match (engOf s id).why with
  | some (.decide key) => ((holdOf s key).bind (fun hd => hd.pkts[hd.next]?.bind (pktOf s))).map (fun k => (key, k))
  | _ => none

/-- PKT_NEXT: the header of the next held packet of the engine's flow (R199). (Log: DEDUCED, log entry 42.) -/
def memPktNext (id t loc : Nat) (s : State) : State :=
  let s := noteIssue id 12 s
  if !lsIn loc 128 then skIllegal id s
  else match nextHeld s id with
    | none => finishTag id t stNOTFOUND 0 s
    | some (key, k) =>
      let l := match k.ans with
        | some a => a.level
        | none => levelReset
      let s := modHold key (fun x => { x with next := x.next + 1 }) s
      finishTag id t stOK 0 (modEng id (lsWrite loc (padTo 128 (hdrOf k l))) s)

/-- TELEM: a record is appended to the telemetry ring at once (R224). -/
def memTelem (id t loc : Nat) (s : State) : State :=
  withLs id loc 64 (noteIssue id 13 s) (fun r s =>
    finishTag id t stOK 0 (if s.skip.telem.length < 1048576 then { s with skip.telem := s.skip.telem ++ [r] }
      else skipCount 15 1 { s with skip.telem := s.skip.telem.drop 1 ++ [r] }))

def memTimeread (id t : Nat) (s : State) : State :=
  let s := noteIssue id 14 s
  finishTag id ((t + 1) % 8) stOK (ageNow s) (finishTag id t stOK (timeNs s % 2 ^ 32) s)

def fkLB_UNCORR : FaultKind := (0x07, 8, 3)

/-- A damaged load-balancing word fails each pick that finds it; the next boundary rewrites it (R218). -/
def lbWord (addr : Nat) (s : State) : Bool × State :=
  match damageAt s 0x07 8 addr with
  | none => (false, s)
  | some _ =>
    let s := raiseInjected fkLB_UNCORR addr [] [] s
    (true, { s with skip.lbBad := if s.skip.lbBad.contains addr then s.skip.lbBad else addr :: s.skip.lbBad })

/-- The backend entry that LBPICK writes (R219). -/
def backendEntry (s : State) (q k : Nat) : Bytes :=
  let i := q * 64 + k
  beBytes 8 (objVal s (oid 4 0x12 i)) ++ beBytes 8 (objVal s (oid 4 0x13 i)) ++ beBytes 2 (fv s 4 0x14 i 0 16)
    ++ [byteN k, byteN (fv s 4 0x14 i 16 1), 0, 0, 0, 0]

/-- LBPICK (R219). -/
def memLbpick (id t q h loc : Nat) (s : State) : State :=
  let s := noteIssue id 17 s
  if 256 ≤ q || 1024 < loc + 24 then finishTag id t stBADARG 0 s
  else
    let j := h % 256
    let (b1, s) := lbWord (q * 2 ^ 16 + j) s
    if b1 then finishTag id t stFAULTED 0 s
    else
      let k := fv s 4 0x10 (q * 256 + j) 0 6
      let (b2, s) := lbWord (q * 2 ^ 16 + 2 ^ 8 + k) s
      if b2 then finishTag id t stFAULTED 0 s
      else if fv s 4 0x11 (q * 64 + k) 0 1 = 0 then finishTag id t stNOTFOUND 0 s
      else
        let s := modEng id (lsWrite loc (backendEntry s q k)) s
        let s := { s with skip.pickB := kmod 0 s.skip.pickB (q * 256 + j) (fun n => n + 1),
                          skip.pickK := kmod 0 s.skip.pickK (q * 64 + k) (fun n => n + 1) }
        finishTag id t stOK (j * 256 + k) s

/-! ### Completion (R201) -/

/-- The answer of PLACE for a key. -/
def placeAnswer (s : State) (key : Bytes) : Nat :=
  let b := chosenBucket s key % 2 ^ 28
  match findRec s key with
  | some (h, _) => b + hSlot h * 2 ^ 28 + 2 ^ 29 + b2n (isStash h) * 2 ^ 30
  | none => b

/-- An operation has failed (R201): it has no effect. The locks that it took are released, with what was written under them. -/
def undoLocks (id : Nat) (bs : List Nat) (s : State) : State :=
  if bs.isEmpty then s
  else modEng id (fun e => { e with held := e.held.filter (fun b => !bs.contains b), wbuf := e.wbuf.filter (fun w => !bs.contains w.cover) })
    (releaseLocks id bs s)

/-- MEM_OP_COMPLETE: an operation in flight completes once the arbiters have answered it; `bad` says that its data cannot be read. -/
def doMemOpComplete (eng : Fin 512) (tag : Fin 8) (bad : Bool) (s : State) : State :=
  let id := eng.val
  let t := tag.val
  let e := engOf s id
  match (tagOf e t).op with
  | none => s
  | some o =>
    if o.wait || !o.out.isEmpty || mustWait e t o || e.st == .idle || e.st == .lost then s
    else if o.code = 9 then finishTag id t stOK (placeAnswer s (o.data.headD (0, [])).2) s
    else if o.status = stFAULTED || (bad && !o.data.isEmpty) then finishTag id t stFAULTED 0 (undoLocks id o.took s)
    else finishTag id t o.status o.result (modEng id (fun e => o.data.foldl (fun e d => lsWrite d.1 d.2 e) e) s)

/-! ### Polling, waiting, parking (R212, R231) -/

def inRoutine (e : Engine) : Bool := e.st != .idle && e.st != .lost

/-- The routine has run for SKIP_WATCHDOG boundaries (R211). -/
def watchdogDue (s : State) (id : Nat) : Bool := inRoutine (engOf s id) && decide (fv s 4 4 0 16 16 ≤ (engOf s id).age)

def watchdogFire (id : Nat) (s : State) : State := loseEngine id (.quiet 7) (raiseFault fkSK_WATCHDOG id s)

/-- What an engine polls at a safe point and while it stalls or waits (R231). -/
def poll (id : Nat) (s : State) : State :=
  let e := engOf s id
  if !inRoutine e then s
  else if e.timedOut then replay id s
  else if watchdogDue s id then watchdogFire id s else s

/-- SK_WATCHDOG: an engine that stalls or waits polls the limit; a running one polls it at its next safe point (R231). -/
def doSkWatchdog (eng : Fin 512) (s : State) : State :=
  if (engOf s eng.val).st = .running then s else poll eng.val s

/-- LOCK_TIMEOUT: a request that has waited 16 boundaries is refused (R182). An engine that stalls or waits begins its
replay at once, another at its next safe point (R231). -/
def doLockTimeout (eng : Fin 512) (tag : Fin 8) (cycles : U32) (s : State) : State :=
  let id := eng.val
  match s.flow.slices.findSome? (fun k => k.waits.find? (fun w => w.engine == id && w.tag == tag.val && decide (16 ≤ w.age))) with
  | none => s
  | some w =>
    let s := { s with flow.slices := s.flow.slices.map (fun k => { k with waits := k.waits.filter (fun x => x != w) }) }
    let s := perfEvent 0x0302 5 id w.bucket 0 cycles.toNat (skipCount 6 1 s)
    let s := wake id (finishTag id tag.val stLOCKTIMEOUT 0 s)
    let s := modEng id (fun e => { e with timedOut := true }) s
    if (engOf s id).st = .running then s else poll id s

def tagsDone (e : Engine) (mask : Nat) : Bool := (List.range 8).all (fun t => !mask.testBit t || (tagOf e t).done)

/-- Controller cycles until an operation's expected completion: 1.2 GHz against the engine's 1.5 GHz. -/
def expectedLeft (e : Engine) (o : MemOp) : Option Nat := o.hint.map (fun h => h - (e.cycles - o.cycles) * 4 / 5)

/-- The engine parks on a set of tags (R212). -/
def parks (s : State) (e : Engine) (mask : Nat) : Bool :=
  let ops := ((List.range 8).filter (fun t => mask.testBit t)).filterMap (fun t => (tagOf e t).op)
  let left := ops.filterMap (expectedLeft e)
  ops.all (fun o => o.wait || o.hint.isSome) && left.all (fun n => decide (fv s 4 3 0 0 12 ≤ n))

/-- At a WAIT: it ends, or the engine waits or parks. (Log: DEDUCED, log entry 42.) -/
def waitOn (id mask : Nat) (s : State) : State :=
  let e := engOf s id
  if tagsDone e mask then
    modEng id (fun e => { e with
      st := .running, waitMask := 0, pc := (e.pc + 1) % 2 ^ 14
      tags := (e.tags.zipIdx).map (fun x => if mask.testBit x.2 then { x.1 with seen := true } else x.1) }) s
  else if parks s e mask then modEng id (fun e => { e with st := .parked, waitMask := mask, cycles := e.cycles + 2 }) s
  else modEng id (fun e => { e with st := .waiting, waitMask := mask }) s

/-- UNPARK: a parked engine wakes WAKE_LEAD cycles before its earliest expected completion. -/
def doUnpark (eng : Fin 512) (s : State) : State := wake eng.val s

/-! ### Nanowords (Tables 9.4 to 9.7) -/

/-- A field of the nanoword. -/
def nf (w lo n : Nat) : Nat := bitsOf w lo n

/-- The field of Table 8.1 that READSPEC selects; a selector beyond the table, and HELD_HIGH after the last lock has gone, read a
value that the spec leaves open. (Log: DESIGN CHOICE, log entry 43.) -/
def specField (s : State) (id n : Nat) : Nat :=
  let e := engOf s id
  if n = 0 then e.pc
  else if n = 1 then (e.restart.map (fun x => x.1)).getD (entryAt s (id / 16) e.routine % 2 ^ 14)
  else if n = 2 then (List.range 8).foldl (fun a t => a + if (tagOf e t).done then 2 ^ t else 0) 0
  else if n < 11 then (tagOf e (n - 3)).status
  else if n < 19 then (tagOf e (n - 11)).result % 2 ^ 32
  else if n = 19 then
    (e.tags.filterMap (fun t => t.op.bind (fun o => o.hint))).foldl (fun (a : Option Nat) h =>
      match a with
      | none => some h
      | some x => some (min x h)) none |>.getD 0
  else if n = 20 then (if e.held.isEmpty && e.heldOnce then (openDraw 21 s).toNat % 2 ^ 28 else heldHigh e)
  else if n = 21 then e.held.length
  else if n = 22 then e.replays
  else if n = 23 then e.cycles % 2 ^ 32
  else if n = 24 then id
  else (openDraw 21 s).toNat

/-- Leading zeros of a 64-bit value. -/
def clz64 (a : Nat) : Nat := if a = 0 then 64 else 63 - a.log2

/-- The ALU (Table 9.5): result and carry. The carry of an operation that defines none is left open: none. (Log: DESIGN CHOICE, log entry 44.) -/
def alu (s : State) (id op a b : Nat) (z : Bool) : Nat × Option Bool :=
  let m := 2 ^ 64
  let sh := b % 64
  if op = 0 then (b, none)
  else if op = 1 then ((a + b) % m, some (decide (m ≤ a + b)))
  else if op = 2 then ((a + m - b) % m, some (decide (a < b)))
  else if op = 3 then (a &&& b, none)
  else if op = 4 then (a ||| b, none)
  else if op = 5 then (a ^^^ b, none)
  else if op = 6 then ((a <<< sh) % m, none)
  else if op = 7 then (a >>> sh, none)
  else if op = 8 then (((BitVec.ofNat 64 a).sshiftRight sh).toNat, none)
  else if op = 9 then (min a b, none)
  else if op = 10 then (max a b, none)
  else if op = 11 then (if z then a else b, none)
  else if op = 12 then ((a >>> sh) &&& (2 ^ (bitsOf b 6 6 + 1) - 1), none)
  else if op = 13 then (beNat (leBytes 8 a), none)
  else if op = 14 then (clz64 a, none)
  else if op = 15 then ((a * b) % m, none)
  else if op = 16 then ((leBytes 8 b).foldl (crcByte 0x82F63B78) (a % 2 ^ 32), none)
  else (specField s id (b % 32), none)

/-- Branch conditions (Table 9.6), after the microword's effects. -/
def condHolds (s : State) (e : Engine) (cond tag : Nat) : Bool :=
  let hint := (e.tags.filterMap (fun t => t.op.bind (fun o => o.hint)))
  if cond = 0 then true
  else if cond = 1 then e.fz
  else if cond = 2 then !e.fz
  else if cond = 3 then e.fn
  else if cond = 4 then !e.fn
  else if cond = 5 then e.fc
  else if cond = 6 then !e.fc
  else if cond = 7 then (tagOf e tag).done
  else if cond = 8 then (tagOf e tag).status == 0
  else if cond = 9 then decide (fv s 4 3 0 0 12 ≤ (hint.foldl min 4095) * b2n (!hint.isEmpty))
  else if cond = 10 then e.held.isEmpty
  else false

/-- The encodings that the loader refuses (Table 9.8, check 4). -/
def nanoReserved (w : Nat) : Bool :=
  decide (18 ≤ nf w 0 6) || decide (11 ≤ nf w 25 4) || nf w 29 2 == 3 || decide (18 ≤ nf w 48 5)
    || (nf w 29 2 == 1 && w.testBit 23)

/-- Issue the memory operation of a nanoword, with the registers as they stand (Table 9.7). COMMIT and FAIL end the
routine after the microword's effects and are not issued here. (Log: DESIGN CHOICE, log entry 44.) -/
def issueNano (id w : Nat) (g : Nat → Nat) (s : State) : State :=
  let op := nf w 48 5
  let t := nf w 53 3
  let a := g (nf w 56 5)
  let b := g (nf w 61 5)
  let c := g (nf w 66 5)
  let d := g (nf w 71 5)
  let m := nf w 76 4
  if op = 1 then memLock id t 1 a false 0 s
  else if op = 2 then memLock id t 2 a true b s
  else if op = 3 then memLockset id t a s
  else if op = 4 then memBread id t a b s
  else if op = 5 then memBwrite id t a (m % 2) b c s
  else if op = 6 then memXread id t a (m.testBit 0) b s
  else if op = 7 then memXwrite id t a b c d s
  else if op = 8 then memAtom id t (m % 4 % 3) a c s
  else if op = 9 then memPlace id t a s
  else if op = 10 then memPoolAlloc id t (m % 8) c s
  else if op = 11 then memPoolFree id t a s
  else if op = 12 then memPktNext id t a s
  else if op = 13 then memTelem id t a s
  else if op = 14 then memTimeread id t s
  else if op = 17 then memLbpick id t a b c s
  else s

/-! ### MICROWORD_EXECUTE (R228 to R233) -/

/-- Cycles that have passed since the engine's last step, by its state (R224). -/
def passCycles (id n : Nat) (s : State) : State :=
  let e := engOf s id
  let s := modEng id (fun e => { e with cycles := e.cycles + n }) s
  if n = 0 then s
  else if e.st = .parked then perfEvent 0x0402 5 id e.routine 0 n (skipCount 10 n s)
  else
    let s := if e.st = .stalled then skipCount 9 n s else s
    perfEvent 0x0401 5 id e.routine 0 n (skipCount 11 n s)

/-- A local-store access of a microword: its address, or none where it crosses byte 1,023 (R230). -/
def lsAddr (w : Nat) (g : Nat → Nat) : Option Nat :=
  let a := (g (nf w 33 5) + nf w 38 10) % 2 ^ 64
  if 1024 < a + 2 ^ nf w 31 2 then none else some a

/-- The next microword (Table 9.3), or SK_ILLEGAL. -/
def sequence (id mw : Nat) (taken : Bool) (s : State) : State :=
  let e := engOf s id
  let seq := bitsOf mw 16 3
  let param := bitsOf mw 0 14
  let next := (e.pc + 1) % 2 ^ 14
  let go := fun (pc : Nat) => modEng id (fun e => { e with pc := pc }) s
  if seq = 0 then go next
  else if seq = 1 then go param
  else if seq = 2 then go (if taken then param else next)
  else if seq = 3 then
    (if 4 ≤ e.stack.length then skIllegal id s
     else modEng id (fun e => { e with pc := param, stack := next :: e.stack }) s)
  else if seq = 4 then
    (match e.stack with
     | [] => skIllegal id s
     | pc :: rest => modEng id (fun e => { e with pc := pc, stack := rest }) s)
  else if seq = 5 then waitOn id (param % 256) s
  else if seq = 6 then
    (if e.issued || !e.stack.isEmpty then skIllegal id s
     else modEng id (fun e => { e with pc := next, restart := some (next, e.gpr) }) s)
  else skIllegal id s

/-- The effects of a microword with its nanoword, both readable. -/
def runWord (id mw w : Nat) (s : State) : State :=
  let e := engOf s id
  let g := fun (r : Nat) => (e.gpr.getD r 0).toNat
  let op := nf w 48 5
  let t := nf w 53 3
  let sel := nf w 21 2
  let b := if sel = 0 then g (nf w 11 5) else if sel = 1 then bitsOf mw 0 14 else if sel = 2 then nf w 128 64 else e.last.toNat
  let (res, carry) := alu s id (nf w 0 6) (g (nf w 6 5)) b e.fz
  let cy := match carry with
    | some c => c
    | none => (openDraw 20 s).getLsbD 0
  let lsop := nf w 29 2
  let n := 2 ^ nf w 31 2
  let la := lsAddr w g
  if lsop ≠ 0 && la.isNone then skIllegal id s
  else match (if lsop = 0 then none else lsDamaged s id (la.getD 0) n) with
    | some x => loseEngine id (.quiet 7) (raiseInjected (0x07, 3, 2) x [] [] s)
    | none =>
      let s := if op = 0 || op = 15 || op = 16 then s else issueNano id w g s
      if !inRoutine (engOf s id) then s
      else
        -- what READSPEC of MEM_DONE and a test of COND 7 clear
        let readDone := nf w 0 6 = 17 && b % 32 = 2
        let loaded := leNat (lsRead e (la.getD 0) n)
        let s := modEng id (fun x => { x with
          gpr := if w.testBit 23 then setAt x.gpr (nf w 16 5) (BitVec.ofNat 64 res)
                 else if lsop = 1 then setAt x.gpr (nf w 16 5) (BitVec.ofNat 64 loaded) else x.gpr
          last := BitVec.ofNat 64 res
          fz := if w.testBit 24 then res == 0 else x.fz
          fn := if w.testBit 24 then decide (2 ^ 63 ≤ res) else x.fn
          fc := if w.testBit 24 then cy else x.fc
          tags := if readDone then (x.tags.zipIdx).map (fun k =>
              if (tagOf e k.2).done && k.1.done then { k.1 with done := false } else k.1) else x.tags
          cycles := x.cycles + bitsOf mw 29 2 + 1 }) s
        let s := if lsop = 2 then modEng id (lsWrite (la.getD 0) (leBytes n (g (nf w 11 5)))) s else s
        let s := advanceDraws 1 (skipCount 11 (bitsOf mw 29 2 + 1) s)
        let s := perfEvent 0x0401 5 id e.routine 0 (bitsOf mw 29 2 + 1) s
        if op = 15 then commitTry id s
        else if op = 16 then failRoutine id s
        else
          let cond := nf w 25 4
          let taken := condHolds s (engOf s id) cond t
          let s := if bitsOf mw 16 3 = 2 && cond = 7 && taken then modTag id t (fun k => { k with done := false }) s else s
          let s := sequence id mw taken s
          if mw.testBit 31 || (engOf s id).st = .waiting then poll id s else s

/-- The tags that a memory operation of a nanoword needs are free. -/
def tagsReady (e : Engine) (w : Nat) : Bool :=
  let op := nf w 48 5
  let t := nf w 53 3
  op = 0 || op = 15 || op = 16 || (tagFree e t && (op ≠ 14 || tagFree e ((t + 1) % 8)))

/-- MICROWORD_EXECUTE: an engine takes its next step; `gap` engine cycles have passed since its last one, stalled, waiting
or parked. -/
def doMicrowordExecute (eng : Fin 512) (gap : U32) (s : State) : State :=
  let id := eng.val
  let e := engOf s id
  if !inRoutine e then s
  else
    let s := passCycles id gap.toNat s
    match e.st with
    | .parked => s
    | .stalled => poll id s
    | .waiting => poll id (waitOn id e.waitMask s)
    | _ =>
      let c := id / 16
      let (gbad, s) := useWord (0x07, 1, 3) (0x07, 2, 2) id s
      if gbad then loseEngine id (.quiet 7) s
      else
        let (bad, s) := ucFetch c 0 e.pc s
        let mw := (kget 0 s.skip.mw (c * 2 ^ 14 + e.pc)).toNat
        let nano := bitsOf mw 19 10
        let (bad2, s) := if bad then (true, s) else ucFetch c 1 nano s
        if bad || bad2 then loseEngine id (.quiet 8) s
        else
          let w := (kget 0 s.skip.nw (c * 1024 + nano)).toNat
          if nano = 0 || nanoReserved w then skIllegal id s
          else if !tagsReady (engOf s id) w then poll id s
          else runWord id mw w s

/-! ### The operations as steps of their own -/

/-- A running engine issues an operation on a free tag. -/
def onTag (eng : Fin 512) (tag : Fin 8) (f : Nat → Nat → State → State) (s : State) : State :=
  if (engOf s eng.val).st == .running && tagFree (engOf s eng.val) tag.val then f eng.val tag.val s else s

def doLock (eng : Fin 512) (tag : Fin 8) (bucket : U32) (s : State) : State :=
  onTag eng tag (fun id t s => memLock id t 1 bucket.toNat false 0 s) s

def doLockr (eng : Fin 512) (tag : Fin 8) (bucket : U32) (loc : BitVec 10) (s : State) : State :=
  onTag eng tag (fun id t s => memLock id t 2 bucket.toNat true loc.toNat s) s

def doLockset (eng : Fin 512) (tag : Fin 8) (loc : BitVec 10) (s : State) : State :=
  onTag eng tag (fun id t s => memLockset id t loc.toNat s) s

def doBread (eng : Fin 512) (tag : Fin 8) (bucket : U32) (loc : BitVec 10) (s : State) : State :=
  onTag eng tag (fun id t s => memBread id t bucket.toNat loc.toNat s) s

def doBwrite (eng : Fin 512) (tag : Fin 8) (bucket : U32) (unit : Fin 2) (loc : BitVec 10) (mask : U64) (s : State) : State :=
  onTag eng tag (fun id t s => memBwrite id t bucket.toNat unit.val loc.toNat mask.toNat s) s

def doXread (eng : Fin 512) (tag : Fin 8) (addr : U64) (two : Bool) (loc : BitVec 10) (s : State) : State :=
  onTag eng tag (fun id t s => memXread id t addr.toNat two loc.toNat s) s

def doXwrite (eng : Fin 512) (tag : Fin 8) (addr : U64) (loc : BitVec 10) (mask : U64) (cover : U32) (s : State) : State :=
  onTag eng tag (fun id t s => memXwrite id t addr.toNat loc.toNat mask.toNat cover.toNat s) s

def doAtom (eng : Fin 512) (tag : Fin 8) (kind : Fin 3) (addr operand : U64) (s : State) : State :=
  onTag eng tag (fun id t s => memAtom id t kind.val addr.toNat operand.toNat s) s

def doPlace (eng : Fin 512) (tag : Fin 8) (loc : BitVec 10) (s : State) : State :=
  onTag eng tag (fun id t s => memPlace id t loc.toNat s) s

def doSkPoolAlloc (eng : Fin 512) (tag : Fin 8) (pool : Fin 8) (owner : BitVec 12) (s : State) : State :=
  onTag eng tag (fun id t s => memPoolAlloc id t pool.val owner.toNat s) s

def doSkPoolFree (eng : Fin 512) (tag : Fin 8) (ref : U32) (s : State) : State :=
  onTag eng tag (fun id t s => memPoolFree id t ref.toNat s) s

def doPktNext (eng : Fin 512) (tag : Fin 8) (loc : BitVec 10) (s : State) : State :=
  onTag eng tag (fun id t s => memPktNext id t loc.toNat s) s

def doLbpick (eng : Fin 512) (tag : Fin 8) (pool hash : U32) (loc : U32) (s : State) : State :=
  onTag eng tag (fun id t s => memLbpick id t pool.toNat hash.toNat loc.toNat s) s

def doTelem (eng : Fin 512) (tag : Fin 8) (loc : BitVec 10) (s : State) : State :=
  onTag eng tag (fun id t s => memTelem id t loc.toNat s) s

def doTimeread (eng : Fin 512) (tag : Fin 8) (s : State) : State :=
  if tagFree (engOf s eng.val) ((tag.val + 1) % 8) then onTag eng tag memTimeread s else s

def doCommit (eng : Fin 512) (s : State) : State :=
  if (engOf s eng.val).st == .running then commitTry eng.val s else s

/-- COMMIT_HANDOVER: a stalled commit is handed over once every store has room. -/
def doCommitHandover (eng : Fin 512) (s : State) : State :=
  if (engOf s eng.val).st == .stalled && storesRoom s (engOf s eng.val).wbuf then handOver eng.val s else s

def doFail (eng : Fin 512) (s : State) : State :=
  if (engOf s eng.val).st == .running then failRoutine eng.val s else s

/-! ### Boundary work -/

/-- One boundary more since each dispatch (R211), and since the last SKIP_TELEM_READ (R224); damaged load-balancing words are
rewritten (R218). -/
def skipAge (s : State) : State :=
  let s := s.skip.lbBad.foldl (fun s a => clearDamage 0x07 8 a s) { s with skip.lbBad := [] }
  let ms := s.skip.engines.map (fun (x : Nat × Engine) => (x.1, if inRoutine x.2 then { x.2 with age := x.2.age + 1 } else x.2))
  { s with skip.engines := ms, skip.telemAge := (s.skip.telemAge.map (fun n => n + 1)).filter (fun n => decide (n < 512)) }

/-- The checks of a commit on the Skipper fields (R211, R221). -/
def skipCfgOk (s : State) : Bool :=
  decide (fv s 4 3 0 16 12 ≤ fv s 4 3 0 0 12) && decide (17 * (fv s 4 4 0 0 4 + 1) ≤ fv s 4 4 0 16 16)

/-! ### Autopilot loop 4 (R220) -/

def lbPicksK (s : State) (q k : Nat) : Nat := kget 0 s.skip.pickK (q * 64 + k)

/-- The index with the least value of a function, the lowest among equals. -/
def argMin (f : Nat → Int) : List Nat → Option Nat
  | [] => none
  | x :: xs => match argMin f xs with
    | none => some x
    | some y => if f y < f x then some y else some x

/-- The move that loop 4 makes in a pool: bucket and new backend. -/
def loop4 (s : State) (q : Nat) : Option (Nat × Nat) :=
  let en := (List.range 64).filter (fun k => fv s 4 0x11 (q * 64 + k) 0 1 == 1)
  if fv s 4 0x15 q 0 1 = 0 || en.length < 2 then none
  else
    let w := fun (k : Nat) => fv s 4 0x11 (q * 64 + k) 1 8
    let wsum := en.foldl (fun a k => a + w k) 0
    let p := (List.range 256).foldl (fun a j => a + kget 0 s.skip.pickB (q * 256 + j)) 0
    let e := fun (k : Nat) => ((lbPicksK s q k * wsum : Nat) : Int) - (p * w k : Nat)
    let be := fun (j : Nat) => fv s 4 0x10 (q * 256 + j) 0 6
    match (List.range 256).find? (fun j => !en.contains (be j)) with
    | some j => (argMin e en).map (fun k => (j, k))
    | none =>
      if p < 256 then none
      else match argMin (fun k => - e k) en, argMin e en with
        | some o, some u =>
          let mine := (List.range 256).filter (fun j => be j == o)
          if e o * 256 ≤ ((p * wsum * fv s 4 0x15 q 1 8 : Nat) : Int) || decide (mine.length ≤ fv s 4 0x15 q 9 8) || o = u then none
          else
            let cap := (e o).toNat / wsum
            let picks := fun (j : Nat) => ((kget 0 s.skip.pickB (q * 256 + j) : Nat) : Int)
            let fit := mine.filter (fun j => decide (kget 0 s.skip.pickB (q * 256 + j) ≤ cap))
            (if fit.isEmpty then argMin picks mine else argMin (fun j => - picks j) fit).map (fun j => (j, u))
        | _, _ => none

/-- The pick counts of a window are closed (R218, R220). -/
def closeWindow (s : State) : State :=
  { s with skip.closedB := s.skip.pickB, skip.closedK := s.skip.pickK, skip.pickB := [], skip.pickK := [] }

end Sys2Proof.Machine
end

