-- ==== Sys2Proof/Machine/Ucode.lean ====
section
/-! DEFINITION. The microcode loader: bundles, the checks of Table 9.8, loading a cluster, and the microcode commands
(R234 to R240). -/

namespace Sys2Proof.Machine

open Sys2Proof

/-! ### Bundles (Tables 9.10 and 9.11) -/

structure Bundle where
  raw : Bytes
  id : Nat
  version : Nat
  base : Nat
  mwCount : Nat
  nwCount : Nat
  expect : Nat
  entries : List Nat
  mws : List Nat
  nws : List Nat
deriving DecidableEq, Repr

/-- n words of k bytes, least significant byte first. -/
def wordsLe (k : Nat) : Nat → Bytes → List Nat
  | 0, _ => []
  | n + 1, bs => leAt bs 0 k :: wordsLe k n (bs.drop k)

def parseBundle (b : Bytes) : Bundle :=
  let mwc := leAt b 10 2
  let nwc := leAt b 12 2
  { raw := padTo (256 + 4 * mwc + 24 * nwc) b
    id := leAt b 0 4
    version := leAt b 4 4
    base := leAt b 8 2
    mwCount := mwc
    nwCount := nwc
    expect := leAt b 16 8
    entries := wordsLe 2 64 (b.drop 24)
    mws := wordsLe 4 mwc (b.drop 256)
    nws := wordsLe 24 nwc (b.drop (256 + 4 * mwc)) }

/-- Bundle index of a cluster in a section, or 0xFF (Table 9.10). -/
def mapOf (sec : Bytes) (c : Nat) : Nat := leAt sec (8 + c) 1

def bundleAt (sec : Bytes) (i : Nat) : Bundle := parseBundle (sec.drop (leAt sec (40 + 4 * i) 4))

/-- The fixed parts of a section's header hold, and the bundle exists. -/
def sectionOk (sec : Bytes) (i : Nat) : Bool :=
  leAt sec 0 4 == 1 && decide (1 ≤ leAt sec 4 1) && decide (leAt sec 4 1 ≤ 4) && decide (i < leAt sec 4 1)
    && leAt sec 5 3 == 0 && leAt sec 56 8 == 0

/-- Log: DEDUCED, log entry 46. -/
def digestOk (b : Bundle) : Bool :=
  shake256 (spliceB b.raw 152 (zerosB 64)) == sliceB b.raw 152 64

/-! ### The control graph (R229, R235) -/

def inBundle (b : Bundle) (pc : Nat) : Bool := decide (b.base ≤ pc) && decide (pc < b.base + b.mwCount)
def mwOf (b : Bundle) (pc : Nat) : Nat := b.mws.getD (pc - b.base) 0
def nanoOf (b : Bundle) (pc : Nat) : Nat := b.nws.getD (bitsOf (mwOf b pc) 19 10) 0

def mwSafe (mw : Nat) : Bool := mw.testBit 31
def mwTime (mw : Nat) : Nat := bitsOf mw 29 2
def mwSeq (mw : Nat) : Nat := bitsOf mw 16 3
def mwParam (mw : Nat) : Nat := bitsOf mw 0 14

/-- The microword ends the routine: its nanoword issues COMMIT or FAIL. -/
def ends (b : Bundle) (pc : Nat) : Bool := bitsOf (nanoOf b pc) 48 5 == 15 || bitsOf (nanoOf b pc) 48 5 == 16

/-- A point of a path: the PC and the return stack, top first. -/
abbrev PathPt := Nat × List Nat

/-- Every SEQ outcome of a point, in the loaded microwords or not. -/
def outcomes (b : Bundle) (n : PathPt) : List PathPt :=
  let (pc, st) := n
  let mw := mwOf b pc
  let q := mwSeq mw
  let t := mwParam mw
  if ends b pc then []
  else if q = 1 then [(t, st)]
  else if q = 2 then [(t, st), (pc + 1, st)]
  else if q = 3 then (if st.length < 4 then [(t, (pc + 1) :: st)] else [])
  else if q = 4 then (match st with
    | r :: rest => [(r, rest)]
    | [] => [])
  else if q = 7 then []
  else [(pc + 1, st)]

def nexts (b : Bundle) (n : PathPt) : List PathPt := (outcomes b n).filter (fun m => inBundle b m.1)

/-- Everything reachable from a work list; fuel bounds the steps and exceeds the number of points. -/
def explore {α : Type} [DecidableEq α] (succ : α → List α) : Nat → List α → List α → List α
  | 0, _, seen => seen
  | _, [], seen => seen
  | n + 1, x :: todo, seen =>
    if seen.contains x then explore succ n todo seen else explore succ n (succ x ++ todo) (x :: seen)

def pathFuel : Nat := 2 ^ 90

def entryPcs (b : Bundle) : List Nat :=
  ((b.entries.filter (fun e => e.testBit 14)).map (fun e => e % 2 ^ 14)).filter (inBundle b)

def reach (b : Bundle) : List PathPt := explore (nexts b) pathFuel ((entryPcs b).map (fun pc => (pc, []))) []

/-- The lowest of the addresses found to fail. -/
def lowest : List Nat → Option Nat
  | [] => none
  | x :: xs => match lowest xs with
    | some y => some (min x y)
    | none => some x

/-! ### The checks of Table 9.8: each answers the lowest failing address -/

/-- Check 1. A header field outside its range counts as a reserved value. (Log: DEDUCED, log entry 46.) -/
def chk1 (b : Bundle) : Option Nat :=
  let hdr := leAt b.raw 14 2 == 0 && isZeros (sliceB b.raw 216 40) && decide (1 ≤ b.mwCount)
    && decide (b.base + b.mwCount ≤ 16384) && decide (2 ≤ b.nwCount) && decide (b.nwCount ≤ 1024)
    && b.nws.all (fun w => bitsOf w 82 46 == 0) && b.nws.getD 0 0 == 0
  if !hdr then some 0
  else lowest (((List.range b.mwCount).filter (fun i => bitsOf (b.mws.getD i 0) 14 2 != 0
      || (mwSeq (b.mws.getD i 0) == 5 && bitsOf (b.mws.getD i 0) 8 6 != 0))).map (fun i => b.base + i))

def chk2 (b : Bundle) : Option Nat :=
  let bad := (List.range 64).filter (fun r =>
    let e := b.entries.getD r 0
    (e.testBit 14 && !inBundle b (e % 2 ^ 14)) || (r == 0 && !e.testBit 14)
      || ((r == 0 || decide (60 ≤ r)) && e.testBit 15))
  lowest (bad.map (fun r => b.entries.getD r 0 % 2 ^ 14))

def chkWords (_ : Bundle) (ns : List PathPt) (bad : Nat → Bool) : Option Nat :=
  lowest ((ns.filter (fun n => bad n.1)).map (fun n => n.1))

def chk3 (b : Bundle) (ns : List PathPt) : Option Nat :=
  chkWords b ns (fun pc => bitsOf (mwOf b pc) 19 10 == 0 || decide (b.nwCount ≤ bitsOf (mwOf b pc) 19 10))

def chk4 (b : Bundle) (ns : List PathPt) : Option Nat := chkWords b ns (fun pc => nanoReserved (nanoOf b pc))

/-- Least TIME of an ALU_OP (Table 9.5). -/
def aluTime (op : Nat) : Nat := if op = 15 then 2 else if op = 16 then 1 else 0

def chk5 (b : Bundle) (ns : List PathPt) : Option Nat :=
  chkWords b ns (fun pc =>
    let t := mwTime (mwOf b pc)
    decide (t < bitsOf (nanoOf b pc) 80 2) || decide (t < aluTime (bitsOf (nanoOf b pc) 0 6)))

/-- Log: DEDUCED, log entry 46. -/
def chk6 (b : Bundle) (ns : List PathPt) : Option Nat :=
  chkWords b ns (fun pc =>
    let q := mwSeq (mwOf b pc)
    !ends b pc && (!inBundle b (pc + 1) || ((q == 1 || q == 2 || q == 3) && !inBundle b (mwParam (mwOf b pc)))))

/-- Check 7 holds for every loaded microword, reachable or not. -/
def chk7 (b : Bundle) : Option Nat :=
  chkWords b ((List.range b.mwCount).map (fun i => (b.base + i, []))) (fun pc =>
    let q := mwSeq (mwOf b pc)
    q == 7 || (ends b pc && q != 0) || ((q == 5 || q == 6) && !mwSafe (mwOf b pc)))

def chk8 (b : Bundle) (ns : List PathPt) : Option Nat :=
  lowest ((ns.filter (fun n =>
    let q := mwSeq (mwOf b n.1)
    !ends b n.1 && ((q == 3 && decide (4 ≤ n.2.length)) || (q == 4 && n.2.isEmpty) || (q == 6 && !n.2.isEmpty)))).map
      (fun n => n.1))

def selectsLast (b : Bundle) (pc : Nat) : Bool := bitsOf (nanoOf b pc) 21 2 == 3

def chk9 (b : Bundle) (ns : List PathPt) : Option Nat :=
  let after := (ns.filter (fun n => mwSafe (mwOf b n.1) || mwSeq (mwOf b n.1) == 4)).map (fun n =>
    (nexts b n).map (fun m => m.1))
  lowest ((entryPcs b ++ after.flatten).filter (selectsLast b))

/-- Check 10: a step back to a point from which it is reached without a safe point. -/
def chk10 (b : Bundle) (ns : List PathPt) : Option Nat :=
  let bare := fun (n : PathPt) => !mwSafe (mwOf b n.1)
  let succ := fun (n : PathPt) => (nexts b n).filter bare
  lowest ((ns.filter (fun n => bare n && (succ n).any (fun m => decide (m.1 ≤ n.1)
    && (explore succ pathFuel [m] []).contains n))).map (fun n => n.1))

/-- Engine cycles of a microword in a span: none for the one that ends the routine (R232). (Log: DEDUCED, log entry 46.) -/
def spanOf (b : Bundle) (pc : Nat) : Nat := if ends b pc then 0 else mwTime (mwOf b pc) + 1

/-- Check 11: points with the cycles since the last safe point, up to the first past 64. -/
def chk11 (b : Bundle) : Option Nat :=
  let succ := fun (x : PathPt × Nat) =>
    let (n, used) := x
    if 64 < used then []
    else
      let from0 := if mwSafe (mwOf b n.1) then 0 else used
      (nexts b n).map (fun m => (m, from0 + spanOf b m.1))
  let all := explore succ pathFuel ((entryPcs b).map (fun pc => ((pc, []), spanOf b pc))) []
  lowest ((all.filter (fun x => decide (64 < x.2))).map (fun x => x.1.1))

/-- The first check that fails, with the address (R235). -/
def firstFail : Nat → List (Option Nat) → Option (Nat × Nat)
  | _, [] => none
  | i, some a :: _ => some (i, a)
  | i, none :: rest => firstFail (i + 1) rest

def bundleChecks (b : Bundle) : Option (Nat × Nat) :=
  match chk1 b with
  | some a => some (1, a)
  | none =>
    let ns := reach b
    firstFail 2 [chk2 b, chk3 b ns, chk4 b ns, chk5 b ns, chk6 b ns, chk7 b, chk8 b ns, chk9 b ns, chk10 b ns, chk11 b]

/-- What the loader makes of bundle i of a section: the failing check and address, 0 standing for the digest. -/
def bundleFault (sec : Bytes) (i : Nat) : Option (Nat × Nat) :=
  if !sectionOk sec i then some (1, 0)
  else
    let b := bundleAt sec i
    match bundleChecks b with
    | some x => some x
    | none => if digestOk b then none else some (0, 0)

/-- UC_REJECT of a bundle (Table 9.13). -/
def raiseReject (i : Nat) (x : Nat × Nat) (s : State) : State :=
  raiseFault fkUC_REJECT (i % 4 * 2 ^ 38 + x.1 * 2 ^ 32 + x.2 % 2 ^ 14) s

/-! ### Loading a cluster (R236) -/

/-- The keys of a cluster leave a store of 2^k words to a cluster. -/
def kzero {α : Type} (m : KMap α) (c k : Nat) : KMap α := m.filter (fun e => e.1 / 2 ^ k != c)

def zeroStores (c : Nat) (s : State) : State :=
  { s with skip.mw := kzero s.skip.mw c 14, skip.nw := kzero s.skip.nw c 10, skip.entry := kzero s.skip.entry c 6
           lod.damage := s.lod.damage.filter (fun d =>
             !(d.source == 0x08 && decide (d.kind.toNat ≤ 2) && d.addr.toNat / 2 ^ 16 == c)) }

def writeWords (b : Bundle) (c : Nat) (s : State) : State :=
  let m := (List.range b.mwCount).foldl (fun m i =>
    kset 0 m (c * 2 ^ 14 + b.base + i) (BitVec.ofNat 32 (b.mws.getD i 0))) s.skip.mw
  let n := (List.range b.nwCount).foldl (fun n i =>
    kset 0 n (c * 2 ^ 10 + i) (BitVec.ofNat 192 (b.nws.getD i 0))) s.skip.nw
  let e := (List.range 64).foldl (fun e r => kset 0 e (c * 64 + r) (BitVec.ofNat 16 (b.entries.getD r 0))) s.skip.entry
  { s with skip.mw := m, skip.nw := n, skip.entry := e }

/-- Routine 0 starts on an engine as a RUN dispatch, its mask lifted. An engine in a quiet period stays out of dispatch after it
(R216). -/
def selfTestStart (id : Nat) (s : State) : State :=
  let out := (engOf s id).out
  modEng id (fun e => { e with out := out }) (startEngine id .selfTest 0 0xFFFFFFFF none
    (descriptor s 2 0 0xFF 0xFF 0xFFFFFFFF 0 0 0 [] [] [] []) (hbmUnmask id s))

/-- An engine runs the self-test: every one whose domain has power and whose loss has been cleaned up. (Log: DEDUCED, log entry 46.) -/
def testable (s : State) (id : Nat) : Bool :=
  let e := engOf s id
  !inRoutine e && !e.lossDue && e.out != some .power

def clusterEngines (c : Nat) : List Nat := (List.range 16).map (fun i => c * 16 + i)

/-- A cluster left zeroed, with its STATE (R236). -/
def emptyCluster (c st : Nat) (s : State) : State :=
  modCluster c (fun _ => { clusterReset with state := st }) (zeroStores c s)

/-- Stores zeroed, words and entries written, self-tests started. -/
def loadBundle (b : Bundle) (c : Nat) (foreign : Bool) (s : State) : State :=
  let s := writeWords b c (zeroStores c s)
  let ids := (clusterEngines c).filter (testable s)
  let f := s.clock.fix
  let s := modCluster c (fun _ =>
    { state := 1, bundleId := b.id, version := b.version, failMask := 0, loadFix := f
      expect := BitVec.ofNat 64 b.expect, testing := ids, loading := !ids.isEmpty
      digest := sliceB b.raw 152 64, foreign := foreign }) s
  ids.foldl (fun s id => selfTestStart id s) s

/-- Load a cluster from a section: a cluster without a bundle is empty, one whose bundle is rejected is left zeroed. -/
def loadCluster (sec : Bytes) (c : Nat) (s : State) : State :=
  let i := mapOf sec c
  if i = 0xFF then emptyCluster c 0 s
  else if (bundleFault sec i).isSome then emptyCluster c 3 s
  else loadBundle (bundleAt sec i) c (sec != s.skip.ucRun) s

/-- The bundles that a section maps to clusters of a mask, ascending. -/
def bundlesFor (sec : Bytes) (mask : Nat) : List Nat :=
  (List.range 255).filter (fun i => (List.range 32).any (fun c => mask.testBit c && mapOf sec c == i))

/-- UC_REJECT for each bundle of a mask that is not loaded. -/
def rejectBundles (sec : Bytes) (mask : Nat) (s : State) : State :=
  (bundlesFor sec mask).foldl (fun s i => match bundleFault sec i with
    | some x => raiseReject i x s
    | none => s) s

/-- Before Binnacle reports ready, every cluster is loaded from the running image (R240). -/
def loadAll (s : State) : State :=
  let sec := s.skip.ucRun
  (List.range 32).foldl (fun s c => loadCluster sec c s) (rejectBundles sec (2 ^ 32 - 1) s)

/-! ### UCODE_LOAD (R238) -/

def ucSource (s : State) (p : CmdPkt) : Option Bytes := if par p 20 1 = 0 then some s.skip.ucRun else s.skip.ucNew

/-- The lowest cluster of the mask from position pos. -/
def nextCluster (m : Multi) : Option Nat :=
  ((List.range 32).filter (fun c => decide (m.pos ≤ c) && (par m.p 16 4).testBit c)).head?

/-- A step is presented at the first boundary and then at every second one. (Log: DEDUCED, log entry 46.) -/
def ucStepDue (m : Multi) : Bool := m.aux.headD 0 == 0

/-- The cluster's bit of SKIP_CLUSTER_EN has been 0 since an earlier boundary, and no engine of the cluster runs. -/
def clusterIdle (s : State) (c : Nat) : Bool :=
  !(fv s 4 1 0 0 32).testBit c && !s.skip.enWas.toNat.testBit c
    && (clusterEngines c).all (fun id => !inRoutine (engOf s id))

def ucodeUnit (m : Multi) (s : State) : State × MStep :=
  if !ucStepDue m then (s, .more { m with aux := [0] })
  else match nextCluster m, ucSource s m.p with
    | some c, some sec =>
      if !clusterIdle s c then
        (s, .fin (outErrAt (if m.units = 0 then stQUIESCE else stPARTIAL) m.units))
      else
        let s := loadCluster sec c s
        let m := { m with units := m.units + 1, pos := c + 1, aux := [1], lastFix := s.clock.fix }
        if (nextCluster m).isNone then (s, .fin (outOk m.units)) else (s, .more m)
    | _, _ => (s, .fin (outOk m.units))

def ucodeArg (_ : State) (p : CmdPkt) : Nat := argIf (decide (par p 16 4 ≠ 0) && decide (par p 20 1 ≤ 1))

def ucObj (c : Nat) : Obj := oid 5 0 c

def opUcodeLoad : Op :=
  let claims := fun (_ : State) (p : CmdPkt) =>
    (((List.range 32).filter (fun c => (par p 16 4).testBit c)).head?).toList.map ucObj
  { code := 0x0510, rings := [0], dir := .none, used := [(16, 5)], isRead := false, isMulti := true, inert := false,
    arg := ucodeArg, tenant := anyTenant, claims := claims, touch := touchOf claims
    body := fun p bufs s =>
      match ucSource s p with
      | none => (s, .done (outErr stNOTFOUND))
      | some sec =>
        if (bundlesFor sec (par p 16 4)).any (fun i => (bundleFault sec i).isSome) then
          (rejectBundles sec (par p 16 4) s, .done (outErrAt stBADARG 0))
        else
          let m : Multi := { slot := freeSlot s, code := 0x0510, p := p, count := 1, limit := 8192, units := 0,
                             lastFix := s.clock.fix, pos := 0, aux := [0], bufs := bufs }
          match ucodeUnit m s with
          | (s, .more m) => (s, .multi m)
          | (s, .fin o) => (s, .done o) }

/-! ### Reads -/

def clusterEntry (k : Cluster) : Bytes :=
  leBytes 4 k.bundleId ++ leBytes 4 k.version ++ [byteN k.state, 0] ++ leBytes 2 k.failMask ++ leBytes 4 k.loadFix.toNat

def opUcodeInfo : Op := readOp 0x0511 [0, 2, 3] 512 [] okArg anyTenant (fun _ s =>
  (s, outData 512 ((List.range 32).map (fun c => clusterEntry (clusterOf s c))).flatten))

def ucSize (store : Nat) : Nat := if store = 0 then 16384 else if store = 1 then 1024 else 64
def ucWidth (store : Nat) : Nat := if store = 0 then 4 else if store = 1 then 24 else 2

/-- A store word of a cluster as a natural (Table 9.1). -/
def ucWord (s : State) (c store a : Nat) : Nat :=
  if store = 0 then (kget 0 s.skip.mw (c * 2 ^ 14 + a)).toNat
  else if store = 1 then (kget 0 s.skip.nw (c * 2 ^ 10 + a)).toNat
  else entryAt s c a

def opUcodeRead : Op := readOp 0x0512 [0] 2 [(16, 6)]
  (fun _ p =>
    let store := par p 17 1
    let n := par p 20 2
    argIf (decide (par p 16 1 < 32) && decide (store ≤ 2) && decide (1 ≤ n) && decide (n ≤ 1024)
      && decide (par p 18 2 + n ≤ ucSize store) && decide (n * ucWidth store ≤ p.paramLen.toNat))) anyTenant
  (fun p s =>
    let c := par p 16 1
    let store := par p 17 1
    let n := par p 20 2
    (s, outData n ((List.range n).map (fun i => leBytes (ucWidth store) (ucWord s c store (par p 18 2 + i)))).flatten))

/-! ### Store integrity (R239) -/

/-- UCODE_RELOAD: a cluster out of dispatch for a store error, none of whose engines runs, is loaded again. -/
def doUcodeReload (cluster : Fin 32) (s : State) : State :=
  let c := cluster.val
  if (clusterOf s c).state ≠ 2 || (clusterEngines c).any (fun id => inRoutine (engOf s id)) then s
  else
    let sec := s.skip.ucRun
    let i := mapOf sec c
    let s := match bundleFault sec i with
      | some x => if i = 0xFF then s else raiseReject i x s
      | none => s
    loadCluster sec c s

/-- UCODE_SCRUB: the scrubber reads a word and writes a corrected one back. -/
def doUcodeScrub (cluster : Fin 32) (store : Fin 3) (word : BitVec 14) (s : State) : State :=
  (ucFetch cluster.val store.val word.toNat s).2

end Sys2Proof.Machine
end

