-- ==== Sys2Proof/Machine/SkipCmds.lean ====
section
/-! DEFINITION. The Skipper commands of group 0x05xx (Table 8.8a, R222 to R224), and the end of a quiet period. -/

namespace Sys2Proof.Machine

open Sys2Proof

/-! ### Reads -/

def engCode (e : Engine) : Nat :=
  match e.st with
  | .idle => 0
  | .running => 1
  | .waiting => 2
  | .parked => 3
  | .stalled => 4
  | .lost => 5

def engEntry (id : Nat) (e : Engine) : Bytes :=
  leBytes 2 id ++ [byteN (engCode e), byteN e.held.length, byteN e.routine, byteN e.replays, byteN e.wbuf.length,
    byteN (e.tags.filter (fun t => t.op.isSome)).length] ++ leBytes 4 e.handle ++ leBytes 4 e.age

def opSkipStatusRead : Op := readOp 0x0500 [0, 2, 3] 16 [(16, 4)]
  (fun _ p =>
    let n := par p 18 2
    argIf (decide (1 ≤ n) && decide (n ≤ 512) && decide (par p 16 2 + n ≤ 512) && decide (n * 16 ≤ p.paramLen.toNat)))
  anyTenant (fun p s =>
    let n := par p 18 2
    (s, outData n ((List.range n).map (fun i => engEntry (par p 16 2 + i) (engOf s (par p 16 2 + i)))).flatten))

def opSkipStatsRead : Op := readOp 0x0501 [0, 2, 3] 128 [] okArg anyTenant (fun _ s =>
  (s, outData 128 (s.skip.cnt.map (fun c => leBytes 8 c.toNat)).flatten))

/-- SKIP_TELEM_READ (R224): ring 2 leaves the records in the ring; at most one is served per 512 Fix. -/
def opSkipTelemRead : Op := readOp 0x0504 [0, 2, 3] 64 [(16, 2)]
  (fun s p =>
    let n := par p 16 2
    if !(decide (1 ≤ n) && decide (n ≤ 128) && decide (n * 64 ≤ p.paramLen.toNat)) then stBADARG
    else if s.skip.telemAge.isSome then stBUSY else 0) anyTenant
  (fun p s =>
    if s.skip.telemAge.isSome then (s, outErr stBUSY) else
    let es := s.skip.telem.take (par p 16 2)
    let s := { s with skip.telemAge := some 0 }
    let s := if authOf s p.src = 2 then s else { s with skip.telem := s.skip.telem.drop es.length }
    (s, outData es.length es.flatten))

/-- LB_READ (R218). -/
def opLbRead : Op := readOp 0x0505 [0, 1, 2, 3] 1024 [(16, 1)] okArg
  (fun s p => mayTenant s p (fv s 4 0x15 (par p 16 1) 24 24)) (fun p s =>
    let q := par p 16 1
    let a := (List.range 256).map (fun j => byteN (fv s 4 0x10 (q * 256 + j) 0 6))
    let b := ((List.range 64).map (fun k => leBytes 4 (kget 0 s.skip.closedK (q * 64 + k)))).flatten
    let c := ((List.range 256).map (fun j => leBytes 2 (min 65535 (kget 0 s.skip.closedB (q * 256 + j))))).flatten
    (s, outData 1024 (a ++ b ++ c)))

/-! ### SKIP_RUN and SKIP_RESET (R223) -/

def runHandle (p : CmdPkt) : Option Nat := if par p 20 4 = 0xFFFFFFFF then none else some (par p 20 4)

/-- The named record, if it is live or pending. -/
def runRecord (s : State) (h : Nat) : Option Bytes :=
  match recAt s h with
  | some r => if rget rSTATE r = 1 then none else some r
  | none => none

def runBucket (s : State) (h : Nat) : Nat :=
  if isStash h then (match recAt s h with
    | some r => chosenBucket s (recKey r)
    | none => 0)
  else hBucket h

def runClusters (p : CmdPkt) : List Nat := if par p 17 1 = 0xFF then List.range 32 else [par p 17 1]

def skipRunArg (_ : State) (p : CmdPkt) : Nat :=
  let r := par p 16 1
  if 63 < r then stBADARG
  else if r = 0 || 60 ≤ r then stDENIED
  else argIf (decide (par p 17 1 < 32) || par p 17 1 == 0xFF)

def skipRunClaims (s : State) (p : CmdPkt) : List Obj := ((runHandle p).map (fun h => recObj (runBucket s h))).toList

/-- The dispatch of SKIP_RUN on a free engine for a slot, with the record that it names. (Log: DEDUCED, log entry 42.) -/
def runDispatch (id slot : Nat) (p : CmdPkt) (named : Option (Nat × Bytes)) (s : State) : State :=
  let arg := sliceB (inlBytes p) 8 24
  match named with
  | none =>
    startEngine id (.run slot) (par p 16 1) 0xFFFFFFFF none
      (descriptor s 2 (par p 16 1) 0xFF 0xFF 0xFFFFFFFF 0 0 0 [] [] arg []) s
  | some (h, r) =>
    let b := runBucket s h
    startEngine id (.run slot) (par p 16 1) h (some b)
      (descriptor s 2 (par p 16 1) (bucketSlice s b) 0xFF h (rget rGEN r) 1 0 [] (recKey r) arg []) s

/-- The routine's entry is fetched and checked (R239). -/
def runGo (m : Multi) (id : Nat) (named : Option (Nat × Bytes)) (s : State) : State × MStep :=
  let (bad, s) := ucFetch (id / 16) 2 (par m.p 16 1) s
  if bad || !(entryAt s (id / 16) (par m.p 16 1)).testBit 14 then (skipCount 2 1 s, .fin (outErrAt stPARTIAL 0))
  else (runDispatch id m.slot m.p named s, .more { m with pos := 1 })

/-- The first boundary of SKIP_RUN (R223): an ending without a COMMIT has RESULT 0. A cluster whose SKIP_CLUSTER_EN bit is 0 takes no
dispatch (R221). (Log: DEDUCED, log entry 42.) -/
def runStart (m : Multi) (s : State) : State × MStep :=
  match ((runClusters m.p).filter (fun c => (fv s 4 1 0 0 32).testBit c)).findSome? (freeIn s) with
  | none => (s, .fin (outErrAt stBUSY 0))
  | some id =>
    match runHandle m.p with
    | none => runGo m id none s
    | some h => match runRecord s h with
      | none => (s, .fin (outErrAt stNOTFOUND 0))
      | some r =>
        if (holdOf s (recKey r)).isSome || !lockFree s (runBucket s h) then (s, .fin (outErrAt stBUSY 0))
        else runGo m id (some (h, r)) s

/-- Later boundaries: the routine's outcome, if it has ended. -/
def runPoll (m : Multi) (s : State) : State × MStep :=
  match s.skip.ended.find? (fun e => e.1 == m.slot) with
  | none => (s, .more m)
  | some e =>
    ({ s with skip.ended := s.skip.ended.filter (fun x => x.1 != m.slot) }, .fin (outErrAt e.2.1 e.2.2))

/-- Log: DEDUCED, log entry 42. -/
def skipRunUnit (m : Multi) (s : State) : State × MStep := if m.pos = 0 then runStart m s else runPoll m s

/-- SKIP_RUN: its limit is SKIP_WATCHDOG, as it stands when the command is presented. -/
def opSkipRun : Op :=
  { code := 0x0502, rings := [0], dir := .none, used := [(16, 2), (20, 28)], isRead := false, isMulti := true,
    inert := false, arg := skipRunArg, tenant := anyTenant, claims := skipRunClaims, touch := touchOf skipRunClaims
    body := fun p bufs s =>
      let m : Multi := { slot := freeSlot s, code := 0x0502, p := p, count := 1, limit := fv s 4 4 0 16 16, units := 0,
                         lastFix := s.clock.fix, pos := 0, aux := [], bufs := bufs }
      match skipRunUnit m s with
      | (s, .more m) => (s, .multi m)
      | (s, .fin o) => (s, .done o) }

/-- The engines that SKIP_RESET names and that run a routine. -/
def resetEngines (s : State) (p : CmdPkt) : List Nat :=
  (clusterEngines (par p 16 1)).filter (fun id => (par p 18 2).testBit (id % 16) && inRoutine (engOf s id))

def opSkipReset : Op :=
  { code := 0x0503, rings := [0, 3], dir := .none, used := [(16, 1), (18, 2)], isRead := false, isMulti := false,
    inert := false, arg := fun _ p => argIf (decide (par p 16 1 < 32)), tenant := anyTenant, claims := noClaims
    touch := noTouch
    body := fun p _ s =>
      let ids := resetEngines s p
      (ids.foldl (fun s id => loseEngine id .reset s) s, .done (outOk ids.length)) }

/-- A multi-Fix command has left its slot: an engine that still runs for it ends for nobody. -/
def detachRun (slot : Nat) (s : State) : State :=
  let es := s.skip.engines.map (fun (x : Nat × Engine) =>
    (x.1, if x.2.why = some (.run slot) then { x.2 with why := none } else x.2))
  let cs := s.skip.commits.map (fun c => if c.why = some (.run slot) then { c with why := none } else c)
  { s with skip.engines := es, skip.commits := cs, skip.ended := s.skip.ended.filter (fun e => e.1 != slot) }

/-! ### QUIET_PERIOD_END for the engines (R216, R389) -/

def doQuietPeriodEnd (src : Fin 23) (cls : Fin 4) (s : State) : State := engineReturn (quietEnd src cls s)

end Sys2Proof.Machine
end

