-- ==== Sys2Proof/Machine/Pair.lean ====
section
/-! DEFINITION. Pair operation (chapter 15): states, roles and claims, Rhumb frames, application of mirrored events,
resynchronisation, the mirror journal, and the group 0x0Bxx commands. -/

namespace Sys2Proof.Machine

open Sys2Proof

def fkRH_ECC : FaultKind := (0x10, 8, 2)

/-! ### Codes -/

/-- Pair state as PAIR_STATUS_READ gives it (R368). -/
def pairCode (st : PairState) : Nat :=
  match st with
  | .solo => 0
  | .down => 1
  | .hello => 2
  | .mismatch => 3
  | .resync => 4
  | .paired => 5
  | .lost => 6

/-- Power state as MAX_STATE numbers it (Table 17.5). -/
def pwrCode (st : PwrState) : Nat :=
  match st with
  | .flight => 0
  | .basking => 1
  | .roost => 2
  | .cocoon => 3

/-- In event sequence order a comes before b (R353). -/
def seqBefore (a b : Nat) : Bool := decide (ns32 b a < 2 ^ 31) && a != b

def ownUid : Nat := Config.uniqueId.toNat

/-- Ordering code (Table 3.9). -/
def orderCode (s : State) : Nat := if s.small then 48 else 96

/-! ### Frames (Table 15.3) -/

def rhType (f : Bytes) : Nat := beAt f 0 1

/-- FRAME_CRC holds over the whole frame. -/
def rhCrcOk (f : Bytes) : Bool := decide (32 ≤ f.length) && beAt f 28 4 == crc32c (spliceB f 28 (zerosB 4))

/-- RH_TYPE and RH_LEN are those of a frame (Table 15.3). -/
def rhFormOk (f : Bytes) : Bool :=
  decide (f.length ≤ 2048) && f.length % 32 == 0 && beAt f 2 2 == f.length && decide (1 ≤ rhType f) && decide (rhType f ≤ 6)

/-- RH_TYPE, RH_LEN and FRAME_CRC hold. -/
def rhFrameOk (f : Bytes) : Bool := rhCrcOk f && rhFormOk f

/-- Every peer event before this number has been applied. -/
def appliedSeq (s : State) : Nat :=
  match s.pair.rxq with
  | [] => s.pair.rxSeq
  | e :: _ => e.ev.seq

/-- A frame with its header filled in (R353). -/
def rhFrame (s : State) (typ first count : Nat) (body : Bytes) : Bytes :=
  let flags := b2n s.pair.nakDue + 2 * b2n s.pair.sup
  let h := [byteN typ, 1] ++ beBytes 2 (32 + body.length) ++ beBytes 4 first ++ beBytes 4 s.pair.rxSeq
    ++ beBytes 4 (appliedSeq s) ++ [byteN flags, byteN count, 0, 0] ++ beBytes 4 (fixN s) ++ zerosB 4
  h ++ beBytes 4 (crc32c (h ++ zerosB 4 ++ body)) ++ body

/-- A frame leaves; it carries what was due to be acknowledged. -/
def rhSend (typ first count : Nat) (body : Bytes) (s : State) : State :=
  let f := rhFrame s typ first count body
  let s := if s.pair.nakDue then pairCount 12 1 s else s
  { s with out.rhumb := s.out.rhumb ++ [(typ, first, f)], pair.nakDue := false, pair.ackDue := false }

/-- Log: DESIGN CHOICE, log entry 53. -/
def claimBody (home epoch status : Nat) : Bytes := padTo 32 ([byteN home, byteN status, 0, 0] ++ beBytes 4 epoch)

def epochOf (s : State) (h : Nat) : Nat := s.pair.epoch.getD (h - 1) 0

/-- A body of the model's own layout: the spec gives the values and not their places. (Log: DESIGN CHOICE, log entry 53.) -/
def beatBody (s : State) : Bytes :=
  padTo 32 ([byteN s.pair.roles.toNat, byteN (pairCode s.pair.st), byteN (pwrCode s.pwr.st), byteN (merSync s),
    byteN (b2n s.pair.endApplied), 0, 0, 0] ++ beBytes 4 (epochOf s 1) ++ beBytes 4 (epochOf s 2))

/-- SEED_DIGEST (Table 15.2). -/
def seedDigest (s : State) : Bytes :=
  (shake256 (leBytes 4 (fv s 3 1 0 0 32) ++ leBytes 4 (fv s 3 2 0 0 32) ++ leBytes 2 (fv s 13 3 0 0 16))).take 8

/-- Log: DESIGN CHOICE, log entry 53. -/
def helloBody (s : State) : Bytes :=
  let flags := fv s 13 5 0 0 1 + 2 * fv s 13 2 0 0 2 + 8 * s.pair.roles.toNat + 32 * b2n s.pair.helloOk
  padTo 32 (beBytes 2 (fv s 13 3 0 0 16) ++ seedDigest s ++ [byteN (poolGib s 3), byteN (poolGib s 4), byteN (poolGib s 5),
    byteN flags, byteN (orderCode s)] ++ uniqueIdB)

/-- Step 8 of a boundary: HEARTBEAT or HELLO where its Fix number, or one that a step has skipped, is a multiple of 8. -/
def beatStep (due : Bool) (s : State) : State :=
  if !due then s
  else match s.pair.st with
    | .resync => rhSend 3 0 0 (beatBody s) s
    | .paired => rhSend 3 0 0 (beatBody s) s
    | .lost => rhSend 3 0 0 (beatBody s) s
    | .hello => rhSend 4 0 0 (helloBody s) s
    | .mismatch => rhSend 4 0 0 (helloBody s) s
    | _ => s

/-! ### Roles (R349, R351, R362, R363) -/

/-- The role object of home h, 1 or 2. -/
def roleObj (h : Nat) : Obj := oid 13 1 h

/-- The device becomes ACTIVE for home h under an epoch. -/
def becomeActive (h epoch : Nat) (s : State) : State :=
  if s.pair.roles.getLsbD (h - 1) then s
  else
    let now := ageNow s
    raiseFault fkHOME_ACTIVE (h + epoch * 2 ^ 8)
      { s with pair.roles := s.pair.roles ||| ((1 : BitVec 2) <<< (h - 1)), pair.homeSince := setAt s.pair.homeSince (h - 1) now }

def becomeStandby (h : Nat) (s : State) : State := { s with pair.roles := s.pair.roles &&& ~~~((1 : BitVec 2) <<< (h - 1)) }

/-- A claim of home h goes to the peer with the last accepted epoch plus 1; its epoch. -/
def sendClaim (h : Nat) (s : State) : Nat × State :=
  let e := (epochOf s h + 1) % 2 ^ 32
  (e, { rhSend 5 0 0 (claimBody h e 0) s with pair.claims := s.pair.claims ++ [(h, e)] })

/-- The pair has a peer to whom claims go. -/
def pairUp (s : State) : Bool := s.pair.st == .resync || s.pair.st == .paired

def roleOne (roles : Nat) (h : Nat) (s : State) : State :=
  if !roles.testBit (h - 1) then becomeStandby h s
  else if s.pair.roles.getLsbD (h - 1) then s
  else if pairUp s then
    let (e, s) := sendClaim h s
    becomeActive h e s
  else becomeActive h (epochOf s h) s

/-- PAIR_ROLE and the timed action ROLE: the roles of the homes of a mask. -/
def roleApply (mask roles : Nat) (s : State) : State :=
  ([1, 2].filter (fun h => mask.testBit (h - 1))).foldl (fun s h => roleOne roles h s) s

/-- A local claim, at loss of the peer or at rejoin: the device becomes ACTIVE, and the claim is accepted here. -/
def takeoverApply (h : Nat) (s : State) : State :=
  let (e, s) := sendClaim h s
  becomeActive h e { s with pair.epoch := setAt s.pair.epoch (h - 1) e }

/-- A peer claim that has been accepted: the local role is STANDBY, and the peer is told. Epoch 0 stands for the device's
own claim at rejoin, which has no epoch (R363). -/
def peerClaimApply (h epoch : Nat) (s : State) : State :=
  let s := becomeStandby h s
  if epoch = 0 then s
  else rhSend 6 0 0 (claimBody h epoch stOK) { s with pair.epoch := setAt s.pair.epoch (h - 1) epoch }

/-- A peer claim that lost to rank 0 or 1. -/
def peerClaimLost (h epoch : Nat) (s : State) : State :=
  if epoch = 0 then s else rhSend 6 0 0 (claimBody h epoch stSUPERSEDED) s

/-! ### State changes (Table 15.1) -/

/-- Log: DEDUCED, log entry 54. -/
def wantPair (st : PairState) (s : State) : State := { s with pair.want := some st }

/-- Buffers of the peer's half of pools 3 to 5 that owner 0x250 holds (R364). -/
def peerHalfRefs (s : State) : List Nat :=
  (s.pools.alloc.filter (fun e => e.2 == 0x250 && decide (3 ≤ refPool e.1) && decide (refPool e.1 ≤ 5)
    && !(let h := poolHalf s (refPool e.1)
         decide (h.1 ≤ refIdx e.1) && decide (refIdx e.1 < h.1 + h.2)))).map (fun e => e.1)

/-- Log: DEDUCED, log entry 54. -/
def enterResync (s : State) : State :=
  let fresh := s.pair.st == .hello
  let s := (peerHalfRefs s).foldl (fun s r => poolRelease r s) s
  let s := { s with pair.st := .resync, pair.refresh := [], pair.sweep := some sweepReset, pair.endApplied := false
                    pair.peerEnded := false }
  let s := if fresh then { s with pair.rejoin := true, pair.txSeq := s.pair.peerRx, pair.sup := false } else s
  raiseFault fkPAIR_UP 4 (pairCount 14 1 s)

/-- A state entered at step 5 of a boundary. (Log: DEDUCED, log entry 54.) -/
def enterPair (st : PairState) (s : State) : State :=
  let s := { s with pair.want := none }
  match st with
  | .resync => enterResync s
  | .paired => raiseFault fkPAIR_UP 5 { s with pair.st := .paired, pair.sweep := none }
  | .mismatch => raiseFault fkPAIR_MISMATCH s.pair.cause { s with pair.st := .mismatch, pair.helloOk := false }
  | .hello => { s with pair.st := .hello, pair.helloOk := false, pair.cause := 0 }
  | .down => { s with pair.st := .down, pair.helloOk := false }
  | _ => s

/-- The homes whose takeover follows a loss of the peer: STANDBY, with TAKEOVER_AUTO set (R362). -/
def takeoverHomes (s : State) : List Nat :=
  [1, 2].filter (fun h => !s.pair.roles.getLsbD (h - 1) && fv s 13 2 0 (h + 1) 1 == 1)

/-- No valid frame has come for PEER_TIMEOUT boundaries (R361). -/
def peerSilent (s : State) : Bool := pairUp s && decide (fv s 13 4 0 0 8 ≤ s.pair.quiet)

/-- The peer is declared lost (R361): events queued or unacknowledged are discarded, and the device leaves Roost or Cocoon for a
takeover (R362). (Log: DEDUCED, log entry 54.) -/
def losePeer (s : State) : State :=
  let s := { s with pair.st := .lost, pair.want := none, pair.txq := [], pair.retx := [], pair.resend := []
                    pair.lagq := [], pair.claims := [], pair.sweep := none, pair.takeover := true }
  let s := if takeoverHomes s = [] then s else orderExit s
  raiseFault fkPEER_LOST (ns32 s.pair.rxSeq 1) (pairCount 13 1 s)

/-- Step 5 of a boundary: a silent peer is lost, a wanted state is entered; a journal overflow waits for the exit (R347, R361, R408).
(Log: DEDUCED, log entry 54.) -/
def pairStateStep (s : State) : State :=
  if peerSilent s then losePeer s
  else match s.pair.want with
  | some st => enterPair st s
  | none =>
    if s.pair.journalLost && !asleep s && pairUp s then enterPair .resync { s with pair.journalLost := false }
    else if s.pair.st == .resync && s.pair.endApplied && s.pair.peerEnded then enterPair .paired s
    else s

/-- PEER_LOST (R361). The boundary that brings the PEER_TIMEOUT-th silent one declares the loss itself, at step 5; the event does the same
where the boundary has not: where PEER_TIMEOUT has been lowered in that very apply set. (Log: DEDUCED, log entry 54.) -/
def doPeerLost (s : State) : State := if peerSilent s then losePeer s else s

/-- PAIR_LANES_ALIGNED: all four lanes aligned with FEC lock for 64 boundaries; HELLO is entered at the next boundary. (Log: DEDUCED, log entry 54.) -/
def doPairLanesAligned (s : State) : State :=
  if s.pair.st == .solo || !s.boot.refclk.getLsbD 1 then s
  else
    let s := { s with pair.lanes := 0xFFF }
    if s.pair.st == .down then wantPair .hello s else s

/-- RH_ALIGN_LOST: in RESYNC and PAIRED only the timeout of R361 counts. -/
def doRhAlignLost (s : State) : State :=
  let s := { s with pair.lanes := s.pair.lanes &&& 0xF00 }
  if s.pair.st == .hello || s.pair.st == .mismatch || (s.pair.st == .down && s.pair.want.isSome) then wantPair .down s else s

/-! ### Receiving frames (R353, R354) -/

/-- What every valid frame brings: liveness, acknowledgements, a NAK. -/
def rxHeader (f : Bytes) (s : State) : State :=
  let rx := beAt f 8 4
  let ap := beAt f 12 4
  let keep := s.pair.retx.filter (fun e => !seqBefore e.seq rx)
  { s with
    pair.quiet := 0
    pair.lastRx := s.clock.fix
    pair.peerRx := rx
    pair.peerApplied := ap
    pair.retx := keep
    pair.lagq := s.pair.lagq.filter (fun e => !seqBefore e.1 ap)
    pair.resend := if (beAt f 16 1).testBit 0 then keep else s.pair.resend.filter (fun e => !seqBefore e.seq rx) }

/-- A received frame of a type is valid; a failed CRC is counted and NAKed, and a frame of another RH_TYPE or a wrong length is
discarded (Table 15.3, R353). -/
def rxFrame (typ : Nat) (f : Bytes) (k : State → State) (s : State) : State :=
  if s.pair.st == .solo || s.pair.st == .down then s
  else if !rhCrcOk f then
    let s := pairCount 11 1 s
    if pairUp s then { s with pair.nakDue := true } else s
  else if !rhFormOk f || rhType f ≠ typ then s
  else k (rxHeader f s)

/-- The events of a DATA frame, by their sizes. -/
def rxEvents : Nat → Nat → Bytes → List PairEvent
  | 0, _, _ => []
  | n + 1, seq, bs =>
    let k := beAt bs 0 1
    { seq := seq, kind := k, body := bs.take (evSize k) } :: rxEvents n ((seq + 1) % 2 ^ 32) (bs.drop (evSize k))

/-- Buffers of pool 1 for n events, one for every two (R357). -/
def takeRx : Nat → List Nat → State → Option (List Nat) × State
  | 0, acc, s => (some acc.reverse, s)
  | k + 1, acc, s =>
    match poolTake 0x260 12 1 s with
    | (some r, s) => takeRx k (r :: acc) s
    | (none, s) => (none, acc.foldl (fun s r => poolRelease r s) s)

def rhDamaged (s : State) (lo hi : Nat) : Option Nat :=
  (s.lod.damage.find? (fun d => d.source == 0x10 && d.kind == 8
    && decide (lo ≤ d.addr.toNat / 2 ^ 32) && decide (d.addr.toNat / 2 ^ 32 ≤ hi))).map (fun d => d.addr.toNat)

/-- A structure of the mirror engine is used (R369): an uncorrectable error resynchronises the pair. -/
def rhUse (lo hi : Nat) (s : State) : State :=
  match rhDamaged s lo hi with
  | some a => wantPair .resync (raiseInjected fkRH_ECC a [] [] (clearDamage 0x10 8 a s))
  | none => s

/-- RH_DATA_RECEIVED: checked for CRC and sequence; its events wait for application. -/
def doRhDataReceived (frame : Bytes) (s : State) : State :=
  rxFrame 1 frame (fun s =>
    if !pairUp s then s
    else
      let s := rhUse 2 2 s
      let first := beAt frame 4 4
      let n := beAt frame 17 1
      if first ≠ s.pair.rxSeq then
        (if seqBefore s.pair.rxSeq first then { s with pair.nakDue := true } else { s with pair.ackDue := true })
      else
        match takeRx ((n + 1) / 2) [] s with
        | (none, s) => { s with pair.nakDue := true }
        | (some bufs, s) =>
          let es := rxEvents n first (frame.drop 32)
          let new := (List.range n).map (fun i =>
            ({ ev := es.getD i { seq := 0, kind := 0, body := [] }, buf := bufs[i / 2]?, deferred := false } : RxEvent))
          { s with pair.rxq := s.pair.rxq ++ new, pair.rxSeq := (s.pair.rxSeq + n) % 2 ^ 32, pair.ackDue := true }) s

/-- RH_ACK_RECEIVED. -/
def doRhAckReceived (frame : Bytes) (s : State) : State := rxFrame 2 frame (fun s => s) s

/-- RH_HEARTBEAT_RECEIVED: in HELLO, a peer in RESYNC or PAIRED has passed its checks; a pair whose peer starts a new
resynchronisation follows it. -/
def doRhHeartbeatReceived (frame : Bytes) (beat : RhBeat) (s : State) : State :=
  rxFrame 3 frame (fun s =>
    let ps := beat.state.toNat
    let s := { s with pair.peerRoles := beat.roles, pair.peerPower := beat.power.toNat, pair.peerState := ps }
    match s.pair.st with
    | .resync => if beat.sweepDone then { s with pair.peerEnded := true } else s
    | .paired => if ps = 4 && !beat.sweepDone then wantPair .resync s else s
    | .hello => if s.pair.helloOk && (ps = 4 || ps = 5) then wantPair .resync s else s
    | _ => s) s

/-- The first check of Table 15.2 that fails, or 0. -/
def helloCause (s : State) (ver : Nat) (h : RhHello) : Nat :=
  if ver ≠ 1 then 1
  else if h.pairId.toNat ≠ fv s 13 3 0 0 16 then 2
  else if h.order.toNat ≠ orderCode s then 3
  else if h.digest ≠ seedDigest s then 4
  else if h.gib ≠ [byteN (poolGib s 3), byteN (poolGib s 4), byteN (poolGib s 5)] then 5
  else if b2n h.half = fv s 13 5 0 0 1 then 6
  else if h.pref.toNat ^^^ fv s 13 2 0 0 2 ≠ 3 then 7
  else if h.uid.toNat = ownUid then 8
  else 0

/-- RH_HELLO_RECEIVED. -/
def doRhHelloReceived (frame : Bytes) (hello : RhHello) (s : State) : State :=
  rxFrame 4 frame (fun s =>
    let cause := helloCause s (beAt frame 1 1) hello
    let s := { s with pair.peerRoles := hello.roles, pair.peerUid := hello.uid }
    match s.pair.st with
    | .hello =>
      if cause ≠ 0 then wantPair .mismatch { s with pair.cause := cause }
      else
        let s := { s with pair.helloOk := true }
        if hello.ok then wantPair .resync s else s
    | .mismatch => if cause = 0 then wantPair .hello s else { s with pair.cause := cause }
    | .lost => wantPair .hello s
    | _ => s) s

/-- RH_CLAIM_RECEIVED: a claim whose epoch is new is presented as a rank-2 input. -/
def doRhClaimReceived (frame : Bytes) (home : Fin 2) (epoch : U32) (s : State) : State :=
  rxFrame 5 frame (fun s =>
    let h := home.val + 1
    if epoch.toNat ≤ epochOf s h then rhSend 6 0 0 (claimBody h epoch.toNat stSTALE) s
    else { s with ctl.queue := s.ctl.queue ++ [{ rank := 2, sub := 0, due := s.clock.fix + 1
                                                 body := .peerClaim h epoch.toNat }] }) s

/-- RH_CLAIM_ACK_RECEIVED: a claim that the peer accepted sets the last accepted epoch. -/
def doRhClaimAckReceived (frame : Bytes) (home : Fin 2) (epoch : U32) (status : Byte) (s : State) : State :=
  rxFrame 6 frame (fun s =>
    let h := home.val + 1
    let mine := s.pair.claims.contains (h, epoch.toNat)
    let s := { s with pair.claims := s.pair.claims.filter (fun c => c != (h, epoch.toNat)) }
    if mine && status = 0 && decide (epochOf s h < epoch.toNat) then
      { s with pair.epoch := setAt s.pair.epoch (h - 1) epoch.toNat }
    else s) s

/-! ### Sending (R353, R354) -/

/-- Events that fit one frame, up to 63 events and 2,016 bytes. -/
def fitEvents : Nat → Nat → List PairEvent → List PairEvent
  | 0, _, _ => []
  | _, _, [] => []
  | n + 1, room, e :: es =>
    if e.body.length ≤ room then e :: fitEvents n (room - e.body.length) es else []

def evTotal (es : List PairEvent) : Nat := es.foldl (fun n e => n + e.body.length) 0

def dataFrame (es : List PairEvent) (s : State) : State :=
  match es with
  | [] => s
  | e :: _ => rhSend 1 e.seq es.length ((es.map (fun e => e.body)).flatten) s

/-- RH_DATA_SEND: retransmissions first; new events while the retransmit store has room. -/
def doRhDataSend (s : State) : State :=
  if !pairUp s then s
  else
    let s := rhUse 0 1 s
    let old := fitEvents 63 2016 s.pair.resend
    if !old.isEmpty then
      pairCount 10 1 (dataFrame old { s with pair.resend := s.pair.resend.drop old.length })
    else
      let new := fitEvents 63 (min 2016 (131072 - evTotal s.pair.retx)) s.pair.txq
      let s := new.foldl (fun s e => perfEvent 0x0D01 5 0 0 e.kind 1 s) s
      dataFrame new (pairCount 0 new.length
        { s with pair.txq := s.pair.txq.drop new.length, pair.retx := s.pair.retx ++ new })

/-- RH_ACK_SEND: an ACK, with NAK where one is due. -/
def doRhAckSend (s : State) : State :=
  if s.pair.ackDue || s.pair.nakDue then rhSend 2 0 0 (zerosB 32) s else s

/-- RH_RETRANSMIT_TIMEOUT: every unacknowledged event is sent again, oldest first. -/
def doRhRetransmitTimeout (s : State) : State :=
  if pairUp s && !s.pair.retx.isEmpty then { s with pair.resend := s.pair.retx } else s

/-! ### Application of events (Table 15.5, R357, R359) -/

/-- A key from its compact form. -/
def wideKey (c : Bytes) : Bytes :=
  sliceB c 0 4 ++ v4Mapped ++ sliceB c 4 4 ++ v4Mapped ++ sliceB c 8 4 ++ sliceB c 12 4

/-- The binding fields that an event carries. -/
structure Binding where
  key : Bytes
  home : Nat
  action : Nat
  rewrite : Nat
  endpoint : Nat
  ext : Nat
  first : Nat
  ageClass : Nat
deriving DecidableEq, Repr

def evHome (e : PairEvent) : Nat := (beAt e.body 2 1) % 2 + 1

def evKey (e : PairEvent) : Bytes :=
  if e.kind = 1 || e.kind = 3 then wideKey (sliceB e.body 8 16) else sliceB e.body 8 40

def evBinding (e : PairEvent) : Binding :=
  let b := e.body
  if e.kind = 1 then
    { key := evKey e, home := evHome e, action := beAt b 24 4, rewrite := beAt b 28 8, endpoint := beAt b 36 4,
      ext := beAt b 40 4, first := beAt b 44 4, ageClass := beAt b 48 1 }
  else
    { key := evKey e, home := evHome e, action := beAt b 48 4, rewrite := beAt b 52 24, endpoint := beAt b 76 4,
      ext := beAt b 80 4, first := beAt b 84 4, ageClass := beAt b 88 1 }

/-- The record events of Table 15.4. -/
def evRecord (e : PairEvent) : Bool := decide (1 ≤ e.kind) && decide (e.kind ≤ 4)

/-- What an event addresses (R357). -/
def evClaims (s : State) (e : PairEvent) : List Obj :=
  if evRecord e then [recObj (chosenBucket s (evKey e))]
  else if e.kind = 5 then [oid 8 0x100 (refOfExt s (beAt e.body 8 8 / 128))]
  else []

/-- The event's chosen bucket is locked. -/
def evLocked (s : State) (e : PairEvent) : Bool := evRecord e && isLocked s (chosenBucket s (evKey e))

/-- A BIND applied during RESYNC sets the refresh bit of its slot (R365). -/
def refreshMark (h : Nat) (s : State) : State :=
  if s.pair.st == .resync && !s.pair.refresh.contains h then { s with pair.refresh := h :: s.pair.refresh } else s

/-- The binding fields and home replace those of a record. (Log: DEDUCED, log entry 56.) -/
def rebind (b : Binding) (r : Bytes) : Bytes :=
  genBump ([(rACTION, b.action), (rREWRITE, b.rewrite), (rENDPOINT, b.endpoint), (rEXT, b.ext), (rAGE_CLASS, b.ageClass),
    (rHOME, b.home - 1)].foldl (fun r (f : RecField × Nat) => rset f.1 f.2 r) r)

/-- The incoming binding wins a collision with a local record (R359). -/
def bindWins (s : State) (b : Binding) (r : Bytes) : Bool :=
  let k := keyHome s b.key
  if b.first ≠ rget rFIRST r then decide (b.first < rget rFIRST r)
  else if b.home ≠ recHome r then b.home == k
  else decide (s.pair.peerUid.toNat < ownUid)

def collide (b : Binding) (h : Nat) (r : Bytes) (s : State) : State :=
  let wins := bindWins s b r
  let s := pairCount 7 1 (raiseFault fkPAIR_COLLISION (chosenBucket s b.key + b2n wins * 2 ^ 28) s)
  if wins then rewriteRec h (rebind b r) s
  else if rget rMIRRORED r = 1 then s
  else
    let r := rset rMIRRORED 1 r
    queueBind r false (rewriteRec h r s)

/-- BIND. Answers whether it has been applied; a pending record of the key keeps it waiting. -/
def applyBind (b : Binding) (s : State) : Bool × State :=
  match findRec s b.key with
  | some (h, r) =>
    if rget rSTATE r = 2 then (false, s)
    else
      let s := refreshMark h s
      if recStandby s r then (true, rewriteRec h (rebind b r) s) else (true, collide b h r s)
  | none =>
    match insertPlace s b.key with
    | none => (true, pairCount 4 1 (raiseFault fkMIRROR_NOROOM (chosenBucket s b.key) s))
    | some h =>
      let now := ageNow s
      let r := [(rMIRRORED, 1), (rHOME, b.home - 1), (rGEN, 1), (rLAST, now), (rFIRST, b.first), (rACTION, b.action),
        (rREWRITE, b.rewrite), (rENDPOINT, b.endpoint), (rEXT, b.ext), (rAGE_CLASS, b.ageClass)].foldl
        (fun r (f : RecField × Nat) => rset f.1 f.2 r) (blankRec b.key)
      (true, refreshMark h (placeRec h r s))

/-- UNBIND. A full tombstone list keeps it waiting. -/
def applyUnbind (key : Bytes) (s : State) : Bool × State :=
  match findRec s key with
  | some (h, r) =>
    if !recLive r || !recStandby s r then (true, pairCount 5 1 s)
    else if !tombRoom s (hSlice s h) then (false, s)
    else (true, makeTomb h 4 s)
  | none => (true, pairCount 5 1 s)

/-- EXT_LINE: the line is written and its buffer belongs to owner 0x250, unless another owner holds it. (Log: DEDUCED, log entry 56.) -/
def applyExt (e : PairEvent) (s : State) : State :=
  let a := beAt e.body 8 8 / 64 * 64
  let ref := refOfExt s (a / 128)
  let write := fun s => hbmPresent 37 (plainReq 0x260 .write 1 a 64) (hbmWrite 1 a (sliceB e.body 16 64) s)
  if poolSize s (refPool ref) ≤ refIdx ref then pairCount 6 1 s
  else match kfind s.pools.alloc ref with
    | none =>
      let s := { s with pools.alloc := kput s.pools.alloc ref 0x250 }
      let s := modAcct 11 (refPool ref) (fun u => { u with use := u.use + 1, high := max u.high (u.use + 1) }) s
      write (poolLowCheck (refPool ref) s)
    | some o => if o = 0x250 then write s else pairCount 6 1 s

/-- Every record with its handle: buckets that hold something, and the stashes. -/
def allRecs (s : State) : List (Nat × Bytes) :=
  let lim := tableBuckets s * 128
  let bs := dedupN ((s.hbm.mem.filter (fun c => decide (c.1 < lim) && c.1 % 64 == 0)).map (fun c => c.1 / 128))
  (bs.map (bucketRecs s)).flatten ++ ([0, 1, 2, 3].map (stashRecs s)).flatten

/-- Live records of STANDBY homes that the resynchronisation has not refreshed (R365). -/
def staleRecs (s : State) : List (Nat × Bytes) :=
  (allRecs s).filter (fun e => recLive e.2 && recStandby s e.2 && !s.pair.refresh.contains e.1)

/-- RESYNC_END: stale records go, as far as the tombstone lists have room; with none left the event is applied. (Log: DEDUCED, log entry 55.) -/
def applyEnd (s : State) : Bool × State :=
  if s.pair.st != .resync then (true, s)
  else
    let s := (staleRecs s).foldl (fun s e => if tombRoom s (hSlice s e.1) then makeTomb e.1 4 s else s) s
    if (staleRecs s).isEmpty then (true, { s with pair.endApplied := true }) else (false, s)

/-- A record event changes its chosen bucket, and the slice writes what has changed. -/
def eventWritten (e : PairEvent) (f : State → Bool × State) (s : State) : Bool × State :=
  let b := chosenBucket s (evKey e)
  let x := f s
  (x.1, sliceWritten (bucketSlice s b) false b (fun _ => x.2) s)

/-- One event at its boundary. Answers whether it has been applied. -/
def applyEvent (e : PairEvent) (s : State) : Bool × State :=
  if e.kind = 1 || e.kind = 2 then eventWritten e (applyBind (evBinding e)) s
  else if e.kind = 3 || e.kind = 4 then eventWritten e (applyUnbind (evKey e)) s
  else if e.kind = 5 then (true, applyExt e s)
  else if e.kind = 6 then (true, { s with pair.heads := (e.body :: s.pair.heads).take 64 })
  else if e.kind = 7 then applyEnd s
  else (true, s)

/-- A received event leaves the receive buffers; a buffer goes with the last event that it holds. -/
def dropRx (seq : Nat) (s : State) : State :=
  match s.pair.rxq.find? (fun e => e.ev.seq == seq) with
  | none => s
  | some x =>
    let rest := s.pair.rxq.filter (fun e => e.ev.seq != seq)
    let s := { s with pair.rxq := rest, pair.sup := s.pair.sup || x.deferred }
    match x.buf with
    | some r => if rest.any (fun e => e.buf = some r) then s else poolRelease r s
    | none => s

/-- A received event is deferred (R357). (Log: DEDUCED, log entry 55.) -/
def deferRx (seq : Nat) (s : State) : State :=
  pairCount 3 1 { s with pair.rxq := s.pair.rxq.map (fun e => if e.ev.seq = seq then { e with deferred := true } else e) }

/-- Log: DEDUCED, log entry 56. -/
def journalBytes (s : State) : Nat := evTotal s.pair.journal

/-- Events that are due while the slices are off, or while the journal replays, are appended to the journal (R366). -/
def journalEvent (e : PairEvent) (s0 : State) : State :=
  let s := rhUse 3 3 s0
  if 2 ^ 31 < journalBytes s + e.body.length then
    (if s.pair.journalLost then s
     else raiseFault fkMIRROR_OVERFLOW (s.pair.journal.length % 65536) { s with pair.journalLost := true })
  else { s with pair.journal := s.pair.journal ++ [e] }

/-- A mirror event of the apply set that was accepted. `late` holds the objects of events deferred at this boundary:
a later event of the same bucket waits too. (Log: DEDUCED, log entry 56.) -/
def mirrorTake (e : PairEvent) (x : List Obj × State) : List Obj × State :=
  let (late, s) := x
  let objs := evClaims s e
  if asleep s || !s.pair.journal.isEmpty then (late, dropRx e.seq (journalEvent e s))
  else if objs.any (fun o => late.contains o) then (late, deferRx e.seq s)
  else match applyEvent e s with
    | (true, s) => (late, dropRx e.seq (pairCount 1 1 s))
    | (false, s) => (objs ++ late, deferRx e.seq s)

/-- An event of the journal at its boundary. -/
def replayTake (e : PairEvent) (x : List Obj × State) : List Obj × State :=
  let (late, s) := x
  let objs := evClaims s e
  if objs.any (fun o => late.contains o) then (late, s)
  else match applyEvent e s with
    | (true, s) =>
      (late, pairCount 1 1 { s with pair.journal := s.pair.journal.filter (fun j => j.seq != e.seq) })
    | (false, s) => (objs ++ late, s)

/-- The rank-5 inputs of a sample (R357, R366): the journal first, then received events. -/
def mirrorInputs (s : State) : List Input :=
  let due := s.clock.fix + 1
  if !asleep s && !s.pair.journal.isEmpty then
    (s.pair.journal.take 2048).map (fun e => { rank := 5, sub := 0, due := due, body := .replay e })
  else (s.pair.rxq.take 2048).map (fun e => { rank := 5, sub := 0, due := due, body := .mirror e.ev })

/-- The rank-2 claims that the device itself presents: at loss (R362), and at rejoin (R363). -/
def claimInputs (s : State) : List Input :=
  let due := s.clock.fix + 1
  let auto := fun (h : Nat) => fv s 13 2 0 (h + 1) 1 == 1
  let pref := fun (h : Nat) => fv s 13 2 0 (h - 1) 1 == 1
  let mine := fun (h : Nat) => s.pair.roles.getLsbD (h - 1)
  let theirs := fun (h : Nat) => s.pair.peerRoles.getLsbD (h - 1)
  let take := fun (h : Nat) => ({ rank := 2, sub := 0, due := due, body := .takeover h } : Input)
  let give := fun (h : Nat) => ({ rank := 2, sub := 0, due := due, body := .peerClaim h 0 } : Input)
  if s.pair.takeover then (takeoverHomes s).map take
  else if s.pair.rejoin then
    ([1, 2].filter (fun h => mine h && theirs h && !pref h)).map give
      ++ ([1, 2].filter (fun h => !mine h && !theirs h && pref h && auto h)).map take
  else []

/-! ### Resynchronisation (R364) -/

/-- A sweep's BIND for one record. (Log: DEDUCED, log entry 55.) -/
def sweepRec (x : Nat × Bytes) (s : State) : State :=
  let (h, r) := x
  if !recLive r || !activeFor s (recHome r) then s
  else
    let r := rset rMIRRORED 1 r
    pairCount 15 1 (queueBind r true (rewriteRec h r s))

/-- Lines of the allocated buffers of pools 3 to 5 in the own half. -/
def ownLines (s : State) : List Nat :=
  let refs := (s.pools.alloc.filter (fun e => decide (3 ≤ refPool e.1) && decide (refPool e.1 ≤ 5)
    && (let h := poolHalf s (refPool e.1)
        decide (h.1 ≤ refIdx e.1) && decide (refIdx e.1 < h.1 + h.2)))).map (fun e => e.1)
  (refs.map (fun r => (List.range (bufBytes (refPool r) / 64)).map (fun i => extPtrOf s r * 128 + 64 * i))).flatten

def sweepSent (s0 s : State) : Nat := ns32 s.pair.txSeq s0.pair.txSeq

/-- RESYNC_SWEEP: one Fix's share of the sweep, then lines, then RESYNC_END. It pauses above 8,192 queued events. (Log: DEDUCED, log entry 55.) -/
def doResyncSweep (s : State) : State :=
  match s.pair.sweep with
  | none => s
  | some w =>
    if s.pair.st != .resync || w.ended || w.last == some s.clock.fix || 8192 < s.pair.txq.length then s
    else
      let n := fv s 13 7 0 0 13
      let lim := tableBuckets s
      let note := fun (w : Sweep) (t : State) =>
        { t with pair.sweep := some { w with sent := w.sent + sweepSent s t, last := some s.clock.fix } }
      if w.bucket < lim then
        let m := min n (lim - w.bucket)
        let t := (List.range m).foldl (fun s i =>
          (bucketRecs s (w.bucket + i)).foldl (fun s x => sweepRec x s) s) s
        note { w with bucket := w.bucket + m } t
      else if !w.stashDone then
        let t := (([0, 1, 2, 3].map (stashRecs s)).flatten).foldl (fun s x => sweepRec x s) s
        note { w with stashDone := true, ext := some (ownLines s) } t
      else match w.ext with
        | some (a :: rest) =>
          let go := (a :: rest).take n
          let t := go.foldl (fun s a => pairCount 15 1 (queueExtLine true a s)) s
          note { w with ext := some ((a :: rest).drop n) } t
        | _ =>
          let t := pairCount 15 1 (queueEvent 7 2 (beBytes 8 w.sent) s)
          { t with pair.sweep := some { w with ended := true } }

/-! ### Boundary work -/

/-- Lag in Fix: the age of the oldest event that the peer has not applied. -/
def pairLag (s : State) : Nat :=
  match s.pair.lagq with
  | [] => 0
  | e :: _ => fixSub (fixN s) e.2.toNat

/-- Step 4: the Rhumb status registers are latched (R452), and a boundary more has passed without a frame. -/
def pairLatchStep (s : State) : State :=
  let lag := pairLag s
  let l : RhLatch :=
    { st := s.pair.st, cause := s.pair.cause, roles := s.pair.roles, peerRoles := s.pair.peerRoles
      peerPower := s.pair.peerPower, txSeq := s.pair.txSeq, peerApplied := s.pair.peerApplied, lag := min 65535 lag
      lastRx := s.pair.lastRx, journal := s.pair.journal.length, epoch := max (epochOf s 1) (epochOf s 2) }
  let l := if s.pair.st == .solo then { rhLatchReset with roles := s.pair.roles } else l
  { s with pair.latch := l, pair.lagMax := max s.pair.lagMax lag, pair.quiet := s.pair.quiet + 1 }

/-- Step 7: the event budget (R358). -/
def pairRefill (s : State) : State := { s with pair.budget := min (s.pair.budget + 4096) 4096 }

/-- Replay is over once the journal is empty (R366). -/
def replayStep (s : State) : State :=
  if s.pair.replaying && s.pair.journal.isEmpty then { s with pair.replaying := false } else s

/-! ### Commands (Table 15.9) -/

/-- Log: DEDUCED, log entry 54. -/
def opPairStatusRead : Op := readOp 0x0B00 [0, 2, 3] 64 [] okArg anyTenant (fun p s =>
  let d := [byteN (pairCode s.pair.st), byteN s.pair.cause, byteN s.pair.roles.toNat, byteN s.pair.peerRoles.toNat,
      byteN s.pair.peerPower, 0, 0, 0] ++ leBytes 4 s.pair.txSeq ++ leBytes 4 s.pair.peerApplied
    ++ leBytes 4 (pairLag s) ++ leBytes 4 s.pair.lagMax ++ leBytes 4 (max (epochOf s 1) (epochOf s 2))
    ++ leBytes 4 ((s.pair.sweep.map (fun w => w.bucket)).getD 0) ++ beBytes 16 s.pair.peerUid.toNat
    ++ leBytes 4 s.pair.journal.length ++ zerosB 12
  (if authOf s p.src = 2 then s else { s with pair.lagMax := 0 }, outData 64 d))

def roleClaims (_ : State) (p : CmdPkt) : List Obj :=
  ([1, 2].filter (fun h => (par p 16 1).testBit (h - 1))).map roleObj

def opPairRole : Op :=
  { code := 0x0B01, rings := [0], dir := .none, used := [(16, 2)], isRead := false, isMulti := false, inert := false
    arg := fun _ p => argIf (decide (1 ≤ par p 16 1) && decide (par p 16 1 ≤ 3) && decide (par p 17 1 ≤ 3))
    tenant := anyTenant, claims := roleClaims, touch := touchOf roleClaims
    body := fun p _ s =>
      if s.pair.st == .solo then (s, .done (outErr stDENIED))
      else
        let s := roleApply (par p 16 1) (par p 17 1) s
        (s, .done (outOk s.pair.roles.toNat)) }

def opPairStatsRead : Op := readOp 0x0B02 [0, 2, 3] 128 [] okArg anyTenant (fun _ s =>
  (s, outData 128 (s.pair.cnt.map (fun c => leBytes 8 c.toNat)).flatten))

def opPairResync : Op :=
  { code := 0x0B03, rings := [0], dir := .none, used := [], isRead := false, isMulti := false, inert := false
    arg := okArg, tenant := anyTenant, claims := noClaims, touch := noTouch
    body := fun _ _ s =>
      if s.pair.st == .solo then (s, .done (outErr stDENIED))
      else if s.pair.st != .paired then (s, .done (outErr stBUSY))
      else (enterPair .resync s, .done (outOk 0)) }

/-- PAIR_HEAD_READ. The spec gives 64 entries of 96 bytes, newest first, and no layout: the model copies the BILL_HEAD event as it came
over the link, in network order, padded to 96 bytes. Rings 0 and 2 issue it, as Table 15.9 gives; ring 3, which R77 would let issue what
ring 2 may, is not in the table. (Log: DESIGN CHOICE, log entry 89; DEDUCED, log entry 90.) -/
def opPairHeadRead : Op := readOp 0x0B04 [0, 2] 6144 [] okArg anyTenant (fun _ s =>
  (s, outData s.pair.heads.length (padTo 6144 ((s.pair.heads.map (padTo 96)).flatten))))

/-! ### The chain head goes to the peer (R338, R356) -/

/-- BILLING_HASH_DONE: the head of the oldest block without one; the trailer may follow, and the peer is sent the head. -/
def doBillingHashDone (s : State) : State :=
  match nextHash s with
  | none => s
  | some (m, head) =>
    let s := setHead m head s
    match stagedBlock s m with
    | some b =>
      if mirroring s then
        queueEvent 6 0 (beBytes 8 m ++ beBytes 4 (leAt b.header 16 4) ++ beBytes 4 b.records ++ padTo 64 head) s
      else s
    | none => s

/-! ### Commit checks (R367) -/

/-- A QR field of the pair is idle in DOWN, MISMATCH and LOST. -/
def pairIdle (s : State) : Bool := s.pair.st == .down || s.pair.st == .mismatch || s.pair.st == .lost

end Sys2Proof.Machine
end

