-- ==== Sys2Proof/Machine/Power.lean ====
section
/-! DEFINITION. Power domains and sleep states (chapter 17): the manager's decision, entry and exit, failures, and the
group 0x0Dxx commands. -/

namespace Sys2Proof.Machine

open Sys2Proof

/-! ### States and domains (Tables 17.1 and 17.2) -/

def exitFix (st : PwrState) : Nat :=
  match st with
  | .flight => 0
  | .basking => 1
  | .roost => 40
  | .cocoon => 1954

/-- SerDes domain 56 + k stays on in Cocoon (R400). -/
def keptSerdes (s : State) (k : Nat) : Bool :=
  fv s 18 5 0 k 1 == 1 || (List.range 32).any (fun i =>
    let p := 32 * k + i
    isPort s p && (portOf s p).st == .up && fv s 11 7 p 0 1 == 1)

/-- The domains that a state switches off. -/
def sleepOff (s : State) (st : PwrState) : List Nat :=
  if st = .roost then List.range 44
  else if st = .cocoon then
    List.range 50 ++ ((List.range 4).filter (fun k => !keptSerdes s k)).map (fun k => 56 + k) ++ [62, 63]
  else []

/-- The domains that an order for a state, by its code, powers down or powers up: the entities that it addresses (R42). -/
def orderDomains (s : State) (n : Nat) : List Nat :=
  if isSleep (pwrOfCode n) then sleepOff s (pwrOfCode n)
  else if isSleep s.pwr.st then sleepOff s s.pwr.st else []

/-- The sleep state in force gates a domain. -/
def sleepGates (s : State) (d : Nat) : Bool := isSleep s.pwr.st && (sleepOff s s.pwr.st).contains d

def domMask (ds : List Nat) : U64 := ds.foldl (fun m d => m ||| ((1 : U64) <<< d)) 0

/-- DOMAIN_HOLD_OFF in force (Table 17.5). -/
def holdOff (s : State) : U64 := BitVec.ofNat 64 (objVal s (oid 18 2 0))

/-- Domains that a command of an opcode needs: those of its owning subsystem (R403). (Log: DEDUCED, log entry 60.) -/
def cmdDomains (code : Nat) : List Nat :=
  let g := code / 256
  if g = 1 then [56, 57, 58, 59]
  else if g = 3 then List.range 8
  else if g = 4 then [8, 9, 10, 11]
  else if g = 5 then (List.range 32).map (fun c => 12 + c)
  else if g = 6 then [44, 45, 46, 47]
  else if g = 7 then [48]
  else if g = 8 then [49]
  else if g = 0x0A then [62]
  else if g = 0x0F then [63]
  else []

/-- A command waits for an exit: the sleep state gates a domain that it needs (R403), or the journal is replayed. -/
def needsExit (s : State) (code : Nat) : Bool :=
  let ds := cmdDomains code
  (isSleep s.pwr.st && ds.any (fun d => (sleepOff s s.pwr.st).contains d))
    || (s.pair.replaying && !ds.isEmpty)

/-! ### A domain loses power without a drain (R407, R409, R215) -/

/-- Engines of a cluster: those that run a routine are lost, and none takes a dispatch. -/
def clusterOff (c : Nat) (s : State) : State :=
  (clusterEngines c).foldl (fun s id =>
    let e := engOf s id
    if inRoutine e then loseEngine id .power s
    else if e.out.isNone then modEng id (fun e => { e with out := some .power }) s else s) s

/-- A slice's on-die state but the chart (Table 17.1); the records in HBM stand. (Log: DEDUCED, log entry 60.) -/
def sliceOff (sl : Nat) (s : State) : State :=
  let s := { s with flow.cache := s.flow.cache.filter (fun e => e.2.slice != sl)
                    flow.guards := s.flow.guards.filter (fun g => g.slice != sl) }
  modSlice sl (fun k => { k with fifo := [[], [], [], []], stash := List.replicate 8 none, locks := [], waits := [], move := none, cleanList := [] }) s

/-- The ports of a SerDes domain leave UP for their first enabled step (R400). -/
def serdesOff (k : Nat) (s : State) : State :=
  (List.range 32).foldl (fun s i =>
    let p := 32 * k + i
    if isPort s p && ((portOf s p).st == .up || (portOf s p).st == .downPend) then
      leaveUp p (truncateRx p (loseTx p s))
    else if isPort s p && (portOf s p).st != .disabled then portRestart p s
    else s) s

/-- The domain is without power and without clock. -/
def powerCut (d : Nat) (s : State) : State :=
  { s with pwr.on := s.pwr.on &&& ~~~domMask [d], pwr.gated := s.pwr.gated &&& ~~~domMask [d] }

/-- What the ports of a SerDes domain have on the wire as it loses power is lost; they leave UP at the next boundary (R96, R97). -/
def serdesCut (k : Nat) (s : State) : State :=
  (List.range 32).foldl (fun s i => truncateRx (32 * k + i) (loseTx (32 * k + i) s)) s

/-- A packet is lost with the part of the device that holds it: its copies leave their queues and the wire. -/
def pktLost (h : Nat) (s : State) : State :=
  let s := (s.sw.tx.filter (fun e => e.2.copy.pkt == h)).foldl (fun s e => loseTx e.1 s) s
  let s := (waitingCopies s h).foldl (fun s e =>
    releaseCopy e.2 (modQueue e.1 (fun k => { k with copies := remCopy e.2 k.copies }) s)) s
  match pktOf s h with
  | some k => if s.sw.tx.any (fun e => e.2.copy.pkt == h) then s else freePkt h k s
  | none => s

/-- Packets of a pipeline, by a test. -/
def pktsOfPipe (s : State) (pipe : Nat) (f : Pkt → Bool) : List Nat :=
  (s.sw.pkts.filter (fun e => pipeOf e.2.port == pipe && f e.2)).map (fun e => e.1)

/-- A pipeline loses power: the packets in it are lost, and what waits at its ports (R397). -/
def pipeOff (pipe : Nat) (s : State) : State :=
  let s := (pktsOfPipe s pipe (fun k => k.part != .queues)).foldl (fun s h => pktLost h s) s
  modPipe pipe (fun k => { k with recirc := [], reentry := [], hold6 := none }) s

/-- A quarter of the switch core loses power: its cells, its queue links and its on-die Logline ring are lost (R397). -/
def quarterOff (pipe : Nat) (s : State) : State :=
  let s := (pktsOfPipe s pipe (fun _ => true)).foldl (fun s h => pktLost h s) s
  modPipe pipe (fun k => { k with replicator := [], recirc := [], reentry := [], hold6 := none, log := [], gap := k.gap || !k.log.isEmpty }) s


/-- Domain 63 loses power: its samples are lost, and the Monarch records, which are counted; the next record of their pipelines carries
GAP (R397, R442, R445). -/
def watchOff (s : State) : State :=
  let inFifo := fun (p : Nat) => s.perf.fifo.any (fun e => leAt e 3 1 / 64 == p)
  { s with sw.soundFifo := []
           perf.store := s.perf.store.map (fun _ => []), perf.fifo := []
           perf.monLost := inc64 s.perf.monLost (s.perf.fifo.length + (s.perf.store.map (fun x => x.length)).sum)
           perf.gap := (List.range 4).map (fun p => s.perf.gap.getD p false || inFifo p || !(s.perf.store.getD p []).isEmpty) }

/-- A domain loses power without a drain: its ON bit falls in the cycle of the loss (R407, R451). (Log: DEDUCED, log entry 60.) -/
def domainLose (d : Nat) (s : State) : State :=
  let s := powerCut d s
  let s := { s with pwr.latch := { s.pwr.latch with on := s.pwr.latch.on &&& ~~~domMask [d] } }
  if d < 4 then pipeOff d s
  else if 44 ≤ d && d < 48 then quarterOff (d - 44) s
  else if d = 63 then watchOff s
  else if 8 ≤ d && d < 12 then sliceOff (d - 8) s
  else if 12 ≤ d && d < 44 then clusterOff (d - 12) s
  else if 56 ≤ d && d < 60 then serdesCut (d - 56) s
  else s

/-- An order powers a domain down at its boundary. The engines of a cluster are lost there, and its domain is gated once the undo
of each of them is done (R215); the ports of a SerDes domain leave UP there (R400). -/
def domainDown (d : Nat) (s : State) : State :=
  if 12 ≤ d && d < 44 then
    let s := clusterOff (d - 12) s
    if (clusterEngines (d - 12)).any (fun id => (engOf s id).lossDue) then { s with pwr.gating := s.pwr.gating ++ [d] }
    else powerCut d s
  else if 56 ≤ d && d < 60 then serdesOff (d - 56) (powerCut d s)
  else domainLose d s

/-- Clusters whose lost engines have been undone at this boundary are gated (R215). -/
def gateStep (s : State) : State :=
  s.pwr.gating.foldl (fun s d => powerCut d s) { s with pwr.gating := [] }

/-- The engines of a cluster whose domain is powered again take dispatches (R216). -/
def clusterOn (c : Nat) (s : State) : State :=
  (clusterEngines c).foldl (fun s id =>
    let e := engOf s id
    if e.out = some .power && !e.lossDue then hbmUnmask id (modEng id (fun _ => engineReset) s) else s) s

def domainGain (d : Nat) (s : State) : State :=
  let s := { s with pwr.on := s.pwr.on ||| domMask [d], pwr.gating := s.pwr.gating.filter (fun x => x != d) }
  if 12 ≤ d && d < 44 then clusterOn (d - 12) s else s

/-- Domains that are on in an awake state: all but those held off or failed. -/
def awakeOn (s : State) : U64 := ~~~(holdOff s ||| s.pwr.failed)

/-- Every domain of a mask that is off is switched on. -/
def gainAll (m : U64) (s : State) : State :=
  ((List.range 64).filter (fun d => m.getLsbD d && !s.pwr.on.getLsbD d)).foldl (fun s d => domainGain d s) s

/-- DOMAIN_POWER_FAIL (R409). -/
def doDomainPowerFail (d : Fin 64) (s : State) : State :=
  let s := raiseFault fkDOMAIN_FAIL d.val { s with pwr.failed := s.pwr.failed ||| domMask [d.val] }
  domainLose d.val s

/-- DOMAIN_HOLD_OFF changes by a commit: the power orders that result are inputs of rank 1 at the next boundary (Table 2.1). -/
def applyPowerObj (o : Obj) (old new : Nat) (s : State) : State :=
  if o ≠ oid 18 2 0 then s
  else
    let order := fun (r : ResetOrder) => ({ rank := 1, sub := 0, due := s.clock.fix + 1, body := .order r } : Input)
    let down := (List.range 64).filter (fun d => new.testBit d && !old.testBit d)
    let up := (List.range 64).filter (fun d => old.testBit d && !new.testBit d)
    { s with ctl.queue := s.ctl.queue ++ up.map (fun d => order (.domainOn d)) ++ down.map (fun d => order (.domainOff d)) }

/-- An order for one domain at its boundary: a domain that has failed, or that the sleep state gates, stays off (R398, R409). -/
def domainOrder (d : Nat) (up : Bool) (s : State) : State :=
  if !up then domainDown d s
  else if s.pwr.failed.getLsbD d || sleepGates s d then s else domainGain d s

/-- A failed domain is switched on again once the Class 2 state of source 0x13 has ended (R409). -/
def domainRecover (s : State) : State :=
  if s.pwr.failed = 0 || asleep s || (srcState s 0x13 2).st != .none || !quietSource s 0x13 then s
  else
    let m := s.pwr.failed
    let s := { s with pwr.failed := 0 }
    gainAll (m &&& ~~~holdOff s) s

/-- CLOCK_GATE and CLOCK_UNGATE in Basking (R398). -/
def doClockGate (d : Fin 64) (s : State) : State :=
  if s.pwr.st = .basking && s.pwr.on.getLsbD d.val then { s with pwr.gated := s.pwr.gated ||| domMask [d.val] } else s

def doClockUngate (d : Fin 64) (s : State) : State := { s with pwr.gated := s.pwr.gated &&& ~~~domMask [d.val] }

/-! ### Entry (R405) -/

/-- A power order takes effect at its boundary: awake states at once, a sleep state as an entry, and from a sleep state
an exit; an exit abandons an entry in progress (R404). -/
def powerOrder (target : Nat) (s : State) : State :=
  let t := pwrOfCode target
  let b := s.clock.boundaries
  if isSleep t then
    (if s.pwr.st = t then s
     else
      let s := if t = .roost then { s with pwr.roosts := s.pwr.roosts + 1 } else { s with pwr.cocoons := s.pwr.cocoons + 1 }
      let off := sleepOff s t
      let s := { s with pwr.st := t, pwr.transit := some { entry := true, state := t, since := b }, pwr.gated := 0 }
      if t = .cocoon then
        ((List.range 4).filter (fun k => off.contains (56 + k))).foldl (fun s k => serdesOff k s) s
      else s)
  else if isSleep s.pwr.st then
    (if s.pwr.transit.any (fun x => !x.entry) then s
     else { s with pwr.transit := some { entry := false, state := s.pwr.st, since := b, early := s.pwr.transit.isSome } })
  else { s with pwr.st := t, pwr.gated := if t = .basking then s.pwr.gated else 0 }

/-- Every dirty cache record is written back, and the cache is left empty (R176, R406). -/
def cacheFlush (s : State) : State :=
  let s := (s.flow.cache.map (fun e => e.1)).foldl (fun s h => writeBack h s) s
  { s with flow.cache := [] }

/-- A stash record goes to its chosen bucket if it fits; else the retention copy holds it (R176). -/
def stashFlush (s : State) : State :=
  [0, 1, 2, 3].foldl (fun s sl => (stashRecs s sl).foldl (fun s x =>
    let key := recKey x.2
    let h2 := bucketPlace s (chosenBucket s key) (recLong x.2)
    if (sliceOf s sl).move.isSome || (sliceOf s sl).tombs.any (fun t => t.handle == x.1)
        || (exiledKey s key && !exqRoom s sl) then s
    else match h2 with
      | none => s
      | some h =>
        let s := placeRec h x.2 s
        { modSlice sl (fun k => { k with stash := setAt k.stash (hEntry x.1) none }) s with
          pair.refresh := s.pair.refresh.map (fun r => if r = x.1 then h else r) }) s) s

/-- What the switch core holds is lost in Cocoon (Table 17.1): packets, queue links, the on-die Logline rings; and the
entries and samples of domain 63. -/
def bufferLose (s : State) : State :=
  let s := watchOff (s.sw.pkts.foldl (fun s e => e.2.bufs.foldl (fun s r => poolRelease r s) s) s)
  let queues := s.sw.queues.map (fun (x : Nat × QueueState) => (x.1, { x.2 with copies := [], g := 0, sh := 0, hd := 0 }))
  let pipes := s.sw.pipes.map (fun k => { k with
    staging := 0, allowance := 0, recirc := [], reentry := [], hold6 := none, replicator := [], log := [], gap := k.gap || !k.log.isEmpty })
  { s with sw.pkts := [], sw.rx := [], sw.rxSkip := [], sw.rxRest := [], sw.tx := [], sw.prio := [], sw.queues := queues, sw.pipes := pipes
           sw.shared := 0, sw.flush := [], sw.epochCount := List.replicate 8 0, cls.genCount := [0, 0]
           flow.slices := s.flow.slices.map (fun k => { k with fifo := [[], [], [], []] }) }

/-- Every pseudo-channel that is not dead goes to self-refresh. -/
def allSelfRefresh (s : State) : State :=
  (List.range 192).foldl (fun s p =>
    modPc p (fun c => if c.mode = .dead then c else { c with mode := .selfRefresh, banks := [] }) s) s

/-- What a slice's domain loses when it is gated after its drain: all but the chart and the stash (Table 17.1). -/
def sliceGated (sl : Nat) (s : State) : State :=
  let s := { s with flow.guards := s.flow.guards.filter (fun g => g.slice != sl) }
  modSlice sl (fun k => { k with locks := [], waits := [], move := none, cleanList := [] }) s

/-- POWER_ENTRY_DONE: the drain and the gating of the domains are complete. (Log: DEDUCED, log entry 60.) -/
def doPowerEntryDone (s : State) : State :=
  match s.pwr.transit with
  | none => s
  | some t =>
    if !t.entry then s
    else
      let off := sleepOff s t.state
      let s := [0, 1, 2, 3].foldl (fun s sl => sliceGated sl s) (stashFlush (cacheFlush s))
      let s := if t.state = .cocoon then allSelfRefresh (bufferLose s) else s
      { s with pwr.on := s.pwr.on &&& ~~~domMask off, pwr.transit := none }

/-! ### Exit (R406) -/

/-- A pseudo-channel leaves self-refresh and is quick-retrained; one that fails the pass is fully retrained (R406). -/
def quickRetrain (fails : Bool) (p : Nat) (s : State) : State :=
  if (pcOf s p).mode ≠ .selfRefresh then s
  else if fails then startRetrain p s
  else modPc p (fun c => { c with mode := .ready }) s

/-- Whether each pass holds is the stacks' own: a free value. (Log: DESIGN CHOICE, log entry 92.) -/
def quickRetrainAll (s : State) : State :=
  advanceDraws 192 ((List.range 192).foldl (fun t p =>
    quickRetrain ((Config.freeValue 29 (s.draws + p)).getLsbD 0) p t) s)

/-- The exit time has passed: the device is in Flight from the boundary x + EXIT_FIX, and within that time where the exit abandoned
an entry (R398, R404, R406). -/
def exitOver (s : State) (t : Transit) : Bool :=
  t.early || decide (t.since + exitFix t.state ≤ s.clock.boundaries)

/-- POWER_EXIT_DONE: the domains are restored and the device is in Flight; a journal is replayed first (R366). -/
def doPowerExitDone (s : State) : State :=
  match s.pwr.transit with
  | none => s
  | some t =>
    if t.entry || !exitOver s t then s
    else
      let s := if t.state = .cocoon then quickRetrainAll s else s
      let s := gainAll (awakeOn s) s
      { s with pwr.st := .flight, pwr.transit := none, pair.replaying := !s.pair.journal.isEmpty }

/-- SR_IDLE_ENTER: in Cocoon an idle pseudo-channel returns to self-refresh (R408). -/
def doSrIdleEnter (pc : Fin 192) (s : State) : State :=
  let c := pcOf s pc.val
  if s.pwr.st = .cocoon ∧ (c.mode = .ready ∨ c.mode = .powerDown) ∧ pcIdle c = true then
    modPc pc.val (fun c => { c with mode := .selfRefresh, banks := [] }) s
  else s

/-! ### The junction sensor (R410) -/

def thermStep (t : BitVec 8) (s : State) : State :=
  let hot := decide ((fv s 18 8 0 0 8 : Int) ≤ t.toInt)
  let age := (s.pwr.warnAge.map (fun n => n + 1)).filter (fun n => decide (n < 977))
  let top := if s.pwr.tjMax.toInt < t.toInt then t else s.pwr.tjMax
  let s := { s with pwr.tj := t, pwr.tjMax := top, pwr.warnAge := age }
  let s := if hot && age.isNone then raiseFault fkTHERM_WARN t.toNat { s with pwr.warnAge := some 0 } else s
  if 110 ≤ t.toInt && !s.lod.grave then
    let s := raiseFault fkTHERM_TRIP t.toNat s
    let ds := (List.range 60 ++ [62, 63]).filter (fun d => s.pwr.on.getLsbD d)
    setGrave (allSelfRefresh (ds.foldl (fun s d => domainLose d s) s))
  else s

/-! ### The manager's decision (R401 to R403) -/

/-- Boundaries to a TIME_NS instant's boundary from the present one; an instant that is past counts 0. -/
def distNs (s : State) (t : Nat) : Nat :=
  let d := fixSub (t / 1024) (fixN s)
  if d < 2 ^ 21 then d else 0

/-- The journal has reached three quarters of its size. -/
def journalHigh (s : State) : Bool := decide (3 * 2 ^ 29 ≤ journalBytes s)

/-- The known events of Table 17.3 that limit a state, as distance and row. -/
def knownEvents (s : State) (ptp : List U32) (st : PwrState) : List (Nat × Nat) :=
  let slots := (s.mer.slots.filter (fun e => e.2.armed)).map (fun e => (distNs s e.2.target.toNat, 1))
  let minute := if s.mer.windowAt.isSome || (slotOf s 0).armed || (slotOf s 1).armed then
      [(fixesTo s s.mer.nextMinuteTai, 2)] else []
  let ptps := ptp.map (fun t => (distNs s (ns32 t.toNat (fv s 18 6 0 0 20)), 3))
  let cmds := s.ctl.sched.map (fun c => (fixSub c.target.toNat (fixN s), 4))
  let beat := if isSleep st && s.pair.st != .solo && s.pair.roles ≠ 0 then [(8 - fixN s % 8, 5)] else []
  let jour := if isSleep st && s.pwr.st == st && journalHigh s then [(1, 6)] else []
  slots ++ minute ++ ptps ++ cmds ++ beat ++ jour

/-- D and its row for a state (R401). -/
def distanceFor (s : State) (ptp : List U32) (st : PwrState) : Nat × Nat :=
  (knownEvents s ptp st).foldl (fun b e => if e.1 < b.1 then e else b) (0xFFFFFFFF, 0)

/-- The entry conditions of R402. Commands that wait for an exit are served first. -/
def sleepOk (s : State) : Bool :=
  decide (fv s 18 1 0 16 16 ≤ s.pwr.rxAge) && !(s.skip.engines.any (fun e => inRoutine e.2)) && s.skip.commits.isEmpty
    && s.flow.holds.isEmpty && s.ctl.multi.isEmpty && s.cls.swap.isNone && s.sw.flush.isEmpty && !s.lod.grave
    && !(s.lod.states.any (fun e => e.1 % 4 == 1 && e.2.st != .none)) && s.met.closing.isNone
    && s.met.staged.all (fun b => b.head.isSome && b.ckpt) && (!s.boot.pairPresent || s.pair.st == .paired) && s.ctl.ready
    && s.pwr.held.isEmpty

/-- The state that the manager selects while awake: the deepest that every condition admits. -/
def selectState (s : State) (ptp : List U32) : PwrState :=
  let margin := fv s 18 1 0 8 8
  let top := fv s 18 1 0 0 2
  let ok := fun (st : PwrState) =>
    decide (pwrCode st ≤ top) && decide (exitFix st + margin < (distanceFor s ptp st).1) && (!isSleep st || sleepOk s)
  if ok .cocoon then .cocoon else if ok .roost then .roost else if ok .basking then .basking else .flight

/-- A unit that the reaction to a message names lies in a domain that the sleep state gates (R403): a port in the scope of a
Class 1 message, the port, engine or cluster that a Class 2 message names. -/
def reactionWakes (s : State) (m : FaultMsg) : Bool :=
  let a := m.addr.toNat
  let src := m.source.toNat
  if m.cls.val = 1 then (m.ports ++ scopePorts s m).any (fun p => sleepGates s (56 + p / 32))
  else m.cls.val == 2 && (if src = 0x01 then sleepGates s (56 + a % 128 / 32)
    else if src = 0x07 then sleepGates s (12 + a % 512 / 16)
    else src == 0x08 && sleepGates s (12 + (if m.kind.toNat = 2 ∨ m.kind.toNat = 4 then a / 2 ^ 16 % 32 else a % 512 / 16)))

/-- The manager asks for an exit at step 10 (R401, R403): a limiting instant nears, or MAX_STATE forbids the state. (Log: DEDUCED, log entry 60.) -/
def exitWanted (s : State) (ptp : List U32) : Bool :=
  let st := s.pwr.st
  decide ((distanceFor s ptp st).1 ≤ exitFix st + fv s 18 1 0 8 8 + 1)
    || decide (fv s 18 1 0 0 2 < pwrCode st)

/-- The order that the manager presents in the sample of the next boundary, if any. (Log: DEDUCED, log entry 60.) -/
def managerOrder (s : State) (ptp : List U32) : Option Nat :=
  if exitQueued s then none
  else if isSleep s.pwr.st then
    (match s.pwr.transit with
     | some t => if t.entry && exitWanted s ptp then some 0 else none
     | none =>
       if exitWanted s ptp then some 0
       else if s.pwr.st == .roost && selectState s ptp == .cocoon then some 3 else none)
  else
    let st := selectState s ptp
    if st = s.pwr.st then none else some (pwrCode st)

/-- Step 10 (R401, R451): D, the decision, and the latched power registers. (Log: DEDUCED, log entry 60.) -/
def powerStep (ptp : List U32) (s : State) : State :=
  let order := managerOrder s ptp
  let cand := match order with
    | some n => pwrOfCode n
    | none => s.pwr.st
  let (d, row) := distanceFor s ptp cand
  let s := { s with pwr.dist := min d 0xFFFFFFFF, pwr.next := row, pwr.rxAge := min 65536 (s.pwr.rxAge + 1) }
  let s : State := match order with
    | some n => { s with ctl.queue := s.ctl.queue ++ [powerInput n s] }
    | none => s
  let lt : PowerLatch :=
    { state := s.pwr.st, transit := s.pwr.transit.isSome, next := s.pwr.next, dist := s.pwr.dist, on := s.pwr.on,
      gated := s.pwr.gated, failed := s.pwr.failed }
  { s with pwr.latch := lt }

/-! ### Commands and commit checks (R411, R412) -/

def opPowerStatusRead : Op := readOp 0x0D00 [0, 2, 3] 64 [] okArg anyTenant (fun _ s =>
  (s, outData 64 ([byteN (pwrCode s.pwr.st + 128 * b2n s.pwr.transit.isSome), byteN s.pwr.next, 0, 0]
    ++ leBytes 4 s.pwr.dist ++ leBytes 8 s.pwr.on.toNat ++ leBytes 8 s.pwr.gated.toNat ++ leBytes 8 s.pwr.roosts.toNat
    ++ leBytes 8 s.pwr.cocoons.toNat ++ [byteN s.pwr.tj.toNat] ++ zerosB 23)))

/-- The objects that POWER_POLICY writes with their values. -/
def policyWrites (s : State) (p : CmdPkt) : List (Obj × Nat) :=
  let v1 := setBits (setBits (setBits (objVal s (oid 18 1 0)) 0 2 (par p 16 1)) 8 8 (par p 17 1)) 16 16 (par p 20 2)
  [(oid 18 1 0, v1), (oid 18 3 0, par p 32 8), (oid 18 4 0, par p 40 8), (oid 18 5 0, par p 18 1)]

def policyClaims (_ : State) (_ : CmdPkt) : List Obj := [oid 18 1 0, oid 18 3 0, oid 18 4 0, oid 18 5 0]

def policyDenied (s : State) (p : CmdPkt) : Bool := decide (2 ≤ par p 16 1) && s.boot.pairPresent && s.pair.roles == 3

def opPowerPolicy : Op :=
  { code := 0x0D01, rings := [0], dir := .none, used := [(16, 3), (20, 2), (32, 16)], isRead := false, isMulti := false
    inert := false
    arg := fun _ p => argIf (decide (par p 16 1 ≤ 3) && decide (1 ≤ par p 17 1) && decide (par p 18 1 ≤ 15)
      && decide (1 ≤ par p 20 2))
    tenant := anyTenant, claims := policyClaims, touch := touchOf policyClaims
    body := fun p _ s =>
      if policyDenied s p then (s, .done (outErr stDENIED))
      else ((policyWrites s p).foldl (fun s w => objWrite w.1 w.2 s) s, .done (outOk (par p 16 1))) }

/-- DOMAIN_HOLD_OFF names only domains that may be held off (Table 17.5). -/
def powerCfgOk (s : State) : Bool :=
  let v := objVal s (oid 18 2 0)
  (List.range 64).all (fun d => !v.testBit d || (decide (4 ≤ d) && decide (d < 8)) || (decide (12 ≤ d) && decide (d < 44))
    || (decide (56 ≤ d) && decide (d < 60) && (List.range 32).all (fun i => fv s 1 2 (32 * (d - 56) + i) 0 1 == 0)))

end Sys2Proof.Machine
end

