-- ==== Sys2Proof/Machine/Boot.lean ====
section
/-! DEFINITION. Chip reset, start-up, images and identity (chapter 18), power-on and the reset pins (chapter 21). -/

namespace Sys2Proof.Machine

open Sys2Proof

/-! ### Chip reset (R415, R396) -/

/-- A source's state after a chip reset: no state lasts; the recovery counter and the history are kept. -/
def keepHistory (k : SrcState) : SrcState := { srcStateReset with recoveries := k.recoveries, history := k.history }

/-- An in-band key after a chip reset: only its high-water mark is kept, in the Logbook (R84). (Log: DEDUCED, log entry 67.) -/
def keepMark (e : Nat × IbKey) : Nat × IbKey :=
  (e.1, { authority := 0, key := [], tenants := [], seqHigh := e.2.seqHigh })

/-- Log: DEDUCED, log entry 59. -/
def lodAfterReset (s : State) : Lodestar :=
  { lodestarReset with
    grave := s.lod.grave
    factory := s.lod.factory
    factoryEntries := s.lod.factoryEntries
    book := s.lod.book
    ftest := s.boot.ftest
    states := (s.lod.states.map (fun e => (e.1, keepHistory e.2))).filter (fun e => e.2 != srcStateReset) }

/-- What a reset keeps of the boot state: the straps as the pins hold them, OTP, the count, pins and clocks. -/
def bootAfterReset (cause src : Nat) (s : State) : Boot :=
  { bootReset with
    bootSrc := s.boot.bootSrc
    ftest := s.boot.ftest
    pairPresent := s.boot.pairPresent
    cause := cause
    faultSource := src
    resetCount := min 65535 (s.boot.resetCount + 1)
    fresh := s.boot.fresh
    aonUp := s.boot.aonUp
    sysRst := s.boot.sysRst
    refclk := s.boot.refclk
    fuses := s.boot.fuses
    revoke := s.boot.revoke
    jtag := s.boot.jtag
    jtagPins := s.boot.jtagPins
    bsr := s.boot.bsr
    idcode := s.boot.idcode }

/-- The Rhumb status registers after a reset: DOWN with PAIR_PRESENT, CLAIM_EPOCH from the Logbook (Table 20.6). -/
def rhAfterReset (present : Bool) (epochs : List Nat) : RhLatch :=
  if present then { rhLatchReset with st := .down, roles := 0, epoch := max (epochs.getD 0 0) (epochs.getD 1 0) } else rhLatchReset

/-- The pair after a reset: DOWN and STANDBY where PAIR_PRESENT is high, else SOLO; epochs and heads lie in the Logbook
(R370). -/
def pairAfterReset (present : Bool) (s : State) : Pair :=
  { pairReset with
    st := if present then .down else .solo
    roles := if present then 0 else 3
    epoch := s.pair.epoch
    heads := s.pair.heads
    latch := rhAfterReset present s.pair.epoch }

/-- A chip reset: every block returns to its reset state. Kept are the latches and the recovery history of the
always-on domain, the Logbook, OTP, the board's pins, and what the model holds beside the device. (Log: DESIGN CHOICE, log entry 9; DEDUCED, log entry 61.) -/
def chipReset (cause src : Nat) (s : State) : State :=
  { State.reset with
    host := { hostIfReset with perst := s.host.perst }
    ctl := { controlReset with ibKeys := s.ctl.ibKeys.map keepMark }
    lod := lodAfterReset s
    met := { meteringReset with ckpts := s.met.ckpts }
    pair := pairAfterReset s.boot.pairPresent s
    boot := bootAfterReset cause src s
    out := s.out
    draws := s.draws
    small := s.small
    pending := s.pending }

/-! ### Supplies and reset pins (R457, R463) -/

/-- The always-on domain as at power-on: latches, recovery history and the reset count are cleared. -/
def aonClear (s : State) : State :=
  { s with
    lod.grave := false
    lod.factory := false
    lod.states := (s.lod.states.map (fun e => (e.1, { e.2 with history := [] }))).filter (fun e => e.2 != srcStateReset)
    boot.resetCount := 0
    boot.cause := 0
    boot.faultSource := 0
    boot.fresh := true }

/-- VDD_AON_LOSS: every block is reset, SYS_RST_N is low, and the always-on domain is cleared. (Log: DEDUCED, log entry 61.) -/
def doVddAonLoss (s : State) : State :=
  let s := chipReset 0 0 s
  aonClear { s with boot.aonUp := false, boot.sysRst := false }

/-- POWER_ON: VDD_AON comes up with SYS_RST_N low. (Log: DEDUCED, log entry 61.) -/
def doPowerOn (s : State) : State :=
  if s.boot.aonUp then s
  else
    let s := chipReset 0 0 s
    aonClear { s with boot.aonUp := true, boot.sysRst := false }

/-- SYS_RST_ASSERT: the device enters chip reset and stays in it. -/
def doSysRstAssert (s : State) : State :=
  if !s.boot.sysRst then s
  else
    let s := chipReset 1 0 s
    { s with boot.sysRst := false }

/-- SYS_RST_RELEASE: the straps are sampled and start-up begins (R414, R463). (Log: DEDUCED, log entry 61.) -/
def doSysRstRelease (bootSrc : BitVec 2) (ftest pairPresent : Bool) (s : State) : State :=
  if !s.boot.aonUp || s.boot.sysRst then s
  else
    { s with
      boot.sysRst := true
      boot.bootSrc := bootSrc
      boot.ftest := ftest
      boot.pairPresent := pairPresent
      boot.cause := if s.boot.fresh then 0 else 1
      boot.fresh := false
      lod.ftest := ftest
      pair.latch := rhAfterReset pairPresent s.pair.epoch
      pair.st := if pairPresent then .down else .solo
      pair.roles := if pairPresent then 0 else 3 }

/-! ### Images (Tables 18.2 to 18.4) -/

/-- "SUEVO-IM". -/
def ctxIM : Bytes := asciiB [83, 85, 69, 86, 79, 45, 73, 77]

def imgVersion (h : Bytes) : Nat := leAt h 8 4
def imgEpoch (h : Bytes) : Nat := leAt h 11 1
def imgSize (h : Bytes) : Nat := leAt h 12 4
def imgSigner (h : Bytes) : Nat := leAt h 6 1

/-- Section entry i: TYPE, OFFSET, LENGTH. -/
def secEntry (h : Bytes) (i : Nat) : Nat × Nat × Nat := (leAt h (96 + 16 * i) 1, leAt h (100 + 16 * i) 4, leAt h (104 + 16 * i) 4)

def secEntries (h : Bytes) : List (Nat × Nat × Nat) := (List.range (leAt h 7 1)).map (secEntry h)

/-- No two sections share a byte, and no TYPE appears twice. -/
def secDisjoint : List (Nat × Nat × Nat) → Bool
  | [] => true
  | (t, o, l) :: rest => rest.all (fun x =>
      x.1 != t && (decide (o + l ≤ x.2.1) || decide (x.2.1 + x.2.2 ≤ o) || l == 0 || x.2.2 == 0)) && secDisjoint rest

/-- Check 1: FORMAT. (Log: DEDUCED, log entry 64.) -/
def imgFormat (h : Bytes) : Bool :=
  let es := secEntries h
  let n := leAt h 7 1
  leAt h 0 4 == 0x53564331 && leAt h 4 2 == 1 && decide (imgSigner h ≤ 3) && decide (1 ≤ n) && decide (n ≤ 8)
    && decide (4096 ≤ imgSize h) && decide (imgSize h ≤ 8388608) && decide (imgEpoch h ≤ 64)
    && decide (leAt h 20 1 < 16) && isZeros (sliceB h 21 3) && isZeros (sliceB h 36 4)
    && isZeros (sliceB h 345 39) && isZeros (sliceB h 498 14)
    && isZeros (sliceB h (96 + 16 * n) (16 * (8 - n)))
    && (List.range n).all (fun i => isZeros (sliceB h (97 + 16 * i) 3) && isZeros (sliceB h (108 + 16 * i) 4))
    && es.all (fun e => decide (1 ≤ e.1) && decide (e.1 ≤ 4) && decide (e.2.1 + e.2.2 ≤ imgSize h - 512))
    && secDisjoint es

/-- Checks 1 to 6 of R423 on a header: the reason of the first that fails. -/
def headerFault (s : State) (h : Bytes) : Option Nat :=
  let k := imgSigner h
  let die := Config.dieRev.toNat
  if !imgFormat h then some 0x02
  else if shake256 (sliceB h 288 57) != Config.otpDigest k then some 0x03
  else if s.boot.revoke.getLsbD k then some 0x04
  else if !Config.ed448Verify (sliceB h 288 57) ctxIM (h.take 384) (sliceB h 384 114) then some 0x05
  else if imgEpoch h < s.boot.fuses then some 0x06
  else if die < leAt h 16 2 || leAt h 18 2 < die then some 0x07
  else none

/-- A section of the plaintext body by its TYPE. -/
def secOf (h body : Bytes) (t : Nat) : Option Bytes :=
  ((secEntries h).find? (fun e => e.1 == t)).map (fun e => sliceB body e.2.1 e.2.2)

def grainsOk (g : Bytes) : Bool :=
  g.length == 8 && (g.take 5).all (fun b => b == 8 || b == 10 || b == 12 || b == 14) && isZeros (g.drop 5)

/-- UC_FORMAT, BUNDLE_COUNT and BUNDLE_OFFSET are valid (Table 9.10): each bundle's header lies in the section. -/
def microcodeOk (m : Bytes) : Bool :=
  let n := leAt m 4 1
  leAt m 0 4 == 1 && decide (1 ≤ n) && decide (n ≤ 4) && (List.range 4).all (fun i =>
    let o := leAt m (40 + 4 * i) 4
    if i < n then o % 8 == 0 && decide (64 ≤ o) && decide (o + 256 ≤ m.length) else o == 0)

/-- Checks 7 to 9 on the ciphertext body: the image, or the reason. -/
def bodyCheck (src : Nat) (h body : Bytes) : Except Nat Image :=
  if shake256 body != sliceB h 224 64 then .error 0x08
  else
    match Config.imageOpen h body with
    | none => .error 0x09
    | some pt =>
      match secOf h pt 1, secOf h pt 2, secOf h pt 3 with
      | some fw, some uc, some g =>
        if decide (fw.length ≤ 4194304) && grainsOk g && microcodeOk uc then
          .ok { header := h, source := src, firmware := fw, microcode := uc, grains := g }
        else .error 0x0A
      | _, _, _ => .error 0x0A

/-- An image is rejected: reason, count, and IMAGE_REJECT. (Log: DEDUCED, log entry 62.) -/
def rejectImage (reason : Nat) (s : State) : State :=
  raiseFault fkIMAGE_REJECT reason { s with boot.reason := reason, boot.rejects := min 255 (s.boot.rejects + 1) }

/-! ### Start-up (R417 to R422) -/

def haltBoot (reason : Nat) (s : State) : State :=
  { s with boot.stage := 8, boot.reason := reason, boot.pushHalt := false, boot.cand := none, boot.nextSlot := none }

/-- The straps of a released device allow start-up events. -/
def starting (n : Nat) (s : State) : Bool := s.boot.sysRst && s.boot.stage == n

/-- Every flash source has been rejected: a push is next, or the device halts (R420). (Log: DEDUCED, log entry 62.) -/
def flashExhausted (s : State) : State :=
  let s := { s with boot.source := 3, boot.cand := none, boot.nextSlot := none }
  if s.boot.bootSrc = 2 then { s with boot.stage := 1 } else haltBoot 0x13 s

/-- A push is rejected (R422). (Log: DEDUCED, log entry 62.) -/
def pushRejected (reason : Nat) (s : State) : State :=
  let s := rejectImage reason { s with boot.cand := none }
  if s.boot.bootSrc = 2 then { s with boot.stage := 8, boot.pushHalt := true } else { s with boot.stage := 1 }

/-- BOOT_ROM_TEST_DONE: the failing OTP word if any, the key check, and the random source's failing test if any. (Log: DEDUCED, log entry 62.) -/
def doBootRomTestDone (otpBad : Option (BitVec 12)) (keyOk : Bool) (rngBad : Option (BitVec 4)) (s : State) : State :=
  if !starting 0 s then s
  else
    match otpBad with
    | some w => raiseFault fkOTP_ECC_UNCORR w.toNat (haltBoot 0x10 s)
    | none =>
      if !keyOk then raiseFault fkKEY_CHECK 0 (haltBoot 0x10 s)
      else
        match rngBad with
        | some t => raiseFault fkRNG_HEALTH t.toNat (haltBoot 0x11 s)
        | none =>
          if s.lod.grave then haltBoot 0x10 s
          else if s.boot.bootSrc = 3 then haltBoot 0x12 s
          else if s.boot.bootSrc = 1 then { s with boot.stage := 1 }
          else { s with boot.stage := 2 }

/-- A header as read: kept if it passes checks 1 to 6, else rejected. -/
def takeHeader (src : Nat) (h : Option Bytes) (s : State) : Option (Nat × Bytes) × State :=
  match h with
  | none => (none, rejectImage 0x01 s)
  | some h =>
    let h := padTo 512 h
    match headerFault s h with
    | some r => (none, rejectImage r s)
    | none => (some (src, h), s)

/-- IMAGE_HEADERS_READ: the headers of slots A and B, or of a push as the first. (Log: DEDUCED, log entry 62.) -/
def doImageHeadersRead (a b : Option Bytes) (s : State) : State :=
  if !starting 2 s || s.boot.cand.isSome then s
  else if s.boot.source = 2 then
    match a with
    | none => pushRejected 0x01 s
    | some h =>
      match headerFault s (padTo 512 h) with
      | some r => pushRejected r s
      | none => { s with boot.cand := some (2, padTo 512 h) }
  else
    let (ca, s) := takeHeader 0 a s
    let (cb, s) := takeHeader 1 b s
    match ca, cb with
    | none, none => flashExhausted s
    | some x, none => { s with boot.cand := some x, boot.source := 0 }
    | none, some y => { s with boot.cand := some y, boot.source := 1 }
    | some x, some y =>
      if imgVersion x.2 < imgVersion y.2 then { s with boot.cand := some y, boot.nextSlot := some x, boot.source := 1 }
      else { s with boot.cand := some x, boot.nextSlot := some y, boot.source := 0 }

/-- The image in hand is rejected: the other slot is tried, or the sources of its kind are exhausted. -/
def bodyRejected (src reason : Nat) (s : State) : State :=
  if src = 2 then pushRejected reason s
  else
    let s := rejectImage reason s
    match s.boot.nextSlot with
    | some y => { s with boot.cand := some y, boot.nextSlot := none, boot.source := y.1 }
    | none => flashExhausted s

/-- IMAGE_BODY_READ_DONE: the last body byte arrives, or the read has failed. -/
def doImageBodyReadDone (body : Option Bytes) (s : State) : State :=
  if !starting 2 s then s
  else
    match s.boot.cand with
    | none => s
    | some (src, h) =>
      match body with
      | none => bodyRejected src 0x01 s
      | some b =>
        match bodyCheck src h b with
        | .error r => bodyRejected src r s
        | .ok img =>
          { s with boot.cand := none, boot.nextSlot := none, boot.running := some img, boot.stage := 4
                   skip.ucRun := img.microcode }

/-- BINNACLE_STARTED: HBM start-up begins. -/
def doBinnacleStarted (s : State) : State := if starting 4 s then { s with boot.stage := 5 } else s

/-- STARTUP_HBM_DONE: every pseudo-channel is trained but for those that are dead; the flow-table region is zero, the seeds
are drawn, AGE_NOW is set, and microcode loading begins (R177, R186, R194). (Log: DEDUCED, log entry 63.) -/
def doStartupHbmDone (dead : List (Fin 192)) (s : State) : State :=
  if !starting 5 s then s
  else if !dead.isEmpty then
    let s := dead.foldl (fun s p => raiseFault fkHBM_PC_DEAD (eccAddr { pc := p.val, o := 0 })
      (modPc p.val (fun c => { c with mode := .dead }) s)) s
    haltBoot 0x10 s
  else
    let s := objWrite (oid 3 1 0) ((randomDraw s).toNat % 2 ^ 32) s
    let s := objWrite (oid 3 2 0) ((randomDraw (advanceDraws 1 s)).toNat % 2 ^ 32) s
    let s := { advanceDraws 2 s with
      hbm.mem := s.hbm.mem.filter (fun c => decide (2 ^ 40 ≤ c.1))
      flow.ageNow := BitVec.ofNat 32 (s.clock.tai / 2 ^ 20)
      pair.homeSince := [s.clock.tai / 2 ^ 20 % 2 ^ 32, s.clock.tai / 2 ^ 20 % 2 ^ 32]
      boot.stage := 6 }
    loadAll s

/-- STARTUP_UCODE_DONE: no self-test is left to run. -/
def doStartupUcodeDone (s : State) : State :=
  if starting 6 s && s.skip.clusters.all (fun e => e.2.testing.isEmpty) then { s with boot.ucDone := true } else s

/-- BINNACLE_READY: the sampler accepts inputs from the next boundary on; inputs presented before are not sampled (R59). (Log: DESIGN CHOICE, log entry 3; DEDUCED, log entry 63.) -/
def doBinnacleReady (s : State) : State :=
  if starting 6 s && s.boot.ucDone then { s with boot.stage := 7, ctl.ready := true, ctl.queue := [] } else s

/-- Binnacle's firmware restarts (R385): commands fetched and not yet presented, scheduled and held ones among them, complete BUSY. -/
def binnacleRestart (s : State) : State :=
  let isCmd := fun (i : Input) => match i.body with
    | .cmd _ _ _ => true
    | _ => false
  let s := (s.ctl.queue.filter isCmd).foldl (fun s i => match i.body with
    | .cmd code p bufs => complete code p (outErr stBUSY) s.clock.fix (freePayload bufs s)
    | _ => s) s
  let s := (s.pwr.held ++ s.ctl.sched).foldl (fun s c => complete c.code c.p (outErr stBUSY) s.clock.fix (freePayload c.bufs s)) s
  let s := [0, 1, 2, 3].foldl (fun s n =>
    let s := (ringOf s n).waiting.foldl (fun s f => complete f.code f.p (outErr stBUSY) s.clock.fix s) s
    modRing n (fun r => { r with waiting := [] }) s) s
  { s with ctl.queue := s.ctl.queue.filter (fun i => !isCmd i), ctl.sched := [], pwr.held := [], ctl.restarting := true }

def doBinnacleRestartDone (s : State) : State := { s with ctl.restarting := false }

/-- The three push registers are held from GO until STAGE leaves 3, and from stage 4 on (R448). -/
def pushLocked (s : State) : Bool :=
  (s.boot.stage == 2 && s.boot.source == 2) || s.boot.stage == 3 || (decide (4 ≤ s.boot.stage) && s.boot.stage ≠ 8)
    || (s.boot.stage == 8 && s.boot.running.isSome)

/-- BOOT_GO (R422, R448). -/
def doBootGo (s : State) : State :=
  if !s.boot.sysRst || !(s.boot.stage == 1 || (s.boot.stage == 8 && s.boot.pushHalt)) then s
  else
    let s := { s with boot.source := 2, boot.cand := none, boot.nextSlot := none, boot.pushHalt := false }
    let n := s.boot.bootLen.toNat
    if n < 4096 || 8388608 < n then pushRejected 0x02 s else { s with boot.stage := 2 }

/-! ### Commands (R428 to R432) -/

/-- "SUEVO-AT". -/
def ctxAT : Bytes := asciiB [83, 85, 69, 86, 79, 45, 65, 84]

def runHeader (s : State) : Bytes := match s.boot.running with
  | some g => g.header
  | none => zerosB 512

def orderNumber (s : State) : Nat := if s.small then 48 else 96

def foreignMask (s : State) : Nat :=
  (List.range 32).foldl (fun a c => if (clusterOf s c).foreign then a + 2 ^ c else a) 0

def attestReport (s : State) (nonce : Bytes) : Bytes :=
  let h := runHeader s
  let flags := b2n s.lod.factory + 2 * b2n (s.lod.factoryEntries != 0) + 4 * b2n s.lod.grave + 8 * b2n s.boot.pairPresent
    + 16 * b2n s.boot.ftest
  let uc := ((List.range 32).map (fun c => padTo 64 (clusterOf s c).digest)).flatten
  let fw := match s.boot.running with
    | some g => g.firmware
    | none => []
  let src := match s.boot.running with
    | some g => g.source
    | none => 3
  leBytes 4 1 ++ leBytes 4 (orderNumber s) ++ leBytes 2 Config.dieRev.toNat ++ [byteN src, byteN flags]
    ++ leBytes 4 (imgVersion h) ++ [byteN s.boot.fuses, byteN (imgSigner h), 0, 0] ++ leBytes 4 (fixN s)
    ++ leBytes 8 s.clock.tai ++ uniqueIdB ++ nonce ++ padTo 64 Config.romDigest ++ shake256 h ++ shake256 fw
    ++ shake256 uc ++ leBytes 4 (foreignMask s) ++ leBytes 4 s.lod.factoryEntries.toNat ++ zerosB 40

def attestBody (p : CmdPkt) (s : State) : State × CmdOut :=
  let r := attestReport s (leBytes 32 (par p 16 32))
  (s, outData 512 (r ++ padTo 114 (Config.signIdentity (ctxAT ++ uniqueIdB) r) ++ zerosB 14))

/-- ATTEST (R429). (Log: DEDUCED, log entry 51.) -/
def opAttest : Op :=
  { readOp 0x0E01 [0, 2, 3] 512 [(16, 32)] okArg anyTenant attestBody with
    isRead := false, isMulti := true, body := signStart 0x0E01 attestBody }

/-- Log: DEDUCED, log entry 64. -/
def imageEntry (h : Bytes) (src state reason : Nat) : Bytes :=
  leBytes 4 (imgVersion h) ++ leBytes 4 (imgSize h) ++ [byteN (imgSigner h), byteN src, byteN state, byteN reason]
    ++ leBytes 2 (leAt h 16 2) ++ leBytes 2 (leAt h 18 2) ++ zerosB 16 ++ shake256 h

def stagedHeader (s : State) : Bytes := memReadN s.boot.staging 0 512

def opImageInfo : Op := readOp 0x0E02 [0, 1, 2, 3] 256 [] okArg anyTenant (fun _ s =>
  let run := match s.boot.running with
    | some g => imageEntry g.header g.source 2 0
    | none => zerosB 96
  let st := if s.boot.stagedState = 0 then padTo 96 (zerosB 9 ++ [3])
    else imageEntry (stagedHeader s) 3 s.boot.stagedState s.boot.stagedReason
  (s, outData 256 (run ++ st ++ [byteN s.boot.fuses, byteN s.boot.revoke.toNat] ++ zerosB 62)))

/-- IMAGE_ACCEPT, IMAGE_FLASH or a UCODE_LOAD with SOURCE 1 is in progress (R431). -/
def imageBusy (s : State) : Bool :=
  s.ctl.multi.any (fun m => m.code == 0x0E04 || m.code == 0x0E05 || (m.code == 0x0510 && par m.p 20 1 == 1))

/-- Log: DEDUCED, log entry 64. -/
def opImageStage : Op :=
  actOp 0x0E03 [0] (.toDev 4096 1048576) [(16, 4)]
    (fun _ p => argIf (par p 16 4 % 4096 == 0 && p.paramLen.toNat % 4096 == 0
      && decide (par p 16 4 + p.paramLen.toNat ≤ 8388608))) noClaims (fun p s =>
    if imageBusy s then (s, outErr stBUSY)
    else
      ({ s with boot.staging := memWriteN s.boot.staging (par p 16 4) (payBytes p), boot.stagedState := 1
                boot.stagedReason := 0, boot.accepted := none }, outOk (par p 16 4 + p.paramLen.toNat)))

/-- The checks of R423 on the staged image. (Log: DEDUCED, log entry 64.) -/
def acceptStaged (s : State) : Except Nat Image :=
  let h := stagedHeader s
  match headerFault s h with
  | some r => .error r
  | none => bodyCheck 3 h (memReadN s.boot.staging 512 (imgSize h - 512))

def acceptUnit (m : Multi) (s : State) : State × MStep :=
  if m.pos = 0 then (s, .more { m with pos := 1 })
  else
    match acceptStaged s with
    | .error r =>
      (rejectImage r { s with boot.stagedState := 3, boot.stagedReason := r }, .fin (outErrAt stAUTH r))
    | .ok img =>
      ({ s with boot.stagedState := 2, boot.stagedReason := 0, boot.accepted := some img
                skip.ucNew := some img.microcode }, .fin (outOk 0))

def imgStart (s : State) (_ : CmdPkt) : Nat := if imageBusy s then stBUSY else 0

/-- IMAGE_ACCEPT: its one unit is the checks, at the step after its first boundary. -/
def opImageAccept : Op :=
  multiOp 0x0E04 [0] .none [] 65536 okArg anyTenant noClaims noTouch imgStart acceptUnit

/-- The slot that IMAGE_FLASH writes: the one not booted, or alternately from slot A after a push. -/
def flashSlot (s : State) : Nat :=
  match s.boot.running with
  | some g => if g.source = 0 then 1 else if g.source = 1 then 0 else (match s.boot.lastSlot with
    | some k => 1 - k
    | none => 0)
  | none => 0

/-- One 64 KiB sector is erased and written; after the last the slot is read back. Whether it differs is not the
device's to say: a free value. (Log: DESIGN CHOICE, log entry 65.) -/
def flashUnit (m : Multi) (s : State) : State × MStep :=
  let size := imgSize (stagedHeader s)
  let n := (size + 65535) / 65536
  let slot := m.aux.headD (flashSlot s)
  let s : State := if m.pos = 0 then { s with boot.lastSlot := some slot } else s
  let at0 := m.pos * 65536
  let order := (slot * 8388608 + at0, memReadN s.boot.staging at0 (min 65536 (size - at0)))
  let s := { s with out.flash := s.out.flash ++ [order] }
  let m := { m with pos := m.pos + 1, units := m.units + 1, aux := [slot], lastFix := s.clock.fix }
  if m.pos < n then (s, .more m)
  else if (openDraw 22 s).getLsbD 0 then (advanceDraws 1 s, .fin (outErrAt stFAULTED m.units))
  else (advanceDraws 1 s, .fin (outOk m.units))

/-- Log: DEDUCED, log entry 27. -/
def opImageFlash : Op :=
  multiOp 0x0E05 [0] .none [] 1048576
    (fun s _ => if s.boot.bootSrc = 1 then stBADARG else 0) anyTenant noClaims noTouch
    (fun s p => if imageBusy s then stBUSY else if s.boot.accepted.isNone then stNOTFOUND else imgStart s p) flashUnit

/-- CHIP_RESET: completes OK; the order is presented in the sample of the next boundary (R416). (Log: DEDUCED, log entry 66.) -/
def opChipReset : Op :=
  actOp 0x0E06 [0] .none [] okArg (fun _ _ => [0]) (fun _ s =>
    let i : Input := { rank := 1, sub := 0, due := s.clock.fix + 1, body := .order (.chip 2 0) }
    ({ s with ctl.queue := s.ctl.queue ++ [i] }, outOk 0))

/-- The revoke bits that IMAGE_FUSE blows (R432). -/
def fuseRevokes (s : State) : BitVec 4 :=
  let h := runHeader s
  BitVec.ofNat 4 (leAt h 20 1) &&& ~~~(BitVec.ofNat 4 (2 ^ imgSigner h))

/-- IMAGE_FUSE. Whether a fuse fails to verify, and which then are blown, are free values. (Log: DESIGN CHOICE, log entry 65; DEDUCED, log entry 66.) -/
def opImageFuse : Op :=
  { actOp 0x0E07 [0] .none [] (fun s _ => if s.lod.factory then stDENIED else 0) (fun _ _ => [0]) (fun _ s =>
      let goal := max s.boot.fuses (imgEpoch (runHeader s))
      let rv := s.boot.revoke ||| fuseRevokes s
      if goal = s.boot.fuses && rv == s.boot.revoke then (s, outOk goal)
      else
        let d := openDraw 23 s
        let s := advanceDraws 1 s
        if d.getLsbD 0 then
          let part := s.boot.fuses + bitsOf d.toNat 8 16 % (goal - s.boot.fuses + 1)
          let s := { s with boot.fuses := part
                            boot.revoke := s.boot.revoke ||| (fuseRevokes s &&& BitVec.ofNat 4 (bitsOf d.toNat 32 4)) }
          (raiseFault fkOTP_ECC_UNCORR (bitsOf d.toNat 40 12) s, outErrAt stFAULTED part)
        else ({ s with boot.fuses := goal, boot.revoke := rv }, outOk goal))
    with touch := noTouch }

/-- A stored certificate: at most 1,024 bytes (R428). -/
def certBytes (n : Nat) : Bytes := (Config.certificate n).take 1024

def certPart (n : Nat) : Bytes := leBytes 4 (certBytes n).length ++ padTo 1024 (certBytes n)

/-- Log: DEDUCED, log entry 64. -/
def opCertRead : Op := readOp 0x0E08 [0, 2, 3] 2056 [] okArg anyTenant (fun _ s =>
  if shake256 (certBytes 0) != Config.otpDigest 5 then (s, outErr stFAULTED)
  else (s, outData 2 (certPart 0 ++ certPart 1)))

end Sys2Proof.Machine
end

