-- ==== Sys2Proof/Machine/Registers.lean ====
section
/-! DEFINITION. Direct registers with behaviour (chapter 20, Tables 3.2 to 3.4), function-level and link resets (R86, R87),
reference clocks, and the JTAG port (chapter 21). -/

namespace Sys2Proof.Machine

open Sys2Proof

/-! ### Doorbells and ring control (R63 to R66) -/

def bumpDberr (r : Ring) : Ring := { r with dberr := if r.dberr = 0xFFFFFFFF then r.dberr else r.dberr + 1 }

/-- CMD_DOORBELL. -/
def doCmdDoorbell (ring : Fin 4) (value : U32) (s : State) : State :=
  let t := bitsOf value.toNat 0 16
  modRing ring.val (fun r => if ringSize r.size ≤ t then bumpDberr r else { r with tail := t }) s

/-- A write to a ring register, ignored while domain 61 is off (R447). -/
def ringWrite (n : Nat) (f : Ring → Ring) (s : State) : State := if domainOn s 61 then modRing n f s else s

/-- CQ_HEAD_WRITE. -/
def doCqHeadWrite (ring : Fin 4) (value : U32) (s : State) : State :=
  let h := bitsOf value.toNat 0 16
  ringWrite ring.val (fun r => if ringSize r.cqSize ≤ h then bumpDberr r else { r with cqHead := h }) s

def sizeOk (k : U32) : Bool := decide (6 ≤ k.toNat) && decide (k.toNat ≤ 16)

/-- ENABLE goes from 0 to 1 on an idle ring. -/
def ringStart (r : Ring) : Ring :=
  if r.enable || r.state != .idle then r
  else
    let ok := sizeOk r.size && sizeOk r.cqSize
    { r with
      enable := true
      head := 0
      tail := 0
      cqHead := 0
      cqTail := 0
      promised := 0
      waiting := []
      inFetch := []
      fenced := false
      state := if ok then .running else .halted
      cause := if ok then 0 else 1 }

/-- ENABLE goes from 1 to 0: the ring drains. -/
def ringStop (r : Ring) : Ring :=
  if r.enable then ringSettle { r with enable := false, state := .draining } else r

def doRingEnable (ring : Fin 4) (s : State) : State := ringWrite ring.val ringStart s
def doRingDisable (ring : Fin 4) (s : State) : State := ringWrite ring.val ringStop s

/-- DBERR_READ: the count is returned and cleared. -/
def doDberrRead (ring : Fin 4) (s : State) : State :=
  let v := (ringOf s ring.val).dberr
  modRing ring.val (fun r => { r with dberr := 0 }) { s with out.lastRead := v.setWidth 64 }

/-! ### Lodestar, Meridian, counters, MAC status -/

/-- FAULT_HEAD_WRITE (R449). -/
def doFaultHeadWrite (value : U32) (s : State) : State :=
  let v : BitVec 13 := BitVec.ofNat 13 value.toNat
  let n := (v - s.lod.headCount).toNat
  if n ≤ (s.lod.tailCount - s.lod.headCount).toNat then dropRecords n s
  else { s with lod.headRefused := if s.lod.headRefused = 0xFFFF then 0xFFFF else s.lod.headRefused + 1 }

/-- MAC_STICKY_CLEAR (R454): a lane that is not a port, or whose SerDes domain is off, ignores the write. -/
def doMacStickyClear (lane : Fin 128) (value : U32) (s : State) : State :=
  let p := lane.val
  if isPort s p && domainOn s (56 + p / 32) then
    modPort p (fun k => { k with sticky := k.sticky &&& ~~~(BitVec.ofNat 6 value.toNat) }) s
  else s

/-- STEP_COUNT_READ: the count is returned and cleared. -/
def doStepCountRead (s : State) : State :=
  { s with out.lastRead := s.mer.stepCount.setWidth 64, mer.stepCount := 0 }

/-- WRAP_TAI_LO_READ: the high word is latched (R450). -/
def doWrapTaiLoRead (s : State) : State :=
  { s with
    out.lastRead := BitVec.ofNat 64 (s.mer.wrapTai.toNat % 2 ^ 32)
    mer.wrapTaiHiLatch := BitVec.ofNat 32 (s.mer.wrapTai.toNat / 2 ^ 32) }

/-- PERF_VAL_LO_READ: the counter's high word is latched; the words read zero while domain 63 is off (R438, R453). -/
def doPerfValLoRead (counter : BitVec 8) (s : State) : State :=
  let c := counter.toNat
  let v := if domainOn s 63 then (perfLive s c).toNat else 0
  { s with
    out.lastRead := BitVec.ofNat 64 (v % 2 ^ 32)
    perf.counters := kmod perfCounterReset s.perf.counters c (fun k => { k with hiLatch := BitVec.ofNat 32 (v / 2 ^ 32) }) }

/-! ### Writes by address (Tables 3.2, 3.4, 20.1, 20.2) -/

def setLo (v : U64) (w : Nat) : U64 := BitVec.ofNat 64 (setBits v.toNat 0 32 w)
def setHi (v : U64) (w : Nat) : U64 := BitVec.ofNat 64 (setBits v.toNat 32 32 w)

/-- One ring register (Table 3.4). Base, size and shadow are written only while the ring is idle and not enabled. -/
def writeRing (n : Fin 4) (off v : Nat) (s : State) : State :=
  let free := (ringOf s n.val).state == .idle && !(ringOf s n.val).enable
  let upd := fun (f : Ring → Ring) => if free then ringWrite n.val f s else s
  if off = 0x00 then upd (fun r => { r with base := setLo r.base (v / 4096 * 4096) })
  else if off = 0x04 then upd (fun r => { r with base := setHi r.base v })
  else if off = 0x08 then upd (fun r => { r with size := BitVec.ofNat 32 (v % 32) })
  else if off = 0x0C then (if v % 2 = 1 then doRingEnable n s else doRingDisable n s)
  else if off = 0x1C then upd (fun r => { r with cqBase := setLo r.cqBase (v / 4096 * 4096) })
  else if off = 0x20 then upd (fun r => { r with cqBase := setHi r.cqBase v })
  else if off = 0x24 then upd (fun r => { r with cqSize := BitVec.ofNat 32 (v % 32) })
  else if off = 0x28 then doCqHeadWrite n (BitVec.ofNat 32 v) s
  else if off = 0x30 then upd (fun r => { r with shadow := setLo r.shadow (v / 8 * 8) })
  else if off = 0x34 then upd (fun r => { r with shadow := setHi r.shadow v })
  else if off = 0x38 then ringWrite n.val (fun r => { r with irq := BitVec.ofNat 6 v }) s
  else s

/-- One global register (Table 20.2). -/
def writeGlobal (off v : Nat) (s : State) : State :=
  if off = 0x14 then (if pushLocked s then s else { s with boot.bootAddr := setLo s.boot.bootAddr (v / 4096 * 4096) })
  else if off = 0x18 then (if pushLocked s then s else { s with boot.bootAddr := setHi s.boot.bootAddr v })
  else if off = 0x1C then (if pushLocked s then s else { s with boot.bootLen := BitVec.ofNat 32 (v % 2 ^ 24) })
  else if off = 0x20 then (if v % 2 = 1 then doBootGo s else s)
  else if off = 0x24 then { s with boot.scratch := BitVec.ofNat 32 v }
  else s

/-- One word of an MSI-X table entry. An entry unmasked while its message is pending sends it. (Log: DEDUCED, log entry 28.) -/
def writeMsix (k word v : Nat) (s : State) : State :=
  let e := kget (2 ^ 96 : BitVec 128) s.host.msix k
  let v := if word = 3 then v % 2 else v
  let e' : BitVec 128 := BitVec.ofNat 128 (setBits e.toNat (32 * word) 32 v)
  let s := { s with host.msix := kset (2 ^ 96 : BitVec 128) s.host.msix k e' }
  if s.host.pba.getLsbD k && !e'.getLsbD 96 then
    hostOut (.msix (BitVec.ofNat 6 k)) { s with host.pba := s.host.pba &&& ~~~(1#64 <<< k) }
  else s

/-- A 4-byte write at an offset of BAR0 or BAR2; an unimplemented offset ignores it (R62). (Log: DEDUCED, log entry 28.) -/
def writeWord (bar2 : Bool) (off v : Nat) (s : State) : State :=
  if bar2 then
    if off < 0x4000 && off % 0x1000 = 0 then doCmdDoorbell (Fin.ofNat 4 (off / 0x1000)) (BitVec.ofNat 32 v) s
    else if 0x8000 ≤ off && off < 0x8400 then writeMsix ((off - 0x8000) / 16) (off % 16 / 4) v s
    else s
  else if off < 0x1000 then writeGlobal off v s
  else if off < 0x1400 then writeRing (Fin.ofNat 4 ((off - 0x1000) / 0x100)) (off % 0x100) v s
  else if off = 0x10000 then doFaultHeadWrite (BitVec.ofNat 32 v) s
  else if off = 0x10008 then { s with lod.recSel := BitVec.ofNat 12 v }
  else if 0x100000 ≤ off && off < 0x180000 && off % 0x1000 = 8 then
    doMacStickyClear (Fin.ofNat 128 ((off - 0x100000) / 0x1000)) (BitVec.ofNat 32 v) s
  else s

/-- REGISTER_WRITE: 4 or 8 bytes, aligned, with every byte enabled (R62); anything else is completed and ignored. An
8-byte write goes to two registers in ascending order. (Log: DEDUCED, log entry 28.) -/
def doRegisterWrite (bar2 : Bool) (off : BitVec 26) (wide full : Bool) (data : U64) (s : State) : State :=
  let o := off.toNat
  if !s.boot.sysRst || !full || o % (if wide then 8 else 4) ≠ 0 then s
  else
    let s := writeWord bar2 o (data.toNat % 2 ^ 32) s
    if wide then writeWord bar2 (o + 4) (data.toNat / 2 ^ 32) s else s

/-! ### Resets of the host interface (R86, R87) -/

/-- The host's rings stop; what waits for them stays where it is (R86, R263, R266, R341, R442). -/
def hostRingsOff (s : State) : State :=
  { soundDrop s with
    met.ring := { s.met.ring with enable := false }
    perf.ring := { s.perf.ring with enable := false }
    sw.rings := s.sw.rings.map (fun r => { r with enable := false }) }

def fromRing (src : CmdSrc) : Bool :=
  match src with
  | .ring _ => true
  | .inband _ _ _ _ _ => false

/-- The effect of a function-level reset: rings, doorbells and MSI-X structures return to reset, commands not yet
presented are discarded without completion, and what the rings own ends at the next boundary. -/
def hostReset (s : State) : State :=
  let isRing := fun (i : Input) => match i.body with
    | .cmd _ p _ => fromRing p.src
    | _ => false
  let s := (s.ctl.queue.filter isRing).foldl (fun s i => match i.body with
    | .cmd _ _ bufs => freePayload bufs s
    | _ => s) s
  let s := (s.ctl.sched.filter (fun c => fromRing c.p.src)).foldl (fun s c => freePayload c.bufs s) s
  let s := (s.pwr.held.filter (fun c => fromRing c.p.src)).foldl (fun s c => freePayload c.bufs s) s
  hostRingsOff { s with
    ctl.queue := s.ctl.queue.filter (fun i => !isRing i)
    ctl.sched := s.ctl.sched.filter (fun c => !fromRing c.p.src)
    pwr.held := s.pwr.held.filter (fun c => !fromRing c.p.src)
    ctl.flr := true
    ctl.cpls := []
    host.rings := [ringReset, ringReset, ringReset, ringReset]
    host.msix := []
    host.pba := 0 }

/-- FUNCTION_LEVEL_RESET. -/
def doFunctionLevelReset (s : State) : State := raiseFault fkFLR 0 (hostReset s)

/-- PCIE_LINK_RESET: PERST_N (0), hot reset (1), link down (2) or link disable (3). While SYS_RST_N is low, PERST_N has no
further effect (R465). -/
def doPcieLinkReset (kind : Fin 4) (s : State) : State :=
  let s := if kind = 0 then { s with host.perst := true } else s
  if !s.boot.sysRst then s
  else doFunctionLevelReset { s with 
    host.linkUp := false, host.inReset := true, host.linkGen := 1, host.linkWidth := 1, host.pcie := pcieSpaceReset }

/-- PERST_N_RELEASE: training and the configuration-response interval begin. -/
def doPerstNRelease (s : State) : State := { s with host.perst := false }

/-- PCIE_LINK_UP: the link is trained at a generation and a width. (Log: DEDUCED, log entry 28.) -/
def doPcieLinkUp (gen : Fin 4) (width : Fin 4) (s : State) : State :=
  if !s.boot.sysRst || s.host.perst then s
  else { s with host.linkUp := true, host.inReset := false, host.linkGen := gen.val + 1, host.linkWidth := 2 ^ width.val }

/-! ### Reference clocks (R467) -/

/-- Log: DEDUCED, log entry 69. -/
def clockPorts (clk : Fin 2) : List Nat := (List.range 64).map (fun i => 64 * clk.val + i)

/-- REFCLK_SDS_LOSS: the lanes it serves stop, and their ports lose alignment. -/
def doRefclkSdsLoss (clk : Fin 2) (ns : BitVec 10) (s : State) : State :=
  let s := { atNs ns s with boot.refclk := s.boot.refclk &&& ~~~(1#2 <<< clk.val) }
  let s := (clockPorts clk).foldl (fun s p => doAlignLost (Fin.ofNat 128 p) ns 0 (doLinkLoss (Fin.ofNat 128 p) ns 0 s)) s
  if clk = 1 then
    let s := doRhAlignLost s
    { s with pair.lanes := 0 }
  else s

/-- REFCLK_SDS_RESTORED: the lanes retrain: ports on the way to UP start again from their first enabled step. (Log: DEDUCED, log entry 69.) -/
def doRefclkSdsRestored (clk : Fin 2) (s : State) : State :=
  let s := { s with boot.refclk := s.boot.refclk ||| (1 <<< clk.val) }
  (clockPorts clk).foldl (fun s p =>
    let st := (portOf s p).st
    if isPort s p && (st == .negotiate || st == .train || st == .align) then portRestart p s else s) s

/-! ### JTAG (R468) -/

/-- Instruction codes: BYPASS is all ones (IEEE 1149.1); the others are the model's names for the six instructions. (Log: PRESUMED, log entry 68.) -/
def jtagLoad (code : Nat) (pins : JtagPins) (s : State) : State := { s with boot.jtag := byteN code, boot.jtagPins := pins }

/-- EXTEST, CLAMP and HIGHZ take effect only while HALTED with reason STRAP. -/
def scanAllowed (s : State) : Bool := s.boot.stage == 8 && s.boot.reason == 0x12

/-- Log: PRESUMED, log entry 68. -/
def doBypass (s : State) : State := jtagLoad 0xFF .normal s

/-- The identification code (R468): die revision, part number 0x1280, JEDEC code, and 1. (Log: PRESUMED, log entry 68.) -/
def idcodeWord : U32 := Config.dieRev.setWidth 4 ++ (0x1280#16 ++ (Config.jedecCode ++ 1#1))

/-- IDCODE: the identification code is captured. -/
def doIdcode (s : State) : State := jtagLoad 2 .normal { s with boot.idcode := idcodeWord }

/-- SAMPLE/PRELOAD: the boundary-scan register takes the pins as sampled, or the bits shifted in. -/
def doSamplePreload (bits : Bytes) (s : State) : State := jtagLoad 1 .normal { s with boot.bsr := bits }

def doExtest (s : State) : State := if scanAllowed s then jtagLoad 0 .driven s else doBypass s
def doClamp (s : State) : State := if scanAllowed s then jtagLoad 3 .held s else doBypass s
def doHighz (s : State) : State := if scanAllowed s then jtagLoad 4 .tristate s else doBypass s

end Sys2Proof.Machine
end

