-- ==== Sys2Proof/Machine/Commit.lean ====
section
/-! DEFINITION. A commit (R52): which entries it takes, QR idleness, the cross-field checks of the owning chapters over
the resulting configuration, and the change of values in force. -/

namespace Sys2Proof.Machine

open Sys2Proof

/-! ### Entries -/

/-- The owner's staged entries in a group, each with its index in the staging store. -/
def commitEntries (s : State) (owner group : Nat) : List (Nat × Staged) :=
  (List.zip (List.range s.ctl.staging.length) s.ctl.staging).filter (fun e => e.2.owner == owner && inGroup s group e.2.obj)

/-- The entries leave the staging store. -/
def dropEntries (owner group : Nat) (s : State) : State :=
  { s with ctl.staging := s.ctl.staging.filter (fun e => !(e.owner == owner && inGroup s group e.obj)) }

/-! ### The resulting configuration -/

/-- Lanes of a port group that are no ports lose their port fields; tenant queues assigned to them become unassigned, and
their TC_QUEUE entries return to reset (R95, R276). -/
def dropLanes (g : Nat) (s : State) : State :=
  ((List.range 8).map (fun i => 8 * g + i)).foldl (fun s p =>
    if isPort s p then s
    else
      let gone := fun (o : Obj) =>
        (objSub o == 1 && portFields.contains (objFld o) && objIdx o == p)
          || (objSub o == 7 && objFld o == 8 && objIdx o / 8 == p)
      let qs := (cfgIdx s 7 1).filter (fun q => fv s 7 1 q 7 1 == 1 && fv s 7 1 q 0 7 == p)
      let s := { s with ctl.cfg := s.ctl.cfg.filter (fun e => !gone e.1) }
      qs.foldl (fun s q => setField 7 1 q 7 1 0 s) s) s

/-- The groups whose layout a list of writes changes. -/
def layoutGroups (s : State) (ws : List (Obj × Nat)) : List Nat :=
  (ws.filter (fun w => objSub w.1 == 1 && objFld w.1 == 1 && objVal s w.1 != w.2)).map (fun w => objIdx w.1)

/-- The values in force after a list of writes. -/
def writesCfg (ws : List (Obj × Nat)) (s : State) : State :=
  let gs := layoutGroups s ws
  gs.foldl (fun s g => dropLanes g s) (ws.foldl (fun s w => objWrite w.1 w.2 s) s)

/-! ### QR idleness (R8, R94, R302, R342 and the field sections) -/

/-- Neither bank of an endpoint holds a nonzero count (R342). -/
def meterEmpty (s : State) (e : Nat) : Bool :=
  (List.range 6).all (fun i => epCount s false e i == 0 && epCount s true e i == 0)

/-- A queue holds no copy. -/
def queueBare (s : State) (q : Nat) : Bool :=
  (queueOf s q).copies.isEmpty && !(s.sw.tx.any (fun e => e.2.copy.queue == q))

/-- No buffer of pools 3 to 5 is allocated (R302). -/
def extPoolsFree (s : State) : Bool :=
  !(s.pools.alloc.any (fun e => decide (3 ≤ refPool e.1) && decide (refPool e.1 ≤ 5)))

/-- The block that owns a QR field is idle. -/
def blockIdle (s : State) (o : Obj) : Bool :=
  let sub := objSub o
  let fld := objFld o
  let i := objIdx o
  if sub = 1 then
    (if fld = 1 then (List.range 8).all (fun k => let p := 8 * i + k
        !isPort s p || (portIdle s p && portEmpty s p))
     else if fld = 0xA then
       (if 128 ≤ i then s.pair.st == .solo || pairIdle s
        else match portOfLane s i with
          | some p => portIdle s p
          | none => true)
     else portIdle s i)
  else if sub = 2 then offSince s 2 2 i 0
  else if sub = 3 then flowEmpty s
  else if sub = 7 then queueBare s i
  else if sub = 8 then extPoolsFree s
  else if sub = 11 then (if fld = 7 || fld = 8 then offSince s 11 7 i 0 else offSince s 11 1 0 0)
  else if sub = 12 then offSince s 12 1 i 0 && meterEmpty s i
  else if sub = 13 then (if fld = 5 then extPoolsFree s else pairIdle s)
  else if sub = 14 then (if fld = 0x10 then portIdle s i else (kget drainReset s.lod.drains i).mask == 0)
  else true

/-- A write changes no QR bit, or the owning block is idle. -/
def qrIdle (s : State) (o : Obj) (v : Nat) : Bool := !changesClass o .qr (objVal s o) v || blockIdle s o

/-! ### Checks over the resulting configuration -/

/-- A valid endpoint has a tenant (Table 14.7). -/
def meterCfgOk (s : State) : Bool := (validEps s).all (fun e => e.2 != 0)

/-- Every cross-field check of an owning chapter. -/
def cfgOk (s : State) : Bool :=
  portCfgOk s && clsCfgOk s && flowCfgOk s && skipCfgOk s && switchCfgOk s && tmCfgOk s && poolCfgOk s && hbmCfgOk s
    && meterCfgOk s && lodCfgOk s && perfCfgOk s && powerCfgOk s

/-- The shortest run of the entries that fails the checks ends with the first failing entry. (Log: DEDUCED, log entry 16.) -/
def firstFailing (s : State) (es : List (Nat × Staged)) : Nat :=
  let ws := es.map (fun e => (e.2.obj, e.2.value.toNat))
  match (List.range es.length).find? (fun k => !cfgOk (writesCfg (ws.take (k + 1)) s)) with
  | some k => (es.map (fun e => e.1)).getD k 0
  | none => 0

/-- A commit's outcome on a state: its writes, or the status and RESULT with which it is refused as a whole (R52, R367). (Log: DEDUCED, log entry 16.) -/
def commitVerdict (s : State) (owner group : Nat) : Except Nat (List (Obj × Nat)) :=
  let es := commitEntries s owner group
  let ws := es.map (fun e => (e.2.obj, e.2.value.toNat))
  let t := writesCfg ws s
  if es.any (fun e => objSub e.2.obj == 13) && s.pair.st == .solo then .error stDENIED
  else match es.find? (fun e => !qrIdle s e.2.obj e.2.value.toNat) with
    | some e => .error (refuseAt stQUIESCE e.1)
    | none => match es.find? (fun e => !portFieldOk t e.2.obj) with
      | some e => .error (refuseAt stBADARG e.1)
      | none =>
        if !cfgOk t then .error (refuseAt stBADARG (firstFailing s es))
        else match es.find? (fun e => genBanked e.2.obj && swapHolds s) with
          | some e => .error (refuseAt stBUSY e.1)
          | none => match es.find? (fun e => activeCopy s e.2.obj) with
            | some e => .error (refuseAt stBADARG e.1)
            | none => .ok ws

/-! ### The change of the values in force (R41, R52) -/

/-- A written MISS_ACTION word is sound again. -/
def missRepair (o : Obj) (s : State) : State :=
  if objSub o == 2 && (objFld o == 0x18 || objFld o == 0x19) then
    clearDamageAt 3 (missAddr (objIdx o % 256) (objIdx o / 256 % 2)) s
  else s

/-- A write of a group or member entry makes its word good again (R271). -/
def mcRepair (o : Obj) (s : State) : State :=
  if objSub o == 6 && objFld o == 0xC then clearDamage 0x09 5 (mcAddr true (objIdx o)) s
  else if objSub o == 6 && objFld o == 0xD then clearDamage 0x09 5 (mcAddr false (objIdx o)) s
  else s

/-- What the change of one object does beside its value. -/
def applyObj (x : Obj × Nat × Nat) (s : State) : State :=
  let (o, old, new) := x
  let s := mcRepair o (missRepair o s)
  let s := if objSub o = 3 ∧ objFld o = 6 ∧ bitsOf old 0 4 < bitsOf new 0 4 then cleanSweep (objIdx o) s else s
  let s := if objSub o = 8 ∧ objFld o = 2 ∧ objIdx o % 8 ≠ 7 then poolRiseCheck (objIdx o % 8) (poolLowCheck (objIdx o % 8) s) else s
  if old = new then s
  else applyPowerObj o old new (applyIsoObj o old new (applyPerfObj o old (applySwitchObj o old new (applyPortObj o old new s))))

/-- The classifier stages whose QR fields change. -/
def restageList (xs : List (Obj × Nat × Nat)) : List Nat :=
  dedupN ((xs.filter (fun x => objSub x.1 == 2 && decide (3 ≤ objFld x.1) && decide (objFld x.1 ≤ 6)
    && x.2.1 != x.2.2)).map (fun x => objIdx x.1))

/-- All writes together take force. -/
def applyWrites (ws : List (Obj × Nat)) (s : State) : State :=
  let xs := ws.map (fun w => (w.1, objVal s w.1, w.2))
  let t := writesCfg ws s
  let t := { t with ctl.changed := (xs.filter (fun x => x.2.1 != x.2.2)).map (fun x => x.1) ++ t.ctl.changed }
  let t := xs.foldl (fun t x => applyObj x t) t
  (restageList xs).foldl (fun t si => restage s si t) t

/-- A commit at its boundary: its entries are applied together and leave the staging store. -/
def commitNow (owner group : Nat) (s : State) : State × CmdOut :=
  match commitVerdict s owner group with
  | .error r => (s, refusal r)
  | .ok ws => (applyWrites ws (dropEntries owner group s), outOk ws.length)

end Sys2Proof.Machine
end

