-- ==== Sys2Proof/Machine/System.lean ====
section
/-! DEFINITION. The system group 0x00xx: SYS_INFO, staging, commit and leases (R49 to R57, R474), the Autopilot journal
(R58), ring 1's tenant set (R78), and the in-band settings (R82, R83). -/

namespace Sys2Proof.Machine

open Sys2Proof

/-! ### SYS_INFO (Table 3.9) -/

def sysInfo (s : State) : Bytes :=
  leBytes 4 (orderCode s) ++ leBytes 2 Config.dieRev.toNat ++ zerosB 2
    ++ leBytes 4 (Config.fwVersion (imgVersion (runHeader s))).toNat ++ leBytes 4 (imgVersion (runHeader s)) ++ uniqueIdB
    ++ leBytes 4 (if s.small then 134217728 else 268435456) ++ leBytes 4 (fixN s)
    ++ [byteN s.host.linkGen, byteN s.host.linkWidth, byteN (b2n s.boot.pairPresent)] ++ zerosB 21

def opSysInfo : Op := readOp 0x0001 [0, 1, 2, 3] 64 [] okArg anyTenant (fun _ s => (s, outData 64 (sysInfo s)))

/-! ### Leases (R54 to R57) -/

/-- The lowest own lease whose group holds the object: entries staged for it belong to that lease (R57). -/
def ownLease (s : State) (owner : Nat) (o : Obj) : Option Nat :=
  (sortBy id ((s.ctl.leases.filter (fun l => l.owner == owner && inGroup s l.group o)).map (fun l => l.group))).head?

def leaseOf (s : State) (owner group : Nat) : Option Lease :=
  s.ctl.leases.find? (fun l => l.owner == owner && l.group == group)

/-- A lease ends: its staged entries are discarded. -/
def endLease (owner group : Nat) (s : State) : State :=
  { s with
    ctl.leases := s.ctl.leases.filter (fun l => !(l.owner == owner && l.group == group))
    ctl.staging := s.ctl.staging.filter (fun e => !(e.owner == owner && e.lease == some group)) }

/-- A lease ends at its expiry boundary, with its message (R57). -/
def expireLease (l : Lease) (s : State) : State := raiseFault fkLEASE_EXPIRED l.group (endLease l.owner l.group s)

/-- The lease's expiry boundary is boundary b, or has been passed. -/
def leaseOver (b : Nat) (l : Lease) : Bool := decide (fixSub b l.expiry.toNat < 2 ^ 21)

/-- Subsystems with objects that ring 3 may write. -/
def ring3Subs : List Nat := [1, 9, 15]

/-- A tenant has an object in a subsystem. -/
def tenantInSub (s : State) (t k : Nat) : Bool :=
  if k = 14 then true
  else if k = 4 then (List.range 256).any (fun q => fv s 4 0x15 q 24 24 == t)
  else if k = 7 then t == 0 || (cfgIdx s 7 2).any (fun q => fv s 7 2 q 0 24 == t) || (cfgIdx s 12 2).any (fun e => fv s 12 2 e 0 24 == t)
  else if k = 12 then t == 0 || (cfgIdx s 12 2).any (fun e => fv s 12 2 e 0 24 == t)
  else k == 3

/-- Some object lies in both groups; with `r3`, one that ring 3 may write (R54, R55, Table 2.6). The first group's kind is
not above the second's. -/
def groupsMeetLe (r3 : Bool) (s : State) (g h : Nat) : Bool :=
  let a := bitsOf g 28 4
  let b := bitsOf h 28 4
  let i := bitsOf g 0 28
  let j := bitsOf h 0 28
  if a = 0 then (if r3 then b == 0 || b == 2 || (b == 4 && ring3Subs.contains j) else true)
  else if a = 1 then
    (if r3 then false
     else if b = 1 then i == j
     else if b = 2 then (cfgIdx s 7 1).any (fun q => queuePort s q == some j && fv s 7 2 q 0 24 == i)
     else if b = 4 then tenantInSub s i j
     else false)
  else if a = 2 then
    (if b = 2 then i == j || (!r3 && i / 8 == j / 8)
     else if b = 4 then (if r3 then j == 1 else [1, 6, 7, 11, 14].contains j)
     else false)
  else if a = 3 then (if r3 then false else if b = 3 then i == j else b == 4 && j == 2)
  else i == j && (!r3 || ring3Subs.contains j)

def groupsMeet (r3 : Bool) (s : State) (g h : Nat) : Bool :=
  if bitsOf g 28 4 ≤ bitsOf h 28 4 then groupsMeetLe r3 s g h else groupsMeetLe r3 s h g

def parGroup (p : CmdPkt) : Nat := par p 16 4

/-- Another owner's lease holds an object of the group (R55). -/
def groupTaken (s : State) (owner group : Nat) : Bool :=
  s.ctl.leases.any (fun l => l.owner != owner && groupsMeet (owner == 3 || l.owner == 3) s group l.group)

/-- LEASE_TAKE's DENIED cases (R55). (Log: DEDUCED, log entry 18.) -/
def leaseMay (s : State) (p : CmdPkt) : Bool :=
  let g := parGroup p
  if authOf s p.src = 1 then bitsOf g 28 4 == 1 && (tenantsOf s p.src).contains (bitsOf g 0 28)
  else if authOf s p.src = 3 then !groupOk g || groupsMeet true s g 0
  else true

def leaseTake (p : CmdPkt) (s : State) : State × CmdOut :=
  let o := ownerOf p.src
  let g := parGroup p
  if groupTaken s o g then (s, outErr stBUSY)
  else if (leaseOf s o g).isNone && decide (256 ≤ s.ctl.leases.length) then (s, outErr stBUSY)
  else
    let e : FixNo := s.clock.fix + BitVec.ofNat 22 (par p 20 4)
    let l : Lease := { owner := o, group := g, expiry := e }
    let rest := s.ctl.leases.filter (fun x => !(x.owner == o && x.group == g))
    ({ s with ctl.leases := rest ++ [l] }, outOk e.toNat)

/-- An input that changes no value in force (R474). -/
def inertOp (code : Nat) (dir : PayDir) (used : List (Nat × Nat)) (arg : State → CmdPkt → Nat)
    (tenant : State → CmdPkt → Bool) (touch : State → CmdPkt → List (List Nat × Bool))
    (body : CmdPkt → State → State × CmdOut) : Op :=
  { code := code, rings := [0, 1, 3], dir := dir, used := used, isRead := false, isMulti := false, inert := true,
    arg := arg, tenant := tenant, claims := noClaims, touch := touch,
    body := fun p _ s => let r := body p s; (r.1, .done r.2) }

def opLeaseTake : Op :=
  inertOp 0x0020 .none [(16, 8)]
    (fun _ p => argIf (groupOk (parGroup p) && decide (1 ≤ par p 20 4) && decide (par p 20 4 ≤ 2097151))) leaseMay noTouch
    leaseTake

/-- Log: DEDUCED, log entry 17. -/
def opLeaseRelease : Op :=
  inertOp 0x0021 .none [(16, 4)] (fun _ p => argIf (groupOk (parGroup p))) anyTenant noTouch (fun p s =>
    if (leaseOf s (ownerOf p.src) (parGroup p)).isNone then (s, outErr stNOTFOUND)
    else (endLease (ownerOf p.src) (parGroup p) s, outOpen []))

/-- LEASE_EXPIRED: every lease whose expiry boundary has come, or comes next and its sample is closed, ends (R57). (Log: DEDUCED, log entry 73.) -/
def doLeaseExpired (s : State) : State :=
  let b := if 896 ≤ s.clock.sub.toNat then (fixN s + 1) % 2 ^ 22 else fixN s
  (s.ctl.leases.filter (leaseOver b)).foldl (fun s l => expireLease l s) s

/-! ### Staging (R49 to R51) -/

/-- The entries of CFG_STAGE: inline with COUNT 1, else in the payload. -/
def stageEntries_ (p : CmdPkt) : List (Obj × Nat) :=
  if par p 16 4 = 1 then [(par p 24 8, par p 32 8)]
  else (List.range (min 256 (par p 16 4))).map (fun i => (leAt (payBytes p) (16 * i) 8, leAt (payBytes p) (16 * i + 8) 8))

/-- The owner may stage the object (R77, R289, R392). -/
def mayStage (s : State) (p : CmdPkt) (o : Obj) : Bool :=
  if authOf s p.src = 1 then ring1Obj o && mayObj s p o else if authOf s p.src = 3 then ring3Obj o else true

/-- A payload that could not be read names no object. -/
def stageMay (s : State) (p : CmdPkt) : Bool :=
  (par p 16 4 != 1 && p.payload.isNone) || (stageEntries_ p).all (fun e => mayStage s p e.1)

/-- Whether a lane number is a port is judged at the command's boundary (R95). (Log: DEDUCED, log entry 17.) -/
def stageArg (_ : State) (p : CmdPkt) : Nat :=
  let n := par p 16 4
  if n = 0 || 256 < n then stBADARG
  else if n = 1 && p.paramLen ≠ 0 then stBADARG
  else if 1 < n && (p.paramLen.toNat ≠ 16 * n || par p 24 8 ≠ 0 || par p 32 8 ≠ 0) then stBADARG
  else match (stageEntries_ p).find? (fun e => !(objExists e.1 && valueOk e.1 e.2)) with
    | none => 0
    | some e => if objExists e.1 then stBADARG else stNOTFOUND

/-- One staged copy, replacing the owner's earlier one (R50). (Log: DEDUCED, log entry 17.) -/
def stageOne (owner : Nat) (e : Obj × Nat) (s : State) : State :=
  let x : Staged := { owner := owner, obj := e.1, value := BitVec.ofNat 64 e.2, lease := ownLease s owner e.1 }
  if s.ctl.staging.any (fun y => y.obj == e.1) then
    { s with ctl.staging := s.ctl.staging.map (fun y => if y.obj = e.1 then x else y) }
  else { s with ctl.staging := s.ctl.staging ++ [x] }

/-- Log: DEDUCED, log entry 17. -/
def cfgStage (p : CmdPkt) (s : State) : State × CmdOut :=
  let o := ownerOf p.src
  let es := stageEntries_ p
  let fresh := dedupN ((es.map (fun e => e.1)).filter (fun x => !(s.ctl.staging.any (fun y => y.obj == x))))
  if es.any (fun e => !portFieldOk s e.1) then (s, outErr stNOTFOUND)
  else if es.any (fun e => s.ctl.staging.any (fun y => y.obj == e.1 && y.owner != o)) then (s, outErr stBUSY)
  else if 16384 < s.ctl.staging.length + fresh.length then (s, outErr stNOBUF)
  else (es.foldl (fun s e => stageOne o e s) s, outOk es.length)

def opCfgStage : Op :=
  inertOp 0x0010 (.toDev 0 4096) [(16, 4), (24, 16)] stageArg stageMay
    (fun s p => (stageEntries_ p).map (fun e => (objGroups s e.1, ring3Obj e.1))) cfgStage

/-! ### Commit and abort (R52, R53, R57) -/

/-- The boundary that a command names: its target, or the next one. -/
def effTarget (s : State) (p : CmdPkt) : Nat :=
  if p.target = 0 then (fixN s + 1) % 2 ^ 22 else p.target.toNat % 2 ^ 22

/-- Log: DEDUCED, log entry 18. -/
def commitArg (s : State) (p : CmdPkt) : Nat :=
  if !groupOk (parGroup p) then stBADARG
  else match leaseOf s (ownerOf p.src) (parGroup p) with
    | some l => argIf (!leaseOver (effTarget s p) l)
    | none => 0

def commitClaims (s : State) (p : CmdPkt) : List Obj :=
  (commitEntries s (ownerOf p.src) (parGroup p)).map (fun e => e.2.obj)

/-- The owner may still write its entries at the boundary (R78). (Log: DEDUCED, log entry 18.) -/
def commitMay (s : State) (p : CmdPkt) : Bool := (commitClaims s p).all (mayStage s p)

def opCfgCommit : Op :=
  { code := 0x0011, rings := [0, 1, 3], dir := .none, used := [(16, 4)], isRead := false, isMulti := false, inert := false,
    arg := commitArg, tenant := commitMay, claims := commitClaims, touch := touchOf commitClaims,
    body := fun p _ s => let r := commitNow (ownerOf p.src) (parGroup p) s; (r.1, .done r.2) }

def opCfgAbort : Op :=
  inertOp 0x0012 .none [(16, 4)] (fun _ p => argIf (groupOk (parGroup p))) anyTenant noTouch (fun p s =>
    let n := (commitEntries s (ownerOf p.src) (parGroup p)).length
    (dropEntries (ownerOf p.src) (parGroup p) s, outOk n))

/-! ### CFG_READ (Table 2.5, R47) -/

/-- CFG_READ: the 8 bytes that it writes for a staged copy that does not exist are a free value. (Log: DESIGN CHOICE, log entry 75.) -/
def opCfgRead : Op :=
  readOp 0x0013 [0, 1, 2, 3] 8 [(16, 9)]
    (fun _ p => if 1 < par p 24 1 then stBADARG else if objExists (par p 16 8) then 0 else stNOTFOUND)
    (fun s p => mayObj s p (par p 16 8)) (fun p s =>
      let o := par p 16 8
      if !portFieldOk s o then (s, outErr stNOTFOUND)
      else if par p 24 1 = 0 then (s, outData 1 (leBytes 8 (objVal s o)))
      else match s.ctl.staging.find? (fun e => e.obj == o) with
        | some e => (s, outData 1 (leBytes 8 e.value.toNat))
        | none => (advanceDraws 1 s, outData 0 (leBytes 8 (openDraw 25 s).toNat)))

/-! ### The Autopilot journal (R58) -/

/-- One entry is written; in a full ring it takes the place of the oldest. -/
def journalAdd (e : ApEntry) (s : State) : State :=
  let full := decide (4096 ≤ s.ctl.journal.length)
  { s with
    ctl.journal := (if full then s.ctl.journal.drop 1 else s.ctl.journal) ++ [e]
    ctl.apNext := s.ctl.apNext + 1
    ctl.apLost := if full then s.ctl.apLost + 1 else s.ctl.apLost }

def apBytes (e : ApEntry) : Bytes :=
  leBytes 4 e.fix.toNat ++ [byteN e.loop, byteN e.outcome, byteN e.rank, 0] ++ leBytes 8 e.obj ++ leBytes 8 e.old ++ leBytes 8 e.new

/-- The entries from START, oldest first. -/
def apFrom (s : State) (start : Nat) : List ApEntry :=
  let d := ns32 s.ctl.apNext.toNat start
  let h := s.ctl.journal.length
  if 1 ≤ d ∧ d ≤ h then s.ctl.journal.drop (h - d)
  else if h + 1 ≤ d ∧ d ≤ 2 ^ 31 then s.ctl.journal
  else []

def opApJournalRead : Op := readOp 0x0030 [0, 2, 3] 16 [(16, 4)] okArg anyTenant (fun p s =>
  let all := apFrom s (par p 16 4)
  let es := all.take ((p.paramLen.toNat - 16) / 32)
  let first := if es.isEmpty then s.ctl.apNext.toNat else ns32 s.ctl.apNext.toNat all.length
  (s, outData es.length (leBytes 4 first ++ leBytes 4 es.length ++ leBytes 4 s.ctl.apLost.toNat
    ++ leBytes 4 s.ctl.apNext.toNat ++ (es.map apBytes).flatten)))

/-! ### Ring 1's tenant set (R78) -/

def payTenants (o n : Nat) (p : CmdPkt) : List Nat := (List.range n).map (fun i => leAt (payBytes p) (o + 4 * i) 4)

/-- Ring 1's leases on groups of tenants that are no longer in the set end. -/
def tenantLeases (s : State) : List Lease :=
  s.ctl.leases.filter (fun l => l.owner == 1 && bitsOf l.group 28 4 == 1 && !(s.ctl.tenants.contains (bitsOf l.group 0 28)))

def opRingTenantSet : Op :=
  actOp 0x0040 [0] (.toDev 0 1024) [(16, 2)]
    (fun _ p => argIf (decide (par p 16 2 ≤ 256) && p.paramLen.toNat == 4 * par p 16 2
      && (payTenants 0 (min 256 (par p 16 2)) p).all (fun t => decide (t < 2 ^ 24))))
    (fun _ _ => [oid 16 0x100 0]) (fun p s =>
      let ts := dedupN (payTenants 0 (par p 16 2) p)
      let s := { s with ctl.tenants := ts }
      ((tenantLeases s).foldl (fun s l => endLease l.owner l.group s) s, outOk ts.length))

/-! ### In-band settings (R82, R83) -/

/-- Log: DEDUCED, log entry 26. -/
def opInbandKeySet : Op :=
  actOp 0x0041 [0] (.toDev 64 1088) [(16, 4)]
    (fun _ p => argIf (decide (par p 16 1 ≤ 15) && decide (par p 17 1 ≤ 2) && decide (par p 18 2 ≤ 256)
      && p.paramLen.toNat == 64 + 4 * par p 18 2 && isZeros (sliceB (payBytes p) 57 7)
      && (payTenants 64 (min 256 (par p 18 2)) p).all (fun t => decide (t < 2 ^ 24))))
    (fun _ p => [oid 16 0x101 (par p 16 1)]) (fun p s =>
      let i := par p 16 1
      let old := ((kfind s.ctl.ibKeys i).map (fun k => k.seqHigh)).getD 0
      let k : IbKey :=
        if par p 17 1 = 0 then { authority := 0, key := [], tenants := [], seqHigh := old }
        else { authority := par p 17 1, key := sliceB (payBytes p) 0 57, tenants := dedupN (payTenants 64 (par p 18 2) p),
               seqHigh := 0 }
      ({ s with ctl.ibKeys := kput s.ctl.ibKeys i k }, outOpen []))

def opInbandConfig : Op :=
  actOp 0x0042 [0] (.toDev 16 16) [(16, 1), (18, 10)]
    (fun _ p => argIf (decide (par p 16 1 ≤ 1) && (decide (par p 26 2 < 4096) || par p 26 2 == 0xFFFF)))
    (fun _ _ => [oid 16 0x102 0]) (fun p s =>
      ({ s with
         ctl.ibEnable := par p 16 1 == 1
         ctl.ibEthertype := BitVec.ofNat 16 (par p 18 2)
         ctl.ibMac := BitVec.ofNat 48 (beNat (sliceB (inlBytes p) 4 6))
         ctl.ibVlan := BitVec.ofNat 16 (par p 26 2)
         ctl.ibPorts := BitVec.ofNat 128 (leNat (payBytes p)) }, outOpen []))

end Sys2Proof.Machine
end

