-- ==== Sys2Proof/Machine/Sampler.lean ====
section
/-! DEFINITION. The Fix sampler and the presenting of commands: opcodes, steps of multi-Fix commands, objects that inputs
claim, resolution (R35, R37, R42 to R48, R473, R474), and the application of a resolved set (R40, R41). -/

namespace Sys2Proof.Machine

open Sys2Proof

/-! ### Opcodes (Tables 3.7 and 3.7a) -/

/-- Every opcode with its operands, checks and effect. -/
def allOps : List Op :=
  [opSysInfo, opCfgStage, opCfgCommit, opCfgAbort, opCfgRead, opLeaseTake, opLeaseRelease, opApJournalRead, opRingTenantSet,
   opInbandKeySet, opInbandConfig, opPortRead, opTimedArm, opTimedCancel, opTimedRead, opTimeCapRead, opTimeStatus, opTimeSet]
  ++ [opRulesetSwap, opRulesetStatus, opParseNodeWrite, opParseNodeRead, opClsEntryWrite, opClsEntryRead, opPmPatternWrite,
   opPmBuild, opPmCopy, opPipeStatsRead, opFlowInsert, opFlowDelete, opFlowModify, opFlowRead, opFlowPurgeTenant,
   opFlowStatsRead, opFlowEventRead, opFlowFind, opSkipStatusRead, opSkipStatsRead, opSkipTelemRead, opLbRead, opSkipRun,
   opSkipReset, opUcodeLoad, opUcodeInfo, opUcodeRead]
  ++ [opScStatusRead, opScStatsRead, opScPortStatsRead, opCaptureRingSet, opTmSampleRead, opTmQstatsRead, opTmPolRead,
   opTmStatsRead, opPoolStatsRead, opPoolAcctRead, opPoolAlloc, opPoolFree, opPoolOwnerRead, opHbmStatusRead, opHbmStatsRead,
   opArbStatsRead, opHbmRegionInfo, opHbmRetrain, opMeterStatsRead, opMeterCloseInfo, opBillingSign, opBillRingSet,
   opBillBlockRead]
  ++ [opPairStatusRead, opPairRole, opPairStatsRead, opPairResync, opPairHeadRead, opFaultLogRead, opFaultRelease,
   opFaultStatusRead, opFaultInjectUnlock, opFaultInject, opIsoTenantRead, opPowerStatusRead, opPowerPolicy, opChipReset,
   opAttest, opImageInfo, opImageStage, opImageAccept, opImageFlash, opImageFuse, opCertRead, opPerfRead, opMonRingSet,
   opMonStatsRead]

def opOf (code : Nat) : Option Op := allOps.find? (fun o => o.code == code)

/-! ### One command presented by itself -/

/-- A command with its place in ring order waits until the power manager has left the sleep state (R403). -/
def holdAt (ord code : Nat) (p : CmdPkt) (bufs : List Nat) (s : State) : State :=
  let c : Sched := { code := code, p := setPriv s p, target := s.clock.fix, bufs := bufs, ord := ord }
  orderExit { s with pwr.held := s.pwr.held ++ [c] }

/-- The command presented last waits for the exit (R403). -/
def holdForExit (code : Nat) (p : CmdPkt) (bufs : List Nat) (s : State) : State :=
  holdAt s.ctl.serial code p bufs { s with ctl.serial := s.ctl.serial + 1 }

/-- A ring or in-band command presented by itself: it is checked, and where it names no later Fix it takes effect at
the boundary of the Fix in progress and completes. (Log: DESIGN CHOICE, log entry 13.) -/
def runCommand (op : Op) (p : CmdPkt) (s : State) : State :=
  match checkCmd op p (promise p.src s) with
  | (.refused st, s) => flushCpls (complete op.code p (refusal st) s.clock.fix s)
  | (.held, s) => s
  | (.now bufs, s) => if needsExit s op.code then holdForExit op.code p bufs s else flushCpls (applyCmd op p bufs s)

/-! ### Steps of multi-Fix commands (R80) -/

/-- HBM_RETRAIN's only step: the outcome of the retraining (R319, R330). -/
def retrainUnit (m : Multi) (s : State) : State × MStep :=
  let c := pcOf s m.pos
  if c.mode = .retraining then (s, .more m)
  else if m.aux.getD 1 0 < c.trainFails then (s, .fin (outErrAt stFAULTED m.units))
  else (s, .fin (outOk (m.aux.getD 0 0)))

def multiUnit (m : Multi) (s : State) : State × MStep :=
  if m.code = 0x0404 then purgeUnit m s
  else if m.code = 0x0510 then ucodeUnit m s
  else if m.code = 0x0331 then pmBuildUnit m s
  else if m.code = 0x0332 then pmCopyUnit m s
  else if m.code = 0x0502 then skipRunUnit m s
  else if m.code = 0x0904 then retrainUnit m s
  else if m.code = 0x0E04 then acceptUnit m s
  else if m.code = 0x0E05 then flashUnit m s
  else signUnit m s

/-- The objects of a step. The later steps of SKIP_RUN claim nothing (R223); FLOW_PURGE_TENANT claims the buckets that it visits
again too (R191). -/
def stepClaims (s : State) (m : Multi) : List Obj :=
  if m.code = 0x0502 then [] else
  if m.code = 0x0404 then (if m.pos < sliceN s then (purgeBuckets s m.pos).map recObj else [])
    ++ (pairsOf (m.aux.drop 1)).map (fun x => recObj x.1)
  else if m.code = 0x0510 then (if ucStepDue m then (nextCluster m).toList.map ucObj else [])
  else match opOf m.code with
    | some op => op.claims s m.p
    | none => []

def multiOf (s : State) (slot : Nat) : Option Multi := s.ctl.multi.find? (fun m => m.slot == slot)

/-- A multi-Fix command ends: it leaves its slot, and its completion carries a boundary. -/
def endMulti (m : Multi) (o : CmdOut) (fix : FixNo) (s : State) : State :=
  let s := if m.code = 0x0502 then detachRun m.slot s else s
  let s := { s with ctl.multi := s.ctl.multi.filter (fun x => x.slot != m.slot) }
  complete m.code m.p o fix (freePayload m.bufs s)

/-- One step at its boundary. The signatures report the boundary of their snapshot. (Log: DEDUCED, log entry 19.) -/
def stepMulti (slot : Nat) (s : State) : State :=
  match multiOf s slot with
  | none => s
  | some m =>
    match multiUnit m s with
    | (s, .more m') => { s with ctl.multi := s.ctl.multi.map (fun x => if x.slot = slot then m' else x) }
    | (s, .fin o) =>
      let sign := m.code = 0x0A02 ∨ m.code = 0x0E01
      endMulti m o (if o.status = stOK ∧ ¬sign then s.clock.fix else m.lastFix) s

/-- A step that lost, or that a lease refuses: the command ends with the units done (R80). (Log: DEDUCED, log entry 19.) -/
def stepLost (slot status rank : Nat) (s : State) : State :=
  match multiOf s slot with
  | none => s
  | some m =>
    let o : CmdOut :=
      if m.units = 0 then { status := status, winRank := rank, result := 0, data := [] }
      else { status := stPARTIAL, winRank := 0, result := m.units, data := [] }
    endMulti m o (if m.units = 0 then s.clock.fix else m.lastFix) s

/-- MULTI_FIX_TIMEOUT: commands at the L-th boundary after their first one (R80). (Log: DEDUCED, log entry 19; DEDUCED, log entry 73.) -/
def doMultiFixTimeout (s : State) : State :=
  flushCpls ((s.ctl.multi.filter (fun m => decide (m.limit < m.count))).foldl
    (fun s m => endMulti m { status := stTIMEOUT, winRank := 0, result := m.units, data := [] } m.lastFix s) s)

/-! ### Claims (R42, R44, R473) -/

/-- Source of an input: rings 0 to 3, in-band 4, Autopilot loops from 8, timed slots from 16; the rest are hardware. (Log: DEDUCED, log entry 15.) -/
def srcOf (s : State) (i : Input) : Nat :=
  match i.body with
  | .cmd _ p _ => ownerOf p.src
  | .step slot => match multiOf s slot with
    | some m => ownerOf m.p.src
    | none => 103
  | .reaction _ => 100
  | .order _ => 101
  | .peerClaim _ _ => 102
  | .takeover _ => 102
  | .mirror _ => 102
  | .replay _ => 102
  | .timed n => 16 + n
  | .autopilot l _ _ _ => 8 + l
  | .pulseFall n _ => 16 + n

/-- The objects of a timed action (R117, R119, R120). -/
def timedClaims (s : State) (n : Nat) : List Obj :=
  let t := slotOf s n
  match t.kind with
  | .set => [t.obj]
  | .commit => (commitEntries s 0 t.obj).map (fun e => e.2.obj)
  | .role => ([1, 2].filter (fun h => t.obj.testBit (h - 1))).map roleObj
  | .minute => []
  | _ => [oid 11 0x101 t.pin]

/-- The objects that an input addresses. -/
def inputClaims (s : State) (i : Input) : List Obj :=
  match i.body with
  | .cmd code p _ => match opOf code with
    | some op => op.claims s p
    | none => []
  | .step slot => match multiOf s slot with
    | some m => stepClaims s m
    | none => []
  | .reaction m => [stateObj m.source.toNat m.cls.val]
  | .order (.chip _ _) => [0]
  | .order (.domainOn d) => [oid 18 0 d]
  | .order (.domainOff d) => [oid 18 0 d]
  | .order (.powerState t) => (orderDomains s t).map (fun d => oid 18 0 d)
  | .peerClaim h _ => [roleObj h]
  | .takeover h => [roleObj h]
  | .mirror e => evClaims s e
  | .replay e => evClaims s e
  | .timed n => timedClaims s n
  | .autopilot _ o _ _ => [o]
  | .pulseFall _ pin => [oid 11 0x101 pin]

/-- A field's index names the same kind of instance as the entity of its subsystem (R42): the queue fields do so for a queue. No
field is numbered by a power domain or by a microcode cluster, the entities that inputs address. -/
def entityField (sub fld : Nat) : Bool := sub == 7 && decide (1 ≤ fld) && decide (fld ≤ 7)

/-- Object a is an entity that holds b, or the whole device (R42). -/
def objWithin (a b : Obj) : Bool :=
  a == 0 || (objFld a == 0 && objSub a == objSub b && objIdx a == objIdx b && (objFld b == 0 || entityField (objSub b) (objFld b)))

/-- Two object IDs conflict. -/
def objMeet (a b : Obj) : Bool := a == b || objWithin a b || objWithin b a

abbrev Claimed := List (Obj × Nat × Nat)

/-- The rank that wins against an input: that of the accepted input that claimed the first of its objects in object-ID
order (R46); none where nothing has been claimed by another source. (Log: DEDUCED, log entry 15.) -/
def winner (cl : Claimed) (src : Nat) (objs : List Obj) : Option Nat :=
  (sortBy id objs).findSome? (fun o => (cl.find? (fun c => c.2.2 != src && objMeet c.1 o)).map (fun c => c.2.1))

/-- A later due input of the same source addresses an object of this one: the rule of R35 after a forward step. -/
def overtaken (s : State) (base : Nat) (all : List Input) (i : Input) : Bool :=
  let mine := inputClaims s i
  decide (i.rank ≠ 0 ∧ i.rank ≠ 1) && all.any (fun j => srcOf s j == srcOf s i
    && decide (fixSub i.due.toNat base < fixSub j.due.toNat base)
    && (inputClaims s j).any (fun o => mine.any (objMeet o)))

/-! ### Resolution -/

/-- What resolution carries: the state as the inputs accepted so far leave it, the claims, the resolved inputs. -/
structure Resolving where
  v : State
  claimed : Claimed
  out : List Resolved
  /-- Leases that ended at step 2: owner and group. -/
  ended : List (Nat × Nat)

/-- What makes a command BUSY at step 3 (R149, R183, R208): a rule-set swap still pending there, or the lock of its bucket. (Log: DEDUCED, log entry 76.) -/
def resolveBusy (v : State) (code : Nat) (p : CmdPkt) : Bool :=
  if code = 0x0300 ∨ code = 0x0320 ∨ code = 0x0330 ∨ code = 0x0331 ∨ code = 0x0332 then swapHolds v
  else if code = 0x0310 then v.cls.swap.isSome
  else if code = 0x0400 ∨ code = 0x0401 ∨ code = 0x0403 ∨ code = 0x0407 then lockedFor v (payKey p)
  else false

/-- A command's verdict, with the writes of a commit. (Log: DEDUCED, log entry 76.) -/
def judgeCmd (r : Resolving) (op : Op) (p : CmdPkt) (src : Nat) : Verdict × List (Obj × Nat) :=
  if !op.tenant r.v p || leaseBlocks r.v (ownerOf p.src) (op.touch r.v p) then (.refused stDENIED, [])
  else if op.code == 0x0011 && r.ended.contains (ownerOf p.src, parGroup p) then (.refused stDENIED, [])
  else if resolveBusy r.v op.code p then (.refused stBUSY, [])
  else match winner r.claimed src (op.claims r.v p) with
    | some k => (.superseded k, [])
    | none =>
      if op.code = 0x0011 then
        (match commitVerdict r.v (ownerOf p.src) (parGroup p) with
         | .error st => (.refused st, [])
         | .ok ws => (.accepted, ws))
      else (.accepted, [])

/-- A step's verdict: its objects may be leased meanwhile. The later steps of SKIP_RUN address none (R223). -/
def judgeStep (r : Resolving) (m : Multi) (src : Nat) : Verdict :=
  let touch := if m.code = 0x0502 then [] else match opOf m.code with
    | some op => op.touch r.v m.p
    | none => []
  if leaseBlocks r.v (ownerOf m.p.src) touch then .refused stDENIED
  else match winner r.claimed src (stepClaims r.v m) with
    | some k => .superseded k
    | none => .accepted

/-- A timed action's verdict, with the writes of a SET or a COMMIT: it counts as ring 0 (R119). (Log: DEDUCED, log entry 21.) -/
def judgeTimed (r : Resolving) (n : Nat) : Verdict × List (Obj × Nat) :=
  let t := slotOf r.v n
  let objs := timedClaims r.v n
  if leaseBlocks r.v 0 (objs.map (fun o => (objGroups r.v o, ring3Obj o))) then (.refused stDENIED, [])
  else match winner r.claimed (16 + n) objs with
    | some k => (.superseded k, [])
    | none =>
      match t.kind with
      | .set =>
        let ws := [(t.obj, t.value.toNat)]
        if notLv r.v t.obj t.value.toNat then (.refused stBADARG, [])
        else if !portFieldOk r.v t.obj then (.refused stNOTFOUND, [])
        else if genBanked t.obj && swapHolds r.v then (.refused stBUSY, [])
        else if activeCopy r.v t.obj then (.refused stBADARG, [])
        else if !cfgOk (writesCfg ws r.v) then (.refused stBADARG, [])
        else (.accepted, ws)
      | .commit =>
        if r.ended.contains (0, t.obj) then (.refused stDENIED, []) else
        (match commitVerdict r.v 0 t.obj with
         | .error st => (.refused st, [])
         | .ok ws => (.accepted, ws))
      | .role => if r.v.pair.st == .solo then (.refused stDENIED, []) else (.accepted, [])
      | _ => (.accepted, [])

/-- An input that only contends for its objects. (Log: DEDUCED, log entry 14.) -/
def contend (r : Resolving) (i : Input) : Verdict :=
  match winner r.claimed (srcOf r.v i) (inputClaims r.v i) with
  | some k => .superseded k
  | none => .accepted

/-- Log: DEDUCED, log entry 14; DEDUCED, log entry 16. -/
def judge (r : Resolving) (i : Input) : Verdict × List (Obj × Nat) :=
  if i.rank ≤ 1 then (.accepted, [])
  else match i.body with
    | .cmd code p _ => match opOf code with
      | some op => judgeCmd r op p (srcOf r.v i)
      | none => (.refused stBADOP, [])
    | .step slot => match multiOf r.v slot with
      | some m => (judgeStep r m (srcOf r.v i), [])
      | none => (.accepted, [])
    | .timed n => judgeTimed r n
    | .autopilot _ o _ _ =>
      if leaseBlocks r.v 99 [(objGroups r.v o, ring3Obj o)] then (.refused stDENIED, []) else (contend r i, [])
    | .mirror e => if evLocked r.v e then (.refused stBUSY, []) else (contend r i, [])
    | .replay e => if evLocked r.v e then (.refused stBUSY, []) else (contend r i, [])
    | _ => (contend r i, [])

/-- The state as an accepted input leaves it, for the inputs after it (R45, R474). (Log: DEDUCED, log entry 16.) -/
def foresee (i : Input) (ws : List (Obj × Nat)) (v : State) : State × Option CmdOut :=
  match i.body with
  | .cmd code p bufs => match opOf code with
    | none => (v, none)
    | some op =>
      if code = 0x0011 then
        let t := writesCfg ws (dropEntries (ownerOf p.src) (parGroup p) v)
        ({ t with ctl.changed := ws.map (fun w => w.1) ++ t.ctl.changed }, none)
      else if op.isRead then (v, none)
      else match op.body p bufs v with
        | (t, .done o) => (t, if op.inert then some o else none)
        | (t, _) => (t, none)
  | .timed n =>
    let t := if (slotOf v n).kind == .commit then dropEntries 0 (slotOf v n).obj v else v
    let u := writesCfg ws t
    ({ u with ctl.changed := ws.map (fun w => w.1) ++ u.ctl.changed }, none)
  | .autopilot _ o _ n => (objWrite o n v, none)
  | _ => (v, none)

/-- A timed action that a cancel of the sample has removed: it is not presented (R121). -/
def timedGone (v : State) (i : Input) : Bool :=
  match i.body with
  | .timed n => !((slotOf v n).armed && fixOf ((slotOf v n).target.toNat / 1024) == i.due)
  | _ => false

/-- One input of a sample; `land` is the Fix from which a forward step has come where the sample is that of its landing (R35). -/
def resolveOne (land : Option Nat) (all : List Input) (r : Resolving) (i : Input) : Resolving :=
  if timedGone r.v i then r
  else if land.any (fun base => overtaken r.v base all i) then
    { r with out := r.out ++ [{ inp := i, verdict := .superseded i.rank, writes := [], out := none }] }
  else match judge r i with
    | (.accepted, ws) =>
      let objs := inputClaims r.v i
      let src := srcOf r.v i
      let f := foresee i ws r.v
      { r with
        v := f.1
        claimed := r.claimed ++ objs.map (fun o => (o, i.rank, src))
        out := r.out ++ [{ inp := i, verdict := .accepted, writes := ws, out := f.2 }] }
    | (d, _) => { r with out := r.out ++ [{ inp := i, verdict := d, writes := [], out := none }] }

/-- Resolve inputs in the order of R43. -/
def resolveAll (land : Option Nat) (is : List Input) (r : Resolving) : Resolving :=
  is.foldl (fun r i => resolveOne land is r i) r

/-! ### The sample of a boundary (R37, R43) -/

/-- A held command as an input that is due at a boundary. -/
def schedInput (rank : Nat) (c : Sched) (due : FixNo) : Input :=
  { rank := rank, sub := c.ord, due := due, body := .cmd c.code c.p c.bufs }

/-- The multi-Fix commands of an owner that present a step at the boundary b. -/
def stepsOf (s : State) (b : FixNo) (owner rank : Nat) : List Input :=
  (s.ctl.multi.filter (fun m => ownerOf m.p.src == owner && decide (m.count < m.limit))).map (fun m =>
    { rank := rank, sub := m.ord, due := b, body := .step m.slot })

/-- Inputs of one command source: its steps at the boundary b, its commands that wait for b, and its held commands that are due,
in ring order (R43, R80). (Log: DEDUCED, log entry 19.) -/
def cmdInputs (s : State) (b : FixNo) (due : Sched → Bool) (steps fresh : Bool) (owner : Nat) : List Input :=
  let rank := if owner = 4 then 4 else 3
  let mine := fun (c : Sched) => ownerOf c.p.src == owner
  let q := s.ctl.queue.filter (fun i => match i.body with
    | .cmd code p _ => ownerOf p.src == owner && !needsExit s code
    | _ => false)
  sortBy (fun i => i.sub) ((if steps then stepsOf s b owner rank else [])
    ++ (if fresh then (s.pwr.held.filter (fun c => mine c && !needsExit s c.code)).map (fun c => schedInput rank c b) else [])
    ++ (s.ctl.sched.filter (fun c => mine c && due c && !needsExit s c.code)).map (fun c => schedInput rank c c.target)
    ++ (if fresh then q else []))

def ofRank (s : State) (k : Nat) : List Input := s.ctl.queue.filter (fun i => i.rank == k)

/-- The falling edges of accepted pulses that have still to rise in the Fix in progress (R120). -/
def fallsToCome (s : State) : List PinEdge :=
  s.ctl.apply.filterMap (fun r => match r.inp.body with
    | .timed n =>
      let t := slotOf s n
      let at_ := t.target.toNat % 1024
      if r.verdict == .accepted && r.inp.due == s.clock.fix && t.armed && (t.kind == .pinPulse || t.kind == .pinPeriodic)
          && decide (s.clock.sub.toNat ≤ at_) then
        some { slot := n, pin := t.pin, level := false, fall := true, time := s.clock.boundaries * 1024 + at_ + t.width }
      else none
    | _ => none)

/-- Timed actions due in a set of Fix numbers, and falling edges of pulses in the Fix that begins at the next boundary, of those
that have still to rise in this Fix too (R117, R120), in ascending slot number. (Log: DEDUCED, log entry 21.) -/
def timedInputs (s : State) (due : FixNo → Bool) (falls : Bool) : List Input :=
  let fixOfSlot := fun (t : TimedSlot) => fixOf (t.target.toNat / 1024)
  let acts := (s.mer.slots.filter (fun e => e.2.armed && due (fixOfSlot e.2))).map (fun e =>
    ({ rank := 6, sub := e.1, due := fixOfSlot e.2, body := .timed e.1 } : Input))
  let ends := ((s.mer.edges ++ fallsToCome s).filter (fun e => falls && e.fall && e.time / 1024 == s.clock.boundaries + 1)).map (fun e =>
    ({ rank := 6, sub := e.slot, due := s.clock.fix + 1, body := .pulseFall e.slot e.pin } : Input))
  sortBy (fun i => i.sub) (acts ++ ends)

/-- The place of an order within rank 1 (R43): resets, then orders that leave domains powered, then those that power them down. -/
def orderPlace (i : Input) : Nat :=
  match i.body with
  | .order (.chip _ _) => 0
  | .order (.domainOn _) => 1
  | .order (.powerState t) => if t ≤ 1 then 1 else 2
  | _ => 3

/-- The inputs of the sample of boundary b, in the order of R43: the held commands that are due, the timed actions of the Fix
numbers that are due, and with `fresh` what waits for the next boundary. (Log: DEDUCED, log entry 22.) -/
def inputsOf (s : State) (b : FixNo) (due : FixNo → Bool) (steps fresh : Bool) : List Input :=
  let fr := fun (is : List Input) => if fresh then is else []
  fr (ofRank s 0 ++ sortBy orderPlace (ofRank s 1) ++ ofRank s 2 ++ claimInputs s)
    ++ ([0, 1, 2, 3, 4].map (fun o => cmdInputs s b (fun c => due c.target) steps fresh o)).flatten
    ++ fr (mirrorInputs s) ++ timedInputs s due (steps && fresh) ++ fr (ofRank s 7)

/-- Every input of the next boundary's sample. -/
def sampleInputs (s : State) : List Input :=
  inputsOf s (s.clock.fix + 1) (fun f => f == s.clock.fix + 1) true true

/-- Held commands whose target boundary has come, and commands of the sample that need a sleeping domain, wait for the exit
(R403). -/
def holdSleepers (due : Sched → Bool) (s : State) : State :=
  let q := s.ctl.queue.filterMap (fun i => match i.body with
    | .cmd code p bufs => if needsExit s code then some (i.sub, code, p, bufs) else none
    | _ => none)
  let c := (s.ctl.sched.filter (fun c => due c && needsExit s c.code)).map (fun c => (c.ord, c.code, c.p, c.bufs))
  (c ++ q).foldl (fun s x => holdAt x.1 x.2.1 x.2.2.1 x.2.2.2 s) s

/-- The inputs of a sample leave the places where they waited: what is due in the scheduled store, and everything that waited for
the next boundary. -/
def takeInputs (due : Sched → Bool) (s : State) : State :=
  let s := holdSleepers due { s with pwr.held := s.pwr.held.filter (fun c => needsExit s c.code) }
  { s with
    ctl.queue := []
    ctl.sched := s.ctl.sched.filter (fun c => !due c)
    pair.takeover := false
    pair.rejoin := if s.pair.takeover then s.pair.rejoin else false }

/-- What the rings held at a function-level reset ends (R53, R86). -/
def flrStep (s : State) : State :=
  if !s.ctl.flr then s
  else
    let gone := s.ctl.multi.filter (fun m => fromRing m.p.src)
    let s := gone.foldl (fun s m => freePayload m.bufs (if m.code = 0x0502 then detachRun m.slot s else s)) s
    { s with
      ctl.flr := false
      ctl.multi := s.ctl.multi.filter (fun m => !fromRing m.p.src)
      ctl.staging := s.ctl.staging.filter (fun e => e.owner == 4)
      ctl.leases := s.ctl.leases.filter (fun l => l.owner == 4) }

/-- Report the inputs of a sample to the counters. -/
def countInputs (rs : List Resolved) (s : State) : State :=
  rs.foldl (fun s r =>
    let s := perfEvent 0x1001 5 0 0 r.inp.rank 1 s
    match r.verdict with
    | .superseded k => perfEvent 0x1002 5 0 0 k 1 s
    | _ => s) s

/-- The state on which the next boundary's inputs are judged: the Fix number is that of the boundary, and what changed
at the present one has now been so since an earlier boundary. (Log: DEDUCED, log entry 16.) -/
def nextView (s : State) : State :=
  portsAge { s with clock.fix := s.clock.fix + 1, ctl.changed := [] }

/-- A timed action of the present Fix whose instant is still to come keeps its verdict. -/
def laterEdge (s : State) (r : Resolved) : Bool :=
  match r.inp.body with
  | .timed n => r.inp.due == s.clock.fix && (slotOf s n).armed && decide (s.clock.sub.toNat ≤ (slotOf s n).target.toNat % 1024)
  | _ => false

/-- Steps 1 to 3 of Table 2.2 for the next boundary. -/
def closeSample (s : State) : State :=
  if !s.ctl.ready then { s with ctl.closed := true, ctl.apply := s.ctl.apply.filter (laterEdge s), ctl.claimed := [] }
  else
    let s := flrStep s
    let b := s.clock.fix + 1
    let over_ := s.ctl.leases.filter (leaseOver b.toNat)
    let s := over_.foldl (fun s l => expireLease l s) s
    let due := fun (c : Sched) => c.target == b
    let is := sampleInputs s
    let s := takeInputs due s
    let r := resolveAll none is
      { v := nextView s, claimed := [], out := [], ended := over_.map (fun l => (l.owner, l.group)) }
    countInputs r.out { s with
      ctl.closed := true
      ctl.apply := r.out ++ s.ctl.apply.filter (laterEdge s)
      ctl.claimed := r.claimed
      ctl.staging := r.v.ctl.staging
      ctl.leases := r.v.ctl.leases }

/-- SAMPLE_CLOSE (R37): TIME_NS[9:0] reaches 896. -/
def doSampleClose (s : State) : State :=
  if !s.boot.sysRst || s.ctl.closed then s else closeSample (atNs 896 s)

/-! ### Application at step 5 (R41) -/

/-- Block resets of Table 16.5. -/
def unitReset (m : FaultMsg) (s : State) : State :=
  let a := m.addr.toNat
  let src := m.source.toNat
  if src = 0x01 then
    (let p := a % 128
     if isPort s p && (portOf s p).st != .disabled then portRestart p s else s)
  else if src = 0x07 then loseEngine (a % 512) (.quiet 7) s
  else if src = 0x08 then
    (let c := a / 2 ^ 16 % 32
     if m.kind.toNat = 2 ∨ m.kind.toNat = 4 then modCluster c (fun k => { k with state := 2 }) s else s)
  else if src = 0x0C then
    (let p := 6 * (a / 2 ^ 32 % 32) + a / 2 ^ 37
     if p < 192 then startRetrain p s else s)
  else if src = 0x10 then (if pairUp s then wantPair .resync s else s)
  else if src = 0x11 then binnacleRestart s
  else if src = 0x14 then hostReset s
  else s

/-- An accepted read waits until the apply set is in force (R47). (Log: DEDUCED, log entry 76.) -/
def deferRead (r : Resolved) (s : State) : State :=
  { s with ctl.reads := s.ctl.reads ++ [(s.ctl.cpls.length, s.clock.fix, r)] }

/-- A waiting read is carried out on the values in force. -/
def runRead (fix : FixNo) (r : Resolved) (s : State) : State :=
  match r.inp.body with
  | .cmd code p bufs => match opOf code with
    | none => s
    | some op => match op.body p bufs s with
      | (t, .done o) =>
        if p.paramLen.toNat < o.data.length then complete op.code p (outErr stBADARG) fix (freePayload bufs s)
        else complete op.code p o fix (freePayload bufs t)
      | (t, _) => t
  | _ => s

/-- The reads of the boundary, after every change that it brings (R47); their completions stand in ring order among the
others (R75). (Log: DEDUCED, log entry 76.) -/
def readStep (s : State) : State :=
  (s.ctl.reads.foldl (fun (x : Nat × State) (e : Nat × FixNo × Resolved) =>
    let n := x.2.ctl.cpls.length
    let t := runRead e.2.1 e.2.2 x.2
    let old := t.ctl.cpls.take n
    let new := t.ctl.cpls.drop n
    let k := e.1 + x.1
    (x.1 + new.length, { t with ctl.cpls := old.take k ++ new ++ old.drop k })) (0, { s with ctl.reads := [] })).2

/-- A command of the sample at its boundary. -/
def applyInput (code : Nat) (p : CmdPkt) (bufs : List Nat) (r : Resolved) (s : State) : State :=
  match opOf code with
  | none => s
  | some op =>
    match r.verdict with
    | .refused st => finishCmd op p bufs (if op.isMulti then outErrAt (st % 256) 0 else refusal st) s
    | .superseded k => finishCmd op p bufs { ended op stSUPERSEDED with winRank := k } s
    | .accepted =>
      match r.out with
      | some o => finishCmd op p bufs o s
      | none =>
        if op.isRead then deferRead r s
        else if code = 0x0011 then finishCmd op p bufs (outOk r.writes.length) (applyWrites r.writes s)
        else
          match op.body p bufs s with
          | (t, .done o) =>
            if p.paramLen.toNat < o.data.length then finishCmd op p bufs (ended op stBADARG) s
            else finishCmd op p bufs o t
          | (t, .multi m) => { t with ctl.multi := t.ctl.multi ++ [{ m with ord := r.inp.sub }] }
          | (t, .wait) => t

/-- A decision of Autopilot at its boundary, with its journal entry (Tables 2.4 and 2.7). -/
def applyAutopilot (loop : Nat) (o : Obj) (old new : Nat) (d : Verdict) (s : State) : State :=
  let e : ApEntry := { fix := s.clock.fix, loop := loop, outcome := stOK, rank := 0, obj := o, old := old, new := new }
  match d with
  | .accepted => journalAdd e (applyWrites [(o, new)] s)
  | .superseded k => journalAdd { e with outcome := stSUPERSEDED, rank := k } s
  | .refused st => journalAdd { e with outcome := st } s

/-- The kind's number in Table 5.5; the minute action has none. (Log: DEDUCED, log entry 21.) -/
def kindNumber (k : ActKind) : Nat :=
  match k with
  | .pinLevel => 1
  | .pinPulse => 2
  | .pinPeriodic => 3
  | .set => 4
  | .commit => 5
  | .role => 6
  | .minute => 0

/-- What an accepted action does. -/
def timedEffect (n late : Nat) (ws : List (Obj × Nat)) (s : State) : State :=
  let t := slotOf s n
  match t.kind with
  | .set => applyWrites ws s
  | .commit => applyWrites ws s
  | .role => roleApply t.obj t.value.toNat s
  | .minute => s
  | _ => driveEdges (fun e => e.slot == n && decide (e.time ≤ monoNs s)) (placeEdges n late s)

/-- The action ends with its verdict. -/
def timedEnd (n late : Nat) (d : Verdict) (ws : List (Obj × Nat)) (s : State) : State :=
  match d with
  | .accepted => slotDone n stOK 0 late (timedEffect n late ws s)
  | .superseded k => slotDone n stSUPERSEDED k late s
  | .refused st => slotDone n (st % 256) 0 late s

/-- A timed action in the apply set. SET, COMMIT, ROLE and the minute action take effect at the boundary (R117, R124), and so
does the pin edge of an action that a step passed over (R122); the edge of any other pin action is placed within the Fix and
waits for TIMED_ACTION_FIRE. (Log: DEDUCED, log entry 21.) -/
def applyTimed (n : Nat) (r : Resolved) (s : State) : State :=
  let t := slotOf s n
  let late := fixSub (fixN s) (t.target.toNat / 1024)
  if !t.armed || fixOf (t.target.toNat / 1024) != r.inp.due || (isPinKind t.kind && late == 0) then s
  else
    let s := perfEvent 0x0B01 5 0 n (kindNumber t.kind) 1 s
    if t.kind = .minute then minuteFire n s else timedEnd n late r.verdict r.writes s

/-- One resolved input; the objects of deferred events go with the state. -/
def applyOne (x : List Obj × State) (r : Resolved) : List Obj × State :=
  let (late, s) := x
  if !s.ctl.ready then x
  else match r.inp.body with
    | .cmd code p bufs => (late, applyInput code p bufs r s)
    | .step slot => (match r.verdict with
      | .accepted => (late, stepMulti slot s)
      | .superseded k => (late, stepLost slot stSUPERSEDED k s)
      | .refused st => (late, stepLost slot st 0 s))
    | .reaction m => (late, react unitReset m (r.inp.due - 1) (if reactionWakes s m then orderExit s else s))
    | .order (.chip cause src) => (late, chipReset cause src s)
    | .order (.powerState t) => (late, powerOrder t s)
    | .order (.domainOn d) => (late, domainOrder d true s)
    | .order (.domainOff d) => (late, domainOrder d false s)
    | .peerClaim h e => (late, if r.verdict = .accepted then peerClaimApply h e s else peerClaimLost h e s)
    | .takeover h => (late, if r.verdict = .accepted then takeoverApply h s else s)
    | .mirror e => if r.verdict = .accepted then mirrorTake e x else (evClaims s e ++ late, deferRx e.seq s)
    | .replay e => if r.verdict = .accepted then replayTake e x else (evClaims s e ++ late, s)
    | .timed n => (late, applyTimed n r s)
    | .autopilot l o old new => (late, applyAutopilot l o old new r.verdict s)
    | .pulseFall _ _ => x

/-- Switch to the resolved set. -/
def applySet (rs : List Resolved) (s : State) : State := (rs.foldl applyOne ([], s)).2

end Sys2Proof.Machine
end

