-- ==== Sys2Proof/Machine/Settle.lean ====
section
/-! DEFINITION. What every command and event ends with: the level of the two fault pins (R457). -/

namespace Sys2Proof.Machine

open Sys2Proof

/-- The fault pins follow the fault states. -/
def settle (s : State) : State := { s with lod.isoFault := (pinsNow s).1, lod.errN := (pinsNow s).2 }

/-- The pins agree with the fault states. -/
def Settled (s : State) : Prop := s.lod.isoFault = (pinsNow s).1 ∧ s.lod.errN = (pinsNow s).2

/-- A command or event is complete. -/
def finish (s : State) : Host.Outcome State Fault Refusal := .next (settle s)

end Sys2Proof.Machine
end

