-- ==== Sys2Proof/Machine/RowsBoot.lean ====
section
/-! DEFINITION. The meanings of the rows of start-up, reset pins, JTAG (chapters 18 and 21): each command or event with the level of the fault pins
that follows. -/

namespace Sys2Proof.Machine

open Sys2Proof

/-- ATTEST (R429): Signs an attestation report over the nonce and running state. -/
def execAttest (p : CmdPkt) (s : State) : Host.Outcome State Fault Refusal := finish (runCommand opAttest p s)

/-- IMAGE_INFO (R430): Returns running and staged image information. -/
def execImageInfo (p : CmdPkt) (s : State) : Host.Outcome State Fault Refusal := finish (runCommand opImageInfo p s)

/-- IMAGE_STAGE (R431): Writes image bytes into the HBM staging area. -/
def execImageStage (p : CmdPkt) (s : State) : Host.Outcome State Fault Refusal := finish (runCommand opImageStage p s)

/-- IMAGE_ACCEPT (R431): Runs the image checks on the staged image and keeps it as accepted. -/
def execImageAccept (p : CmdPkt) (s : State) : Host.Outcome State Fault Refusal := finish (runCommand opImageAccept p s)

/-- IMAGE_FLASH (R431): Writes the accepted image to the non-booted flash slot and verifies it. -/
def execImageFlash (p : CmdPkt) (s : State) : Host.Outcome State Fault Refusal := finish (runCommand opImageFlash p s)

/-- CHIP_RESET (R416): Completes OK and then presents a rank-1 chip reset order. -/
def execChipReset (p : CmdPkt) (s : State) : Host.Outcome State Fault Refusal := finish (runCommand opChipReset p s)

/-- IMAGE_FUSE (R432): Blows rollback fuses up to the running epoch and revokes signer slots. -/
def execImageFuse (p : CmdPkt) (s : State) : Host.Outcome State Fault Refusal := finish (runCommand opImageFuse p s)

/-- CERT_READ (R428): Returns the device and CA certificates. -/
def execCertRead (p : CmdPkt) (s : State) : Host.Outcome State Fault Refusal := finish (runCommand opCertRead p s)

/-- PERST_N_RELEASE (R465): Release of PERST_N starts link training and the configuration-response interval. -/
def execPerstNRelease (s : State) : Host.Outcome State Fault Refusal :=
  finish (doPerstNRelease s)

/-- BOOT_GO (R422): Setting GO starts a push of the image at GLB_BOOT_ADDR of GLB_BOOT_LEN bytes. -/
def execBootGo (s : State) : Host.Outcome State Fault Refusal :=
  finish (doBootGo s)

/-- POWER_ON (R463): VDD_AON comes up and the always-on domain starts as at power-on. -/
def execPowerOn (s : State) : Host.Outcome State Fault Refusal :=
  finish (doPowerOn s)

/-- VDD_AON_LOSS (R463): VDD_AON falls below 0.65 V, clearing the GRAVE and FACTORY latches and the recovery history. -/
def execVddAonLoss (s : State) : Host.Outcome State Fault Refusal :=
  finish (doVddAonLoss s)

/-- SYS_RST_ASSERT (R415): SYS_RST_N is asserted and the device enters chip reset. -/
def execSysRstAssert (s : State) : Host.Outcome State Fault Refusal :=
  finish (doSysRstAssert s)

/-- SYS_RST_RELEASE (R417): SYS_RST_N is released, the straps are sampled and start-up begins with the ROM tests. -/
def execSysRstRelease (bootSrc : BitVec 2) (ftest : Bool) (pairPresent : Bool) (s : State) :
    Host.Outcome State Fault Refusal :=
  finish (doSysRstRelease bootSrc ftest pairPresent s)

/-- BOOT_ROM_TEST_DONE (R417): The ROM tests of OTP, the identity key and the random source end, and image reading begins or the device halts. -/
def execBootRomTestDone (otpBad : Option (BitVec 12)) (keyOk : Bool) (rngBad : Option (BitVec 4)) (s : State) :
    Host.Outcome State Fault Refusal :=
  finish (doBootRomTestDone otpBad keyOk rngBad s)

/-- IMAGE_HEADERS_READ (R421): The flash slot headers are read and checked, and the slot to try first is chosen. -/
def execImageHeadersRead (a : Option Bytes) (b : Option Bytes) (s : State) : Host.Outcome State Fault Refusal :=
  finish (doImageHeadersRead a b s)

/-- IMAGE_BODY_READ_DONE (R423): The last body byte arrives, and the image is accepted or rejected. -/
def execImageBodyReadDone (body : Option Bytes) (s : State) : Host.Outcome State Fault Refusal :=
  finish (doImageBodyReadDone body s)

/-- BINNACLE_STARTED (R417): Binnacle has started from the firmware section and HBM start-up begins. -/
def execBinnacleStarted (s : State) : Host.Outcome State Fault Refusal :=
  finish (doBinnacleStarted s)

/-- STARTUP_HBM_DONE (R417): Training, flow-table zeroing, seeding and AGE_NOW setting end, and microcode loading begins. -/
def execStartupHbmDone (dead : List (Fin 192)) (s : State) : Host.Outcome State Fault Refusal :=
  finish (doStartupHbmDone dead s)

/-- REFCLK_SDS_LOSS (R467): Loss of a SerDes reference clock stops its lanes until the clock returns. -/
def execRefclkSdsLoss (clk : Fin 2) (ns : BitVec 10) (s : State) : Host.Outcome State Fault Refusal :=
  finish (doRefclkSdsLoss clk ns s)

/-- BYPASS (R468): The JTAG BYPASS instruction selects the bypass register. -/
def execBypass (s : State) : Host.Outcome State Fault Refusal :=
  finish (doBypass s)

/-- IDCODE (R468): The JTAG IDCODE instruction shifts out the device identification code. -/
def execIdcode (s : State) : Host.Outcome State Fault Refusal :=
  finish (doIdcode s)

/-- SAMPLE_PRELOAD (R468): The JTAG SAMPLE/PRELOAD instruction samples or preloads the boundary-scan register. -/
def execSamplePreload (bits : Bytes) (s : State) : Host.Outcome State Fault Refusal :=
  finish (doSamplePreload bits s)

/-- EXTEST (R468): The JTAG EXTEST instruction drives pins, only while halted with reason STRAP. -/
def execExtest (s : State) : Host.Outcome State Fault Refusal :=
  finish (doExtest s)

/-- CLAMP (R468): The JTAG CLAMP instruction holds pins, only while halted with reason STRAP. -/
def execClamp (s : State) : Host.Outcome State Fault Refusal :=
  finish (doClamp s)

/-- HIGHZ (R468): The JTAG HIGHZ instruction tristates pins, only while halted with reason STRAP. -/
def execHighz (s : State) : Host.Outcome State Fault Refusal :=
  finish (doHighz s)

/-- REFCLK_SDS_RESTORED (R467): A lost REFCLK_SDS0 or REFCLK_SDS1 returns, and the lanes it serves retrain without reset. -/
def execRefclkSdsRestored (clk : Fin 2) (s : State) : Host.Outcome State Fault Refusal :=
  finish (doRefclkSdsRestored clk s)

end Sys2Proof.Machine
end

