-- ==== Sys2Proof/Machine/RowsClassify.lean ====
section
/-! DEFINITION. The meanings of the rows of parsing and classification (chapter 6): each command or event with the level of the fault pins
that follows. -/

namespace Sys2Proof.Machine

open Sys2Proof

/-- GEN_DRAIN_STUCK (R150): The old-generation count is still nonzero 65,536 boundaries after a flip, and GEN_DRAIN_STUCK is raised. -/
def execGenDrainStuck (s : State) : Host.Outcome State Fault Refusal :=
  finish (doGenDrainStuck s)

/-- PARSE_NODE_WRITE (R155): Writes parse-graph node records into the inactive generation. -/
def execParseNodeWrite (p : CmdPkt) (s : State) : Host.Outcome State Fault Refusal := finish (runCommand opParseNodeWrite p s)

/-- PARSE_NODE_READ (R155): Returns the 64 node records of one pipeline and generation. -/
def execParseNodeRead (p : CmdPkt) (s : State) : Host.Outcome State Fault Refusal := finish (runCommand opParseNodeRead p s)

/-- RULESET_SWAP (R148): Flips ACTIVE_GEN for all pipelines and stays pending until the old generation drains. -/
def execRulesetSwap (p : CmdPkt) (s : State) : Host.Outcome State Fault Refusal := finish (runCommand opRulesetSwap p s)

/-- RULESET_STATUS (R155): Returns ACTIVE_GEN, the pending flag, the old-generation count and the Fix of the last flip. -/
def execRulesetStatus (p : CmdPkt) (s : State) : Host.Outcome State Fault Refusal := finish (runCommand opRulesetStatus p s)

/-- CLS_ENTRY_WRITE (R147): Writes classifier entries or generation masks, all or none. -/
def execClsEntryWrite (p : CmdPkt) (s : State) : Host.Outcome State Fault Refusal := finish (runCommand opClsEntryWrite p s)

/-- CLS_ENTRY_READ (R155): Returns classifier entries of a stage. -/
def execClsEntryRead (p : CmdPkt) (s : State) : Host.Outcome State Fault Refusal := finish (runCommand opClsEntryRead p s)

/-- PM_PATTERN_WRITE (R155): Writes or deletes patterns of the inactive pattern bank. -/
def execPmPatternWrite (p : CmdPkt) (s : State) : Host.Outcome State Fault Refusal := finish (runCommand opPmPatternWrite p s)

/-- PM_BUILD (R156): Compiles the inactive pattern bank as a multi-Fix command. -/
def execPmBuild (p : CmdPkt) (s : State) : Host.Outcome State Fault Refusal := finish (runCommand opPmBuild p s)

/-- PM_COPY (R156): Copies the active pattern bank and automaton into the inactive bank. -/
def execPmCopy (p : CmdPkt) (s : State) : Host.Outcome State Fault Refusal := finish (runCommand opPmCopy p s)

/-- PIPE_STATS_READ (R155): Returns the ten drop and scan counters of a pipeline. -/
def execPipeStatsRead (p : CmdPkt) (s : State) : Host.Outcome State Fault Refusal := finish (runCommand opPipeStatsRead p s)

/-- PARSE_START (R129): With 2,048 bytes or the whole frame received, the first pass starts: generation fixed, parse and stages 1 to 6. -/
def execParseStart (pk : Nat) (bad : Option (Fin 12)) (laneFree : Bool) (s : State) :
    Host.Outcome State Fault Refusal :=
  finish (doParseStart pk bad laneFree s)

/-- RECIRC_PASS_START (R144): A packet is taken from the recirculation port ahead of new ingress and starts its next pass. -/
def execRecircPassStart (pipe : Fin 4) (bad : Option (Fin 12)) (laneFree : Bool) (s : State) :
    Host.Outcome State Fault Refusal :=
  finish (doRecircPassStart pipe bad laneFree s)

/-- STAGE12_EXIT (R142): A packet ends a pass: it is dropped, recirculated or passed to policing and admission. -/
def execStage12Exit (pk : Nat) (ns : BitVec 10) (s : State) : Host.Outcome State Fault Refusal :=
  finish (doStage12Exit pk ns s)

end Sys2Proof.Machine
end

