-- ==== Sys2Proof/Machine/RowsCounters.lean ====
section
/-! DEFINITION. The meanings of the rows of counters and Monarch (chapter 19): each command or event with the level of the fault pins
that follows. -/

namespace Sys2Proof.Machine

open Sys2Proof

/-- PERF_READ (R437): Returns latched counter values, optionally clearing them. -/
def execPerfRead (p : CmdPkt) (s : State) : Host.Outcome State Fault Refusal := finish (runCommand opPerfRead p s)

/-- MON_RING_SET (R442): Configures, enables or disables the Monarch host ring. -/
def execMonRingSet (p : CmdPkt) (s : State) : Host.Outcome State Fault Refusal := finish (runCommand opMonRingSet p s)

/-- MON_STATS_READ (R444): Returns Monarch counters. -/
def execMonStatsRead (p : CmdPkt) (s : State) : Host.Outcome State Fault Refusal := finish (runCommand opMonStatsRead p s)

/-- PERF_VAL_LO_READ (R438): A 4-byte read of a counter's low word latches its high word. -/
def execPerfValLoRead (counter : BitVec 8) (s : State) : Host.Outcome State Fault Refusal :=
  finish (doPerfValLoRead counter s)

/-- MON_RECORD_DELIVER (R442): Finished Monarch records pass from the FIFO to the Monarch host ring. -/
def execMonRecordDeliver (s : State) : Host.Outcome State Fault Refusal :=
  finish (doMonRecordDeliver s)

end Sys2Proof.Machine
end

