-- ==== Sys2Proof/Machine/Timed.lean ====
section
/-! DEFINITION. Timed actions at their targets (R117 to R122), and fault messages as they reach Lodestar (R379). -/

namespace Sys2Proof.Machine

open Sys2Proof

/-! ### TIMED_ACTION_FIRE -/

/-- The verdict that the sample of the action's boundary gave it. An action whose boundary was stepped over is judged
here against the claims of its rank and above. (Log: DEDUCED, log entry 21.) -/
def timedVerdict (n : Nat) (s : State) : (Verdict × List (Obj × Nat)) × State :=
  let due := fixOf ((slotOf s n).target.toNat / 1024)
  match s.ctl.apply.find? (fun r => r.inp.body == .timed n && r.inp.due == due) with
  | some r => ((r.verdict, r.writes), s)
  | none =>
    let cl := s.ctl.claimed.filter (fun c => decide (c.2.1 ≤ 6))
    let d := judgeTimed { v := s, claimed := cl, out := [], ended := [] } n
    let mine := (timedClaims s n).map (fun o => (o, 6, 16 + n))
    let t := slotOf s n
    match d.1 with
    | .accepted =>
      let s := if t.kind == .commit then dropEntries 0 t.obj s else s
      (d, { s with ctl.claimed := s.ctl.claimed ++ mine })
    | _ => (d, s)

/-- TIMED_ACTION_FIRE: an action that its boundary has not carried out already. (Log: DEDUCED, log entry 21.) -/
def doTimedActionFire (slot : Fin 64) (ns : BitVec 10) (s : State) : State :=
  let n := slot.val
  let s := atNs ns s
  let t := slotOf s n
  let late := fixSub (fixN s) (t.target.toNat / 1024)
  if !t.armed || decide (2 ^ 21 ≤ late) then s
  else
    let s := perfEvent 0x0B01 5 0 n (kindNumber t.kind) 1 s
    if t.kind = .minute then fireMinute n s
    else
      let (d, s) := timedVerdict n s
      timedEnd n late d.1 d.2 s

/-! ### FAULT_MESSAGE -/

/-- The part of a queue's copies that TM_MAP_ECC_UNCORR flushes (Table 11.6): each is discarded as in a flush. -/
def flushQueue (q : Nat) : Nat → State → State
  | 0, s => s
  | n + 1, s =>
    if (queueOf s q).copies.isEmpty then s
    else flushQueue q n (discardHead q 4 (fun p => modScPort p (fun k => { k with flushDrop := k.flushDrop + 1 })) s)

/-- A buffer of a pool goes to owner 0xFFF for good (R305). A free one is charged to the account of that owner. (Log: DEDUCED, log entry 49.) -/
def quarantine (ref : Nat) (s : State) : State :=
  if poolSize s (refPool ref) ≤ refIdx ref then s
  else
    let held := (kfind s.pools.alloc ref).isSome
    let s := { s with pools.alloc := kput s.pools.alloc ref 0xFFF }
    if held then s else modAcct (acctOf 0xFFF) (refPool ref) (fun k => { k with use := k.use + 1 }) s

/-- The head of a list of requests is lost to a fault of the queue that holds it: it completes FAULTED (R331). -/
def faultRequest (port : Nat) (q : List HbmReq) (s : State) : State :=
  match q with
  | [] => s
  | r :: _ => hbmAnswer port r true [] s

/-- A fault of the controllers and arbiters (Table 13.8): the request that it hits completes FAULTED. Which of the queued requests it hits
is not in the message: the model takes the oldest. (Log: DEDUCED, log entry 50.) -/
def hbmFault (src kind a : Nat) (s : State) : State :=
  let p := 6 * (a / 2 ^ 32 % 32) + a / 2 ^ 37
  let c := pcOf s p
  if 6 ≤ a / 2 ^ 37 then s
  else if src = 0x0D then
    let port := a % 64
    let st := stackOf s (a / 2 ^ 37)
    let q := kget [] st.queues port
    faultRequest port q (modStack (a / 2 ^ 37) (fun k => { k with queues := kmod [] k.queues port (fun q => q.drop 1) }) s)
  else if kind = 3 then
    match c.flight with
    | [] => s
    | f :: rest => hbmAnswer f.entry.port f.entry.req true [] (modPc p (fun c => { c with flight := rest }) s)
  else
    match (bankOfPc c (a % 16)).queue with
    | [] => s
    | e :: _ => hbmAnswer e.port e.req true [] (modPc p (setBank (a % 16) (fun k => { k with queue := k.queue.drop 1 })) s)

/-- A fault of the switch core's words (Table 10.9): a broken queue link flushes its queue, the frame of a broken frame reference at the
head of its queue is discarded, and so are the copies that frames in a replicator have under a broken multicast entry. -/
def switchFault (kind a : Nat) (s : State) : State :=
  if kind = 3 then
    let q := a / 2 ^ 19 % 2 ^ 17
    flushQueue q (queueOf s q).copies.length s
  else if kind = 4 then
    discardHead (a % 2 ^ 17) 6 (fun p => modScPort p (fun k => { k with badDiscard := k.badDiscard + 1 })) s
  else if kind = 5 then
    let i := a % 2 ^ 17
    let under := fun (k : Pkt) (m : Nat × Bool) =>
      if a.testBit 17 then pget k bDEST % 65536 == i else m.1 == bitsOf (objVal s (oid 6 0xD i)) 0 17
    { s with sw.pkts := s.sw.pkts.map (fun e =>
        (e.1, if e.2.stage == .replicate then { e.2 with members := e.2.members.filter (fun m => !under e.2 m) } else e.2)) }
  else s

/-- What a fault found by hardware does in its block before its message arrives. -/
def faultEffect (m : FaultMsg) (s : State) : State :=
  let a := m.addr.toNat
  let src := m.source.toNat
  let kind := m.kind.toNat
  let q := a % 2 ^ 17
  if src = 0x03 ∧ kind = 3 then rowWrong a s
  else if src = 0x06 ∧ kind = 2 then wayGone (a / 2 ^ 38) (bitsOf a 4 14) (some (a % 16)) s
  else if src = 0x09 then switchFault kind a s
  else if src = 0x07 ∧ 2 ≤ kind ∧ kind ≤ 4 then loseEngine (a % 512) (.quiet 7) s
  else if src = 0x08 ∧ kind = 2 then modCluster (a / 2 ^ 16 % 32) (fun k => { k with state := 2 }) s
  else if src = 0x0A ∧ kind = 2 then
    setField 7 1 q 7 1 0 (flushQueue q (queueOf s q).copies.length s)
  else if src = 0x0A ∧ kind = 3 then
    modQueue q (fun k => { k with peakUsed := k.peakUsed + peakTokens s q, commUsed := k.commUsed + commTokens s q, deficit := 0 }) s
  else if src = 0x0A ∧ kind = 4 then
    { s with sw.pol := kmod policerReset s.sw.pol (a % 2 ^ 18) (fun k => { k with used := k.used + polTokens s (a % 2 ^ 18) }) }
  else if src = 0x0A ∧ kind = 5 then modQueue q (fun k => { k with sample := 0 }) s
  else if src = 0x0B ∧ kind = 5 then
    quarantine a s
  else if (src = 0x0C ∧ (kind = 3 ∨ kind = 7)) ∨ (src = 0x0D ∧ kind = 2) then hbmFault src kind a s
  else if src = 0x0C ∧ kind = 5 ∧ a / 2 ^ 37 < 6 then modPc (6 * (a / 2 ^ 32 % 32) + a / 2 ^ 37) (fun c => { c with mode := .dead }) s
  else if src = 0x0F ∧ kind = 2 then meterEccUncorr (a.testBit 18) (a % 2 ^ 18) s
  else if src = 0x10 ∧ kind = 8 then (if pairUp s then wantPair .resync s else s)
  else if src = 0x15 ∧ kind = 7 then
    (match isoEntryTenant s (a % 2 ^ 16) with
     | some t => { s with lod.isoBad := t :: s.lod.isoBad }
     | none => s)
  else s

/-- A word that FAULT_INJECT damaged is found: its message carries INJECTED (R395). (Log: DESIGN CHOICE, log entry 57.) -/
def foundInjected (m : FaultMsg) (s : State) : FaultMsg × State :=
  match s.lod.damage.find? (fun d => d.source == m.source && d.addr == m.addr) with
  | some d => ({ m with injected := true }, { s with lod.damage := s.lod.damage.filter (fun x => x != d) })
  | none => (m, s)

/-- A message arrives, and is counted where it is recorded. -/
def arriveCounted (m : FaultMsg) (s : State) : State :=
  let s := if s.lod.inFix.contains (m.source.toNat, m.kind.toNat) then s
    else perfEvent 0x0E01 5 m.source.toNat m.kind.toNat m.cls.val 1 s
  arrive m s

/-- FAULT_MESSAGE (R379): the oldest message that a block has sent arrives, or a fault that hardware finds, of a defined
kind and with its kind's class. (Log: DESIGN CHOICE, log entry 57.) -/
def doFaultMessage (m : Option FaultMsg) (s : State) : State :=
  if !s.boot.sysRst then s
  else match m with
    | none => (match s.lod.wire with
      | [] => s
      | w :: rest => arriveCounted w { s with lod.wire := rest })
    | some m => (match kindClass m.source.toNat m.kind.toNat with
      | none => s
      | some c =>
        let (m, s) := foundInjected { m with cls := Fin.ofNat 4 c, injected := false } s
        arriveCounted m (faultEffect m s))

end Sys2Proof.Machine
end

