-- ==== Sys2Proof/Machine/RowsFaults.lean ====
section
/-! DEFINITION. The meanings of the rows of faults (chapter 16): each command or event with the level of the fault pins
that follows. -/

namespace Sys2Proof.Machine

open Sys2Proof

/-- QUIET_PERIOD_END (R389): A fault state ends QUIET_FIX after its last message, or becomes HELD when the recovery limit is reached. -/
def execQuietPeriodEnd (src : Fin 23) (cls : Fin 4) (s : State) : Host.Outcome State Fault Refusal :=
  finish (doQuietPeriodEnd src cls s)

/-- TENANT_DRAIN_END (R377): At c + 1,048,576 the drain of a cleared tenant mask bit ends. -/
def execTenantDrainEnd (tenant : BitVec 24) (s : State) : Host.Outcome State Fault Refusal :=
  finish (doTenantDrainEnd tenant s)

/-- FAULT_LOG_READ (R393): Copies fault records from the on-die or Logbook ring. -/
def execFaultLogRead (p : CmdPkt) (s : State) : Host.Outcome State Fault Refusal := finish (runCommand opFaultLogRead p s)

/-- FAULT_RELEASE (R391): Ends an ACTIVE or HELD fault state and clears its history. -/
def execFaultRelease (p : CmdPkt) (s : State) : Host.Outcome State Fault Refusal := finish (runCommand opFaultRelease p s)

/-- FAULT_STATUS_READ (R393): Returns latches, pins and per-source state. -/
def execFaultStatusRead (p : CmdPkt) (s : State) : Host.Outcome State Fault Refusal := finish (runCommand opFaultStatusRead p s)

/-- FAULT_INJECT_UNLOCK (R394): Returns a nonce or verifies a factory-test signature to enter factory test mode. -/
def execFaultInjectUnlock (p : CmdPkt) (s : State) : Host.Outcome State Fault Refusal := finish (runCommand opFaultInjectUnlock p s)

/-- FAULT_INJECT (R395): Presents a fault message or flips bits of a stored word. -/
def execFaultInject (p : CmdPkt) (s : State) : Host.Outcome State Fault Refusal := finish (runCommand opFaultInject p s)

/-- ISO_TENANT_READ (R393): Returns a tenant's masks and drain state. -/
def execIsoTenantRead (p : CmdPkt) (s : State) : Host.Outcome State Fault Refusal := finish (runCommand opIsoTenantRead p s)

/-- BINNACLE_RESTART_DONE (R385): A block-reset Binnacle finishes restarting from the running image. -/
def execBinnacleRestartDone (s : State) : Host.Outcome State Fault Refusal :=
  finish (doBinnacleRestartDone s)

/-- FAULT_MESSAGE (R379): A fault message reaches Lodestar and is recorded or coalesced. -/
def execFaultMessage (m : Option FaultMsg) (s : State) : Host.Outcome State Fault Refusal :=
  finish (doFaultMessage m s)

end Sys2Proof.Machine
end

