-- ==== Sys2Proof/Machine/RowsFlow.lean ====
section
/-! DEFINITION. The meanings of the rows of the flow table (chapter 7): each command or event with the level of the fault pins
that follows. -/

namespace Sys2Proof.Machine

open Sys2Proof

/-- FLOW_INSERT (R189): Inserts a flow record from a flow spec. -/
def execFlowInsert (p : CmdPkt) (s : State) : Host.Outcome State Fault Refusal := finish (runCommand opFlowInsert p s)

/-- FLOW_DELETE (R189): Turns a live record into a tombstone. -/
def execFlowDelete (p : CmdPkt) (s : State) : Host.Outcome State Fault Refusal := finish (runCommand opFlowDelete p s)

/-- FLOW_READ (R190): Returns bucket or stash contents with chart, cache and lock status. -/
def execFlowRead (p : CmdPkt) (s : State) : Host.Outcome State Fault Refusal := finish (runCommand opFlowRead p s)

/-- FLOW_MODIFY (R189): Rewrites selected fields of a record, optionally comparing generation. -/
def execFlowModify (p : CmdPkt) (s : State) : Host.Outcome State Fault Refusal := finish (runCommand opFlowModify p s)

/-- FLOW_PURGE_TENANT (R191): Deletes a tenant's live records bucket by bucket as a multi-Fix command. -/
def execFlowPurgeTenant (p : CmdPkt) (s : State) : Host.Outcome State Fault Refusal := finish (runCommand opFlowPurgeTenant p s)

/-- FLOW_STATS_READ (R192): Returns 16 counters per slice. -/
def execFlowStatsRead (p : CmdPkt) (s : State) : Host.Outcome State Fault Refusal := finish (runCommand opFlowStatsRead p s)

/-- FLOW_EVENT_READ (R192): Copies flow events of a slice, removing them except from ring 2. -/
def execFlowEventRead (p : CmdPkt) (s : State) : Host.Outcome State Fault Refusal := finish (runCommand opFlowEventRead p s)

/-- FLOW_FIND (R189): Returns the handle of the record with a key. -/
def execFlowFind (p : CmdPkt) (s : State) : Host.Outcome State Fault Refusal := finish (runCommand opFlowFind p s)

/-- FLOW_LOOKUP (R168): A flow slice serves a lookup: it answers from stash or cache, chains on the guard, or reads the chosen bucket. -/
def execFlowLookup (pk : Nat) (lane : Bool) (s : State) : Host.Outcome State Fault Refusal :=
  finish (doFlowLookup pk lane s)

/-- FLOW_BUCKET_RETURN (R171): A bucket read returns; guard-chained packets are handled in order, with one paired write or release. -/
def execFlowBucketReturn (pk : Nat) (bad : BitVec 2) (lane : Bool) (s : State) : Host.Outcome State Fault Refusal :=
  finish (doFlowBucketReturn pk bad lane s)

/-- LOOKUP_ANSWER (R167): The slice's answer reaches the pipeline, its action snapshot is applied, and stages 7 to 12 run. -/
def execLookupAnswer (pk : Nat) (bad : Option (Fin 12)) (s : State) : Host.Outcome State Fault Refusal :=
  finish (doLookupAnswer pk bad s)

/-- CACHE_CLEANER_WRITEBACK (R175): The cleaner writes back the least recently used dirty record of a set below CACHE_CLEAN_MIN. -/
def execCacheCleanerWriteback (slice : Fin 4) (s : State) : Host.Outcome State Fault Refusal :=
  finish (doCacheCleanerWriteback slice s)

/-- MOVER_ATTEMPT (R174): The mover places the oldest stash record or begins moving its group to second candidates. -/
def execMoverAttempt (slice : Fin 4) (s : State) : Host.Outcome State Fault Refusal :=
  finish (doMoverAttempt slice s)

/-- AGE_SCAN (R179): The scanner reads AGE_SCAN_RATE buckets and the stash and deletes expired records. -/
def execAgeScan (slice : Fin 4) (s : State) : Host.Outcome State Fault Refusal :=
  finish (doAgeScan slice s)

/-- EXILED_UPDATE (R162): The mover applies a queued EXILED change to slot 0 of the primary bucket. -/
def execExiledUpdate (slice : Fin 4) (s : State) : Host.Outcome State Fault Refusal :=
  finish (doExiledUpdate slice s)

/-- LOCK_GRANT (R182): A waiting lock request is granted when the bucket is released. -/
def execLockGrant (bucket : BitVec 28) (cycles : U32) (s : State) : Host.Outcome State Fault Refusal :=
  finish (doLockGrant bucket cycles s)

/-- LOCK_TIMEOUT (R182): A lock request still waiting at the 16th boundary is refused with LOCK_TIMEOUT. -/
def execLockTimeout (eng : Fin 512) (tag : Fin 8) (cycles : U32) (s : State) : Host.Outcome State Fault Refusal :=
  finish (doLockTimeout eng tag cycles s)

end Sys2Proof.Machine
end

