-- ==== Sys2Proof/Machine/RowsHbm.lean ====
section
/-! DEFINITION. The meanings of the rows of HBM and arbitration (chapter 13): each command or event with the level of the fault pins
that follows. -/

namespace Sys2Proof.Machine

open Sys2Proof

/-- HBM_STATUS_READ (R330): Returns per-stack pseudo-channel states and temperature. -/
def execHbmStatusRead (p : CmdPkt) (s : State) : Host.Outcome State Fault Refusal := finish (runCommand opHbmStatusRead p s)

/-- HBM_STATS_READ (R330): Returns 16 counters per stack. -/
def execHbmStatsRead (p : CmdPkt) (s : State) : Host.Outcome State Fault Refusal := finish (runCommand opHbmStatsRead p s)

/-- ARB_STATS_READ (R330): Returns per-class arbiter counters. -/
def execArbStatsRead (p : CmdPkt) (s : State) : Host.Outcome State Fault Refusal := finish (runCommand opArbStatsRead p s)

/-- HBM_REGION_INFO (R330): Returns base, span and grain of each HBM region. -/
def execHbmRegionInfo (p : CmdPkt) (s : State) : Host.Outcome State Fault Refusal := finish (runCommand opHbmRegionInfo p s)

/-- HBM_RETRAIN (R330): Retrains one pseudo-channel during the next Fix. -/
def execHbmRetrain (p : CmdPkt) (s : State) : Host.Outcome State Fault Refusal := finish (runCommand opHbmRetrain p s)

/-- HBM_REQUEST (R327): A request reaches an arbiter port queue and is answered with a hint word. -/
def execHbmRequest (port : Fin 43) (req : HbmReq) (s : State) : Host.Outcome State Fault Refusal :=
  finish (doHbmRequest port req s)

/-- HBM_GRANT (R324): In each controller cycle the arbiter grants up to 16 requests by credits and rotation. -/
def execHbmGrant (stack : Fin 6) (s : State) : Host.Outcome State Fault Refusal :=
  finish (doHbmGrant stack s)

/-- HBM_COMMAND_ISSUE (R310): Each pseudo-channel issues a read, write, ATOM or paired write under timing and queue rules. -/
def execHbmCommandIssue (pc : Fin 192) (ready : List (Fin 16)) (s : State) : Host.Outcome State Fault Refusal :=
  finish (doHbmCommandIssue pc ready s)

/-- HBM_READ_RETURN (R321): Read data returns with ECC checked, corrected or poisoned. -/
def execHbmReadReturn (pc : Fin 192) (s : State) : Host.Outcome State Fault Refusal :=
  finish (doHbmReadReturn pc s)

/-- ROW_HOLD_EXPIRE (R316): A held row's ROW_HOLD runs out before its paired write. -/
def execRowHoldExpire (pc : Fin 192) (bank : Fin 16) (s : State) : Host.Outcome State Fault Refusal :=
  finish (doRowHoldExpire pc bank s)

/-- PAGE_IDLE_CLOSE (R311): A row closes after PAGE_IDLE cycles without a hit. -/
def execPageIdleClose (pc : Fin 192) (bank : Fin 16) (s : State) : Host.Outcome State Fault Refusal :=
  finish (doPageIdleClose pc bank s)

/-- WRITE_AGE_EXPIRE (R312): A write that has waited WQ_AGE cycles is issued as in drain mode. -/
def execWriteAgeExpire (pc : Fin 192) (s : State) : Host.Outcome State Fault Refusal :=
  finish (doWriteAgeExpire pc s)

/-- REFRESH_DUE (R317): A bank's per-bank refresh falls due and is issued, postponed or forced. -/
def execRefreshDue (pc : Fin 192) (bank : Fin 16) (s : State) : Host.Outcome State Fault Refusal :=
  finish (doRefreshDue pc bank s)

/-- PD_IDLE_ENTER (R320): An idle pseudo-channel enters power-down after PD_IDLE ns. -/
def execPdIdleEnter (pc : Fin 192) (s : State) : Host.Outcome State Fault Refusal :=
  finish (doPdIdleEnter pc s)

/-- PATROL_SCRUB (R321): The patrol scrubber reads HBM lines and writes back corrected ones. -/
def execPatrolScrub (pc : Fin 192) (line : BitVec 23) (s : State) : Host.Outcome State Fault Refusal :=
  finish (doPatrolScrub pc line s)

end Sys2Proof.Machine
end

