-- ==== Sys2Proof/Machine/Fetch.lean ====
section
/-! DEFINITION. How commands arrive: fetches of ring entries with their checks and fences (R65 to R68, R72, R73, R76),
and in-band envelopes (R82 to R84). -/

namespace Sys2Proof.Machine

open Sys2Proof

/-! ### Fetching (R65 to R67) -/

def rotation : List Nat := [0, 1, 0, 2, 0, 3]

/-- Binnacle runs and is not restarting (R59, R385, R419). (Log: DEDUCED, log entry 66.) -/
def fetching (s : State) : Bool := decide (4 ≤ s.boot.stage) && s.boot.stage != 8 && !s.ctl.restarting

/-- Entries of a ring that a burst takes now: commands present, completion entries not promised, the burst and the Fix
limits, and the end of the ring. -/
def fetchable (s : State) (n : Nat) : Nat :=
  let r := ringOf s n
  if r.state != .running || !r.enable then 0
  else
    let size := ringSize r.size
    let cq := ringSize r.cqSize
    let ready := (r.tail + size - r.head) % size
    let free := cq - 1 - (r.cqTail + cq - r.cqHead) % cq - r.promised
    min (min 8 (8 - s.host.fetchedThisFix)) (min ready (min free (size - r.head)))

/-- CMD_FETCH: the next ring of the rotation that has something ready is read. -/
def doCmdFetch (s : State) : State :=
  if !fetching s then s
  else match ((List.range 6).map (fun i => (s.host.rot + i) % 6)).find? (fun i => fetchable s (rotation.getD i 0) != 0) with
    | none => s
    | some i =>
      let n := rotation.getD i 0
      let k := fetchable s n
      let idx := (ringOf s n).head
      let s := modRing n (fun r => { r with
        head := (r.head + k) % ringSize r.size, promised := r.promised + k, inFetch := r.inFetch ++ [(idx, k)] }) s
      { s with host.fetchedThisFix := s.host.fetchedThisFix + k, host.rot := (i + 1) % 6,
               out.fetches := s.out.fetches ++ [(n, idx, k, (ringOf s n).base + BitVec.ofNat 64 (64 * idx))] }

/-! ### Checks of fetched commands (R72, R73, R76) -/

/-- A ring entry (Table 3.5); PRIV is ignored. -/
def parseEntry (n : Fin 4) (c : RawCmd) : Fetched :=
  let e := padTo 64 c.entry
  let p : CmdPkt :=
    { src := .ring n
      flags := BitVec.ofNat 8 (leAt e 2 1)
      tag := BitVec.ofNat 32 (leAt e 4 4)
      target := BitVec.ofNat 32 (leAt e 8 4)
      paramLen := BitVec.ofNat 32 (leAt e 12 4)
      inl := BitVec.ofNat 256 (leAt e 16 32)
      payloadAddr := BitVec.ofNat 64 (leAt e 48 8)
      rsv := BitVec.ofNat 64 (leAt e 56 8)
      payload := c.payload }
  { code := leAt e 0 2, p := p }

/-- Commands of a ring that have been checked and have not completed. -/
def inFlight (r : Ring) : Nat := r.promised - r.waiting.length - r.inFetch.foldl (fun a x => a + x.2) 0

/-- The boundary whose sample an input that arrives now belongs to (R37). (Log: DEDUCED, log entry 20.) -/
def nextDue (s : State) : FixNo := if s.ctl.closed then s.clock.fix + 2 else s.clock.fix + 1

/-- A command that fails a check completes at once (R73). -/
def refuseCmd (code : Nat) (p : CmdPkt) (o : CmdOut) (s : State) : State := flushCpls (complete code p o s.clock.fix s)

/-- A command whose checks have passed waits for the next sample. -/
def queueCmd (rank code : Nat) (p : CmdPkt) (bufs : List Nat) (s : State) : State :=
  let i : Input := { rank := rank, sub := s.ctl.serial, due := nextDue s, body := .cmd code (setPriv s p) bufs }
  { s with ctl.queue := s.ctl.queue ++ [i], ctl.serial := s.ctl.serial + 1 }

/-- A fence is in force on the ring until its command has completed. -/
def setFence (n : Nat) (p : CmdPkt) (s : State) : State :=
  if flagFence p then modRing n (fun r => { r with fenced := true }) s else s

/-- Check one fetched command. (Log: DEDUCED, log entry 12.) -/
def takeFetched (n : Nat) (f : Fetched) (s : State) : State :=
  match opOf f.code with
  | none => refuseCmd f.code f.p (outErr (if !s.ctl.ready || s.ctl.restarting then stBUSY else stBADOP)) s
  | some op =>
    match checkCmd op f.p s with
    | (.refused st, s) => refuseCmd f.code f.p (refusal st) s
    | (.held, s) => setFence n f.p s
    | (.now bufs, s) => setFence n f.p (queueCmd 3 f.code f.p bufs s)

/-- Check the fetched commands of a ring in order, as far as fences let them (R76), up to 8 in the Fix (R67). -/
def drainRing (n : Nat) : Nat → State → State
  | 0, s => s
  | k + 1, s =>
    let r := ringOf s n
    match r.waiting with
    | [] => s
    | f :: rest =>
      if r.fenced || (flagFence f.p && inFlight r != 0) || decide (8 ≤ s.host.checkedThisFix) then s
      else
        let s := modRing n (fun r => { r with waiting := rest }) { s with host.checkedThisFix := s.host.checkedThisFix + 1 }
        drainRing n k (takeFetched n f s)

/-- The bit of AER's uncorrectable error status for an error of a fetch. (Log: PRESUMED, log entry 77.) -/
def aerBit (e : FetchError) : Nat :=
  match e with
  | .poisoned => 12
  | .completionTimeout => 14
  | .completerAbort => 15
  | .unsupportedRequest => 20

/-- The error is reported through AER (R68): its status bit, the header log of the first error that the status holds (a free
value, labels 26 and 27), and a non-fatal message. (Log: PRESUMED, log entry 77.) -/
def aerReport (e : FetchError) (s : State) : State :=
  let first := s.host.pcie.aerStatus == 0
  let hdr : BitVec 128 := openDraw 26 s ++ openDraw 27 s
  hostOut .errNonFatal { advanceDraws 1 s with
    host.pcie := { aerStatus := s.host.pcie.aerStatus ||| (1 <<< aerBit e)
                   aerHeader := if first then hdr else s.host.pcie.aerHeader } }

/-- CMD_FETCH_DONE: the oldest fetch of the ring returns its entries, or fails (R68). (Log: DEDUCED, log entry 24.) -/
def doCmdFetchDone (ring : Fin 4) (res : FetchResult) (s : State) : State :=
  let n := ring.val
  match (ringOf s n).inFetch with
  | [] => s
  | (_, k) :: rest =>
    match res with
    | .failed why =>
      let s := modRing n (fun r => { r with
        inFetch := rest, promised := r.promised - k, cause := 2
        state := if r.state == .draining then .draining else .halted }) s
      raiseFault fkFETCH_ERR n (aerReport why (modRing n ringSettle s))
    | .entries cs =>
      let blank : RawCmd := { entry := [], payload := none }
      let fs := ((cs ++ List.replicate k blank).take k).map (parseEntry ring)
      let s := modRing n (fun r => { r with inFetch := rest, waiting := r.waiting ++ fs }) s
      drainRing n (ringOf s n).waiting.length s

/-- After a boundary's completions: fences whose command has completed end, and the commands that wait behind them, or behind the
limit of the Fix before, are checked. -/
def fencesOver (s : State) : State :=
  [0, 1, 2, 3].foldl (fun s n =>
    let s := modRing n (fun r => if inFlight r = 0 then { r with fenced := false } else r) s
    drainRing n (ringOf s n).waiting.length s) s

/-! ### In-band envelopes (R82 to R84) -/

/-- Envelopes taken in the current second of the extended time (R84, R104). -/
def ibCount (s : State) : State :=
  let sec := taiNs s / 1000000000
  if s.ctl.ibSecond = sec then s else { s with ctl.ibSecond := sec, ctl.ibTaken := 0 }

/-- The envelope stands in the bytes after the EtherType, and its signature holds under its key (Table 3.11, step 2). (Log: DEDUCED, log entry 26.) -/
def ibVerified (s : State) (b : Bytes) : Bool :=
  let len := beAt b 2 2
  match kfind s.ctl.ibKeys (beAt b 1 1) with
  | none => false
  | some k =>
    beAt b 0 1 == 1 && decide (beAt b 1 1 < 16) && decide (len ≤ 2048) && isZeros (sliceB b 4 4)
      && decide (194 + len ≤ b.length) && k.authority != 0
      && Config.ed448Verify k.key (ctxIB ++ uniqueIdB) (sliceB b 0 (80 + len)) (sliceB b (80 + len) 114)

/-- The command of an envelope (step 5): a payload for the device is IB_PAYLOAD. -/
def ibCommand (port : Fin 128) (mac : BitVec 48) (b : Bytes) : Fetched :=
  let f := parseEntry 0 { entry := sliceB b 16 64, payload := some (sliceB b 80 (beAt b 2 2)) }
  { f with p := { f.p with src := .inband (Fin.ofNat 16 (beAt b 1 1)) (BitVec.ofNat 64 (beAt b 8 8)) port mac 0 } }

/-- For a payload to the device, PARAM_LEN equals IB_LEN (step 5, part of check 3 of R72). -/
def ibLenWrong (op : Op) (p : CmdPkt) (len : Nat) : Bool :=
  match op.dir with
  | .toDev _ _ => p.paramLen.toNat != len
  | _ => false

/-- The check that an in-band command fails early, with step 5's own in the place of check 3. -/
def ibEarly (op : Op) (p : CmdPkt) (len : Nat) (s : State) : Option Nat :=
  match earlyCheck op p s with
  | none => if ibLenWrong op p len then some stBADARG else none
  | some st => if st = stFAULTED ∧ ibLenWrong op p len then some stBADARG else some st

/-- Steps 4 and 5: the command is checked as any other. (Log: DEDUCED, log entry 26.) -/
def ibCheck (f : Fetched) (len : Nat) (s : State) : State :=
  match opOf f.code with
  | none => refuseCmd f.code f.p (outErr (if !s.ctl.ready || s.ctl.restarting then stBUSY else stBADOP)) s
  | some op =>
    match ibEarly op f.p len s with
    | some st => refuseCmd f.code f.p (refusal st) s
    | none =>
      match checkCmd op f.p s with
      | (.refused st, s) => refuseCmd f.code f.p (refusal st) s
      | (.held, s) => s
      | (.now bufs, s) => queueCmd 4 f.code f.p bufs s

/-- Steps 1 to 3 (R84). The message of a signature failure carries IB_KEY as it stands, also where it is 16 or more and names no key.
(Log: DEDUCED, log entry 26; DESIGN CHOICE, log entry 85.) -/
def ibEnvelope (port : Fin 128) (mac : BitVec 48) (b : Bytes) (s : State) : State :=
  let s := ibCount s
  let idx := beAt b 1 1
  if 4096 < s.ctl.ibTaken then { s with ctl.ibDropRate := s.ctl.ibDropRate + 1 }
  else
    let s := { s with ctl.ibTaken := s.ctl.ibTaken + 1 }
    if !ibVerified s b then raiseFault fkINBAND_AUTH idx { s with ctl.ibDropAuth := s.ctl.ibDropAuth + 1 }
    else match kfind s.ctl.ibKeys idx with
      | none => s
      | some k =>
        let seq : U64 := BitVec.ofNat 64 (beAt b 8 8)
        if seq ≤ k.seqHigh then { s with ctl.ibDropSeq := s.ctl.ibDropSeq + 1 }
        else ibCheck (ibCommand port mac b) (beAt b 2 2) { s with ctl.ibKeys := kput s.ctl.ibKeys idx { k with seqHigh := seq } }

/-- INBAND_FRAME_RECEIVED: a frame that matches the in-band settings is whole. On an accepting port it goes to Binnacle;
on any other it is dropped and counted (R82). -/
def doInbandFrameReceived (port : Fin 128) (pk : Nat) (s : State) : State :=
  match pktOf s pk with
  | none => s
  | some k =>
    if k.port ≠ port.val ∨ k.tail ≠ .good ∨ k.stage ≠ .ingress ∨ k.counted ∨ !ibMatch s k.rx then s
    else
      let s := freePkt pk k s
      if s.ctl.ibPorts.getLsbD port.val then
        ibEnvelope port (BitVec.ofNat 48 (beAt k.rx 6 6)) (k.rx.drop (ibTypeOff s + 2)) s
      else
        modPort port.val (fun x => { x with cnt.rxInbandDrop := x.cnt.rxInbandDrop + 1 })
          { s with ctl.ibDropPort := s.ctl.ibDropPort + 1 }

end Sys2Proof.Machine
end

