-- ==== Sys2Proof/Machine/RowsHost.lean ====
section
/-! DEFINITION. The meanings of the rows of the host attachment, commands of group 0x00xx and direct registers (chapters 3 and 20): each command or event with the level of the fault pins
that follows. -/

namespace Sys2Proof.Machine

open Sys2Proof

/-- MULTI_FIX_TIMEOUT (R80): A multi-Fix command reaches the L-th boundary after its first one and ends with TIMEOUT. -/
def execMultiFixTimeout (s : State) : Host.Outcome State Fault Refusal :=
  finish (doMultiFixTimeout s)

/-- SYS_INFO (R478): Writes the 64-byte identification and status payload. -/
def execSysInfo (p : CmdPkt) (s : State) : Host.Outcome State Fault Refusal := finish (runCommand opSysInfo p s)

/-- RING_TENANT_SET (R78): Replaces ring 1's tenant set and ends ring-1 leases outside it. -/
def execRingTenantSet (p : CmdPkt) (s : State) : Host.Outcome State Fault Refusal := finish (runCommand opRingTenantSet p s)

/-- INBAND_KEY_SET (R83): Sets or revokes an in-band key with its authority and tenants, and resets its sequence mark. -/
def execInbandKeySet (p : CmdPkt) (s : State) : Host.Outcome State Fault Refusal := finish (runCommand opInbandKeySet p s)

/-- INBAND_CONFIG (R82): Sets the in-band enable, EtherType, MAC, VLAN and accepting ports. -/
def execInbandConfig (p : CmdPkt) (s : State) : Host.Outcome State Fault Refusal := finish (runCommand opInbandConfig p s)

/-- CMD_DOORBELL (R64): A write of DB_TAIL to CMD_DBn sets the ring tail, or is ignored and counted if out of range. -/
def execCmdDoorbell (ring : Fin 4) (value : U32) (s : State) : Host.Outcome State Fault Refusal :=
  finish (doCmdDoorbell ring value s)

/-- CQ_HEAD_WRITE (R64): A write to CMD_CQn_HEAD frees completion entries, or is ignored and counted if out of range. -/
def execCqHeadWrite (ring : Fin 4) (value : U32) (s : State) : Host.Outcome State Fault Refusal :=
  finish (doCqHeadWrite ring value s)

/-- RING_ENABLE (R63): Setting ENABLE on an idle ring resets its indices and starts it, or halts it for a bad size. -/
def execRingEnable (ring : Fin 4) (s : State) : Host.Outcome State Fault Refusal :=
  finish (doRingEnable ring s)

/-- RING_DISABLE (R66): Clearing ENABLE puts the ring into draining until its fetched commands complete. -/
def execRingDisable (ring : Fin 4) (s : State) : Host.Outcome State Fault Refusal :=
  finish (doRingDisable ring s)

/-- DBERR_READ (R6): A read of CMD_RINGn_DBERR returns and clears the count. -/
def execDberrRead (ring : Fin 4) (s : State) : Host.Outcome State Fault Refusal :=
  finish (doDberrRead ring s)

/-- CMD_FETCH (R67): Binnacle issues a DMA read of up to 8 command entries when a ring has commands and completion room. -/
def execCmdFetch (s : State) : Host.Outcome State Fault Refusal :=
  finish (doCmdFetch s)

/-- CMD_FETCH_DONE (R72): Fetched commands are checked in order and either refused at once or queued for their boundary. -/
def execCmdFetchDone (ring : Fin 4) (res : FetchResult) (s : State) : Host.Outcome State Fault Refusal :=
  finish (doCmdFetchDone ring res s)

/-- FUNCTION_LEVEL_RESET (R86): A function-level reset returns the host interface and rings to reset and stops DMA. -/
def execFunctionLevelReset (s : State) : Host.Outcome State Fault Refusal :=
  finish (doFunctionLevelReset s)

/-- PCIE_LINK_RESET (R87): PERST_N, hot reset, link down or link disable acts as an FLR and resets the link. -/
def execPcieLinkReset (kind : Fin 4) (s : State) : Host.Outcome State Fault Refusal :=
  finish (doPcieLinkReset kind s)

/-- REGISTER_WRITE (R62): A write to a direct register without behaviour of its own sets the field, or is ignored. -/
def execRegisterWrite (bar2 : Bool) (off : BitVec 26) (wide : Bool) (full : Bool) (data : U64) (s : State) :
    Host.Outcome State Fault Refusal :=
  finish (doRegisterWrite bar2 off wide full data s)

/-- FAULT_HEAD_WRITE (R449): A write to LOD_FAULT_HEAD consumes fault records, or is refused and counted. -/
def execFaultHeadWrite (value : U32) (s : State) : Host.Outcome State Fault Refusal :=
  finish (doFaultHeadWrite value s)

/-- MAC_STICKY_CLEAR (R454): A W1C write to MAC_STICKY clears sticky port bits. -/
def execMacStickyClear (lane : Fin 128) (value : U32) (s : State) : Host.Outcome State Fault Refusal :=
  finish (doMacStickyClear lane value s)

/-- STEP_COUNT_READ (R450): A read of MER_STEP_COUNT returns and clears the step count. -/
def execStepCountRead (s : State) : Host.Outcome State Fault Refusal :=
  finish (doStepCountRead s)

/-- WRAP_TAI_LO_READ (R450): A 4-byte read of MER_WRAP_TAI_LO latches the high anchor word. -/
def execWrapTaiLoRead (s : State) : Host.Outcome State Fault Refusal :=
  finish (doWrapTaiLoRead s)

/-- DECIDE_REENTER (R18): Held packets of a completed or failed decision re-enter at stage 7. -/
def execDecideReenter (pk : Nat) (bad : Option (Fin 12)) (s : State) : Host.Outcome State Fault Refusal :=
  finish (doDecideReenter pk bad s)

/-- INBAND_FRAME_RECEIVED (R84): An in-band envelope is rate-checked, verified, sequence-checked and checked as a command. -/
def execInbandFrameReceived (port : Fin 128) (pk : Nat) (s : State) : Host.Outcome State Fault Refusal :=
  finish (doInbandFrameReceived port pk s)

/-- PCIE_LINK_UP (R87): When a hot reset, link-down or link-disable condition ends, the SV1280 retrains the PCIe link and the host interface returns to service. -/
def execPcieLinkUp (gen : Fin 4) (width : Fin 4) (s : State) : Host.Outcome State Fault Refusal :=
  finish (doPcieLinkUp gen width s)

end Sys2Proof.Machine
end

