-- ==== Sys2Proof/Machine/RowsMetering.lean ====
section
/-! DEFINITION. The meanings of the rows of metering (chapter 14): each command or event with the level of the fault pins
that follows. -/

namespace Sys2Proof.Machine

open Sys2Proof

/-- METER_STATS_READ (R343): Returns metering counters. -/
def execMeterStatsRead (p : CmdPkt) (s : State) : Host.Outcome State Fault Refusal := finish (runCommand opMeterStatsRead p s)

/-- METER_CLOSE_INFO (R343): Returns the header, head and delivery state of a closed minute. -/
def execMeterCloseInfo (p : CmdPkt) (s : State) : Host.Outcome State Fault Refusal := finish (runCommand opMeterCloseInfo p s)

/-- BILLING_SIGN (R344): Signs a minute's chain head and nonce with the identity key. -/
def execBillingSign (p : CmdPkt) (s : State) : Host.Outcome State Fault Refusal := finish (runCommand opBillingSign p s)

/-- BILL_RING_SET (R340): Configures, enables or disables the billing ring. -/
def execBillRingSet (p : CmdPkt) (s : State) : Host.Outcome State Fault Refusal := finish (runCommand opBillRingSet p s)

/-- BILL_BLOCK_READ (R343): Copies records of a staged block. -/
def execBillBlockRead (p : CmdPkt) (s : State) : Host.Outcome State Fault Refusal := finish (runCommand opBillBlockRead p s)

/-- METER_SEAL (R336): At M+2 the closing bank is sealed and the block staged, and hashing and delivery begin. -/
def execMeterSeal (s : State) : Host.Outcome State Fault Refusal :=
  finish (doMeterSeal s)

/-- BILLING_HASH_DONE (R338): The chain head is computed; the trailer is queued and the head sent to the peer and checkpointed. -/
def execBillingHashDone (s : State) : Host.Outcome State Fault Refusal :=
  finish (doBillingHashDone s)

/-- CKPT_WRITE_DONE (R339): The Logbook checkpoint of a minute's chain head is complete. -/
def execCkptWriteDone (s : State) : Host.Outcome State Fault Refusal :=
  finish (doCkptWriteDone s)

/-- CKPT_LATE (R339): A checkpoint not complete by M+97,657 raises CKPT_LATE. -/
def execCkptLate (s : State) : Host.Outcome State Fault Refusal :=
  finish (doCkptLate s)

/-- BILL_RING_DELIVER (R340): Billing header, record and trailer slots are written to the host ring as rate and room allow. -/
def execBillRingDeliver (s : State) : Host.Outcome State Fault Refusal :=
  finish (doBillRingDeliver s)

end Sys2Proof.Machine
end

