-- ==== Sys2Proof/Machine/RowsMicrocode.lean ====
section
/-! DEFINITION. The meanings of the rows of microcode (chapter 9): each command or event with the level of the fault pins
that follows. -/

namespace Sys2Proof.Machine

open Sys2Proof

/-- UCODE_LOAD (R238): Loads clusters of a mask from the running or accepted image, one cluster per step. -/
def execUcodeLoad (p : CmdPkt) (s : State) : Host.Outcome State Fault Refusal := finish (runCommand opUcodeLoad p s)

/-- UCODE_INFO (R238): Returns the bundle and state of every cluster. -/
def execUcodeInfo (p : CmdPkt) (s : State) : Host.Outcome State Fault Refusal := finish (runCommand opUcodeInfo p s)

/-- UCODE_READ (R237): Returns words of a cluster store. -/
def execUcodeRead (p : CmdPkt) (s : State) : Host.Outcome State Fault Refusal := finish (runCommand opUcodeRead p s)

/-- STARTUP_UCODE_DONE (R240): Every bundle has been loaded and self-tested. -/
def execStartupUcodeDone (s : State) : Host.Outcome State Fault Refusal :=
  finish (doStartupUcodeDone s)

/-- MICROWORD_EXECUTE (R228): An engine executes one microword with its nanoword's ALU, local-store and sequencing effects. -/
def execMicrowordExecute (eng : Fin 512) (gap : U32) (s : State) : Host.Outcome State Fault Refusal :=
  finish (doMicrowordExecute eng gap s)

/-- UCODE_RELOAD (R239): A cluster out of dispatch for a store error is reloaded once none of its engines runs. -/
def execUcodeReload (cluster : Fin 32) (s : State) : Host.Outcome State Fault Refusal :=
  finish (doUcodeReload cluster s)

/-- UCODE_SCRUB (R239): The scrubber reads and corrects microcode store words. -/
def execUcodeScrub (cluster : Fin 32) (store : Fin 3) (word : BitVec 14) (s : State) :
    Host.Outcome State Fault Refusal :=
  finish (doUcodeScrub cluster store word s)

end Sys2Proof.Machine
end

