-- ==== Sys2Proof/Machine/RowsPair.lean ====
section
/-! DEFINITION. The meanings of the rows of the pair (chapter 15): each command or event with the level of the fault pins
that follows. -/

namespace Sys2Proof.Machine

open Sys2Proof

/-- PAIR_STATUS_READ (R368): Returns pair state, roles, sequence numbers and lag, clearing the greatest lag except from ring 2. -/
def execPairStatusRead (p : CmdPkt) (s : State) : Host.Outcome State Fault Refusal := finish (runCommand opPairStatusRead p s)

/-- PAIR_ROLE (R368): Sets home roles and sends claims for homes made active. -/
def execPairRole (p : CmdPkt) (s : State) : Host.Outcome State Fault Refusal := finish (runCommand opPairRole p s)

/-- PAIR_STATS_READ (R368): Returns 16 pair counters. -/
def execPairStatsRead (p : CmdPkt) (s : State) : Host.Outcome State Fault Refusal := finish (runCommand opPairStatsRead p s)

/-- PAIR_RESYNC (R368): Puts a paired SV1280 into RESYNC. -/
def execPairResync (p : CmdPkt) (s : State) : Host.Outcome State Fault Refusal := finish (runCommand opPairResync p s)

/-- PAIR_HEAD_READ (R368): Returns the peer chain heads held, newest first. -/
def execPairHeadRead (p : CmdPkt) (s : State) : Host.Outcome State Fault Refusal := finish (runCommand opPairHeadRead p s)

/-- RH_DATA_RECEIVED (R353): A DATA frame is checked for CRC and sequence and its events are queued, or it is NAKed. -/
def execRhDataReceived (frame : Bytes) (s : State) : Host.Outcome State Fault Refusal :=
  finish (doRhDataReceived frame s)

/-- RH_ACK_RECEIVED (R354): An acknowledgement or NAK frees retransmit entries or triggers a resend. -/
def execRhAckReceived (frame : Bytes) (s : State) : Host.Outcome State Fault Refusal :=
  finish (doRhAckReceived frame s)

/-- RH_HEARTBEAT_RECEIVED (R361): A HEARTBEAT updates the peer's roles, state and liveness. -/
def execRhHeartbeatReceived (frame : Bytes) (beat : RhBeat) (s : State) : Host.Outcome State Fault Refusal :=
  finish (doRhHeartbeatReceived frame beat s)

/-- RH_HELLO_RECEIVED (R348): A HELLO is checked and the pair moves to RESYNC, MISMATCH or HELLO. -/
def execRhHelloReceived (frame : Bytes) (hello : RhHello) (s : State) : Host.Outcome State Fault Refusal :=
  finish (doRhHelloReceived frame hello s)

/-- RH_CLAIM_RECEIVED (R362): A CLAIM from the peer is presented as a rank-2 input setting the home to STANDBY. -/
def execRhClaimReceived (frame : Bytes) (home : Fin 2) (epoch : U32) (s : State) : Host.Outcome State Fault Refusal :=
  finish (doRhClaimReceived frame home epoch s)

/-- RH_CLAIM_ACK_RECEIVED (R362): A CLAIM_ACK returns the outcome of a claim. -/
def execRhClaimAckReceived (frame : Bytes) (home : Fin 2) (epoch : U32) (status : Byte) (s : State) :
    Host.Outcome State Fault Refusal :=
  finish (doRhClaimAckReceived frame home epoch status s)

/-- RH_DATA_SEND (R353): Queued events are sent in a DATA frame, retransmissions first. -/
def execRhDataSend (s : State) : Host.Outcome State Fault Refusal :=
  finish (doRhDataSend s)

/-- RH_ACK_SEND (R353): An ACK or NAK is sent within 256 ns of receipt. -/
def execRhAckSend (s : State) : Host.Outcome State Fault Refusal :=
  finish (doRhAckSend s)

/-- RH_RETRANSMIT_TIMEOUT (R354): Unacknowledged events are resent after 2,048 ns without progress. -/
def execRhRetransmitTimeout (s : State) : Host.Outcome State Fault Refusal :=
  finish (doRhRetransmitTimeout s)

/-- PEER_LOST (R361): No valid frame for PEER_TIMEOUT boundaries: the pair enters LOST and PEER_LOST is raised. -/
def execPeerLost (s : State) : Host.Outcome State Fault Refusal :=
  finish (doPeerLost s)

/-- PAIR_LANES_ALIGNED (R347): The Rhumb lanes have been aligned for 64 boundaries and the pair enters HELLO. -/
def execPairLanesAligned (s : State) : Host.Outcome State Fault Refusal :=
  finish (doPairLanesAligned s)

/-- RH_ALIGN_LOST (R347): Rhumb alignment is lost in HELLO or MISMATCH and the pair returns to DOWN. -/
def execRhAlignLost (s : State) : Host.Outcome State Fault Refusal :=
  finish (doRhAlignLost s)

/-- RESYNC_SWEEP (R364): The resync sweep sends BINDs and extension lines for RESYNC_SCAN buckets and finally RESYNC_END. -/
def execResyncSweep (s : State) : Host.Outcome State Fault Refusal :=
  finish (doResyncSweep s)

end Sys2Proof.Machine
end

