-- ==== Sys2Proof/Machine/RowsPools.lean ====
section
/-! DEFINITION. The meanings of the rows of buffer pools (chapter 12): each command or event with the level of the fault pins
that follows. -/

namespace Sys2Proof.Machine

open Sys2Proof

/-- POOL_STATS_READ (R304): Returns per-pool buffer counts and counters. -/
def execPoolStatsRead (p : CmdPkt) (s : State) : Host.Outcome State Fault Refusal := finish (runCommand opPoolStatsRead p s)

/-- POOL_ACCT_READ (R304): Returns per-account use, high-water and NOBUF counts. -/
def execPoolAcctRead (p : CmdPkt) (s : State) : Host.Outcome State Fault Refusal := finish (runCommand opPoolAcctRead p s)

/-- POOL_ALLOC (R304): Allocates an HBM buffer to the host or a slice owner under R297. -/
def execPoolAlloc (p : CmdPkt) (s : State) : Host.Outcome State Fault Refusal := finish (runCommand opPoolAlloc p s)

/-- POOL_FREE (R301): Frees a host-owned buffer on the host's behalf. -/
def execPoolFree (p : CmdPkt) (s : State) : Host.Outcome State Fault Refusal := finish (runCommand opPoolFree p s)

/-- POOL_OWNER_READ (R304): Returns the owner and allocated bit of a buffer. -/
def execPoolOwnerRead (p : CmdPkt) (s : State) : Host.Outcome State Fault Refusal := finish (runCommand opPoolOwnerRead p s)

/-- SK_POOL_ALLOC (R299): A Skipper allocates a provisional buffer for a final owner. -/
def execSkPoolAlloc (eng : Fin 512) (tag : Fin 8) (pool : Fin 8) (owner : BitVec 12) (s : State) :
    Host.Outcome State Fault Refusal :=
  finish (doSkPoolAlloc eng tag pool owner s)

/-- SK_POOL_FREE (R301): A Skipper frees a buffer at commit. -/
def execSkPoolFree (eng : Fin 512) (tag : Fin 8) (ref : U32) (s : State) : Host.Outcome State Fault Refusal :=
  finish (doSkPoolFree eng tag ref s)

/-- POOL_REQUEST (R297): The buffer pool manager grants or refuses a request in the cycle of its arrival. -/
def execPoolRequest (start : Fin 46) (reqs : List PoolReq) (s : State) : Host.Outcome State Fault Refusal :=
  finish (doPoolRequest start reqs s)

/-- BUFFER_FREE (R301): A free is applied, or refused as DOUBLE_FREE, FOREIGN_FREE or FREE_RANGE. -/
def execBufferFree (owner : BitVec 12) (ref : U32) (s : State) : Host.Outcome State Fault Refusal :=
  finish (doBufferFree owner ref s)

end Sys2Proof.Machine
end

