-- ==== Sys2Proof/Machine/RowsPorts.lean ====
section
/-! DEFINITION. The meanings of the rows of ports (chapter 4): each command or event with the level of the fault pins
that follows. -/

namespace Sys2Proof.Machine

open Sys2Proof

/-- PORT_READ (R101): Copies the state and counters of consecutive port numbers. -/
def execPortRead (p : CmdPkt) (s : State) : Host.Outcome State Fault Refusal := finish (runCommand opPortRead p s)

/-- FRAME_RECEIVE_END (R98): A frame's tail arrives; runt, oversize and FCS checks decide its counters and eligibility. -/
def execFrameReceiveEnd (port : Fin 128) (pcs : PcsReport) (s : State) : Host.Outcome State Fault Refusal :=
  finish (doFrameReceiveEnd port pcs s)

/-- PAUSE_FRAME_RECEIVED (R99): A received PAUSE or PFC frame pauses priorities at once and is consumed. -/
def execPauseFrameReceived (port : Fin 128) (ns : BitVec 10) (pfc : Bool) (vec : Byte) (times : List U16) (s : State) :
    Host.Outcome State Fault Refusal :=
  finish (doPauseFrameReceived port ns pfc vec times s)

/-- PAUSE_TIMER_EXPIRE (R99): A priority's pause time runs out and it may send again. -/
def execPauseTimerExpire (port : Fin 128) (prio : Fin 8) (ns : BitVec 10) (s : State) :
    Host.Outcome State Fault Refusal :=
  finish (doPauseTimerExpire port prio ns s)

/-- LINK_LOSS (R97): A port in UP detects a loss, enters DOWN_PEND, discards egress and sends Remote Fault. -/
def execLinkLoss (port : Fin 128) (ns : BitVec 10) (kind : Fin 3) (s : State) : Host.Outcome State Fault Refusal :=
  finish (doLinkLoss port ns kind s)

/-- DOWN_HOLD_EXPIRE (R96): A loss has persisted for DOWN_HOLD and the port leaves UP at the next boundary. -/
def execDownHoldExpire (port : Fin 128) (ns : BitVec 10) (s : State) : Host.Outcome State Fault Refusal :=
  finish (doDownHoldExpire port ns s)

/-- UP_HOLD_EXPIRE (R96): Alignment has been stable for UP_HOLD and the port enters UP at the boundary. -/
def execUpHoldExpire (port : Fin 128) (ns : BitVec 10) (s : State) : Host.Outcome State Fault Refusal :=
  finish (doUpHoldExpire port ns s)

/-- NEGOTIATE_DONE (R92): Clause 73 negotiation completes and the port moves to TRAIN or ALIGN. -/
def execNegotiateDone (port : Fin 128) (s : State) : Host.Outcome State Fault Refusal :=
  finish (doNegotiateDone port s)

/-- TRAIN_DONE (R92): Link training completes and the port enters ALIGN. -/
def execTrainDone (port : Fin 128) (s : State) : Host.Outcome State Fault Refusal :=
  finish (doTrainDone port s)

/-- TRAIN_FAIL (R92): Training fails or times out and the port restarts from its first enabled step. -/
def execTrainFail (port : Fin 128) (s : State) : Host.Outcome State Fault Refusal :=
  finish (doTrainFail port s)

/-- ALIGN_LOST (R96): Alignment is lost in ALIGN before UP_HOLD and the port restarts. -/
def execAlignLost (port : Fin 128) (ns : BitVec 10) (kind : Fin 3) (s : State) : Host.Outcome State Fault Refusal :=
  finish (doAlignLost port ns kind s)

/-- ALIGNMENT_ACQUIRED (R96): A port's PCS gains alignment and block lock on all its lanes with no fault received. In ALIGN this starts the UP_HOLD interval, and in DOWN_PEND it ends the loss, so the port returns to UP at the next boundary. -/
def execAlignmentAcquired (port : Fin 128) (ns : BitVec 10) (s : State) : Host.Outcome State Fault Refusal :=
  finish (doAlignmentAcquired port ns s)

end Sys2Proof.Machine
end

