-- ==== Sys2Proof/Machine/RowsPower.lean ====
section
/-! DEFINITION. The meanings of the rows of power (chapter 17): each command or event with the level of the fault pins
that follows. -/

namespace Sys2Proof.Machine

open Sys2Proof

/-- POWER_STATUS_READ (R412): Returns power state, next event, D and domain masks. -/
def execPowerStatusRead (p : CmdPkt) (s : State) : Host.Outcome State Fault Refusal := finish (runCommand opPowerStatusRead p s)

/-- POWER_POLICY (R412): Sets MAX_STATE, margins, kept SerDes and wake ports. -/
def execPowerPolicy (p : CmdPkt) (s : State) : Host.Outcome State Fault Refusal := finish (runCommand opPowerPolicy p s)

/-- SR_IDLE_ENTER (R408): In Cocoon a woken pseudo-channel returns to self-refresh after SR_IDLE ns. -/
def execSrIdleEnter (pc : Fin 192) (s : State) : Host.Outcome State Fault Refusal :=
  finish (doSrIdleEnter pc s)

/-- POWER_ENTRY_DONE (R405): The drain and gating of domains for Roost or Cocoon complete. -/
def execPowerEntryDone (s : State) : Host.Outcome State Fault Refusal :=
  finish (doPowerEntryDone s)

/-- POWER_EXIT_DONE (R406): Domains are restored and the device is in Flight. -/
def execPowerExitDone (s : State) : Host.Outcome State Fault Refusal :=
  finish (doPowerExitDone s)

/-- DOMAIN_POWER_FAIL (R409): A domain lacks or loses power-good, raises DOMAIN_FAIL and is switched off. -/
def execDomainPowerFail (d : Fin 64) (s : State) : Host.Outcome State Fault Refusal :=
  finish (doDomainPowerFail d s)

/-- CLOCK_GATE (R398): In Basking a domain idle for 64 cycles is clock gated. -/
def execClockGate (d : Fin 64) (s : State) : Host.Outcome State Fault Refusal :=
  finish (doClockGate d s)

/-- CLOCK_UNGATE (R398): A gated domain is ungated within 200 ns of new work. -/
def execClockUngate (d : Fin 64) (s : State) : Host.Outcome State Fault Refusal :=
  finish (doClockUngate d s)

end Sys2Proof.Machine
end

