-- ==== Sys2Proof/Machine/RowsSkippers.lean ====
section
/-! DEFINITION. The meanings of the rows of Skippers (chapter 8): each command or event with the level of the fault pins
that follows. -/

namespace Sys2Proof.Machine

open Sys2Proof

/-- SKIP_STATUS_READ (R224): Returns the status entries of a range of Skippers. -/
def execSkipStatusRead (p : CmdPkt) (s : State) : Host.Outcome State Fault Refusal := finish (runCommand opSkipStatusRead p s)

/-- SKIP_STATS_READ (R224): Returns 16 Skipper counters. -/
def execSkipStatsRead (p : CmdPkt) (s : State) : Host.Outcome State Fault Refusal := finish (runCommand opSkipStatsRead p s)

/-- SKIP_RUN (R223): Dispatches a routine on an idle engine as a RUN and completes after its commit. -/
def execSkipRun (p : CmdPkt) (s : State) : Host.Outcome State Fault Refusal := finish (runCommand opSkipRun p s)

/-- SKIP_RESET (R223): Resets the engines of a mask and loses their running routines. -/
def execSkipReset (p : CmdPkt) (s : State) : Host.Outcome State Fault Refusal := finish (runCommand opSkipReset p s)

/-- SKIP_TELEM_READ (R224): Copies telemetry records, removing them except from ring 2. -/
def execSkipTelemRead (p : CmdPkt) (s : State) : Host.Outcome State Fault Refusal := finish (runCommand opSkipTelemRead p s)

/-- LB_READ (R218): Returns bucket assignments and pick counts of one load-balancing pool. -/
def execLbRead (p : CmdPkt) (s : State) : Host.Outcome State Fault Refusal := finish (runCommand opLbRead p s)

/-- LOCK (R204): A Skipper requests a bucket lock in ascending order. -/
def execLock (eng : Fin 512) (tag : Fin 8) (bucket : U32) (s : State) : Host.Outcome State Fault Refusal :=
  finish (doLock eng tag bucket s)

/-- LOCKR (R204): A Skipper requests a bucket lock and reads the bucket. -/
def execLockr (eng : Fin 512) (tag : Fin 8) (bucket : U32) (loc : BitVec 10) (s : State) :
    Host.Outcome State Fault Refusal :=
  finish (doLockr eng tag bucket loc s)

/-- LOCKSET (R205): A Skipper releases and retakes up to four buckets in ascending order. -/
def execLockset (eng : Fin 512) (tag : Fin 8) (loc : BitVec 10) (s : State) : Host.Outcome State Fault Refusal :=
  finish (doLockset eng tag loc s)

/-- BREAD (R201): A Skipper reads a held bucket. -/
def execBread (eng : Fin 512) (tag : Fin 8) (bucket : U32) (loc : BitVec 10) (s : State) :
    Host.Outcome State Fault Refusal :=
  finish (doBread eng tag bucket loc s)

/-- BWRITE (R202): A Skipper buffers a masked unit write to a held bucket. -/
def execBwrite (eng : Fin 512) (tag : Fin 8) (bucket : U32) (unit : Fin 2) (loc : BitVec 10) (mask : U64) (s : State) :
    Host.Outcome State Fault Refusal :=
  finish (doBwrite eng tag bucket unit loc mask s)

/-- XREAD (R201): A Skipper reads one or two extension lines. -/
def execXread (eng : Fin 512) (tag : Fin 8) (addr : U64) (two : Bool) (loc : BitVec 10) (s : State) :
    Host.Outcome State Fault Refusal :=
  finish (doXread eng tag addr two loc s)

/-- XWRITE (R201): A Skipper buffers an extension line write under a covering bucket. -/
def execXwrite (eng : Fin 512) (tag : Fin 8) (addr : U64) (loc : BitVec 10) (mask : U64) (cover : U32) (s : State) :
    Host.Outcome State Fault Refusal :=
  finish (doXwrite eng tag addr loc mask cover s)

/-- ATOM (R203): A Skipper performs ADD, BSET or a deferred BCLR on an extension line. -/
def execAtom (eng : Fin 512) (tag : Fin 8) (kind : Fin 3) (addr : U64) (operand : U64) (s : State) :
    Host.Outcome State Fault Refusal :=
  finish (doAtom eng tag kind addr operand s)

/-- PLACE (R201): A Skipper asks the owning slice for a key's chosen bucket. -/
def execPlace (eng : Fin 512) (tag : Fin 8) (loc : BitVec 10) (s : State) : Host.Outcome State Fault Refusal :=
  finish (doPlace eng tag loc s)

/-- PKT_NEXT (R199): A Skipper copies the header of the next held packet. -/
def execPktNext (eng : Fin 512) (tag : Fin 8) (loc : BitVec 10) (s : State) : Host.Outcome State Fault Refusal :=
  finish (doPktNext eng tag loc s)

/-- LBPICK (R219): A Skipper picks a backend from a load-balancing pool by hash. -/
def execLbpick (eng : Fin 512) (tag : Fin 8) (pool : U32) (hash : U32) (loc : U32) (s : State) :
    Host.Outcome State Fault Refusal :=
  finish (doLbpick eng tag pool hash loc s)

/-- TELEM (R224): A Skipper appends a 64-byte telemetry record. -/
def execTelem (eng : Fin 512) (tag : Fin 8) (loc : BitVec 10) (s : State) : Host.Outcome State Fault Refusal :=
  finish (doTelem eng tag loc s)

/-- TIMEREAD (R201): A Skipper reads TIME_NS and AGE_NOW. -/
def execTimeread (eng : Fin 512) (tag : Fin 8) (s : State) : Host.Outcome State Fault Refusal :=
  finish (doTimeread eng tag s)

/-- COMMIT (R206): A routine ends by handing its write buffer and deferred operations to the commit stores. -/
def execCommit (eng : Fin 512) (s : State) : Host.Outcome State Fault Refusal :=
  finish (doCommit eng s)

/-- COMMIT_HANDOVER (R206): A stalled commit finds room in every store and is handed over to the commit holder. -/
def execCommitHandover (eng : Fin 512) (s : State) : Host.Outcome State Fault Refusal :=
  finish (doCommitHandover eng s)

/-- FAIL (R210): A routine ends in a decision failure and its work is discarded. -/
def execFail (eng : Fin 512) (s : State) : Host.Outcome State Fault Refusal :=
  finish (doFail eng s)

/-- MEM_OP_COMPLETE (R201): A Skipper memory operation completes and sets its tag's status and result. -/
def execMemOpComplete (eng : Fin 512) (tag : Fin 8) (bad : Bool) (s : State) : Host.Outcome State Fault Refusal :=
  finish (doMemOpComplete eng tag bad s)

/-- UNPARK (R212): A parked engine wakes WAKE_LEAD cycles before its expected completion. -/
def execUnpark (eng : Fin 512) (s : State) : Host.Outcome State Fault Refusal :=
  finish (doUnpark eng s)

/-- SK_WATCHDOG (R211): A routine runs SKIP_WATCHDOG boundaries without ending, and its engine is lost. -/
def execSkWatchdog (eng : Fin 512) (s : State) : Host.Outcome State Fault Refusal :=
  finish (doSkWatchdog eng s)

end Sys2Proof.Machine
end

