-- ==== Sys2Proof/Machine/RowsSwitch.lean ====
section
/-! DEFINITION. The meanings of the rows of the switch core and the traffic manager (chapters 10 and 11): each command or event with the level of the fault pins
that follows. -/

namespace Sys2Proof.Machine

open Sys2Proof

/-- SC_STATUS_READ (R270): Returns shared-buffer status. -/
def execScStatusRead (p : CmdPkt) (s : State) : Host.Outcome State Fault Refusal := finish (runCommand opScStatusRead p s)

/-- SC_STATS_READ (R270): Returns switch-core counters per pipeline and device. -/
def execScStatsRead (p : CmdPkt) (s : State) : Host.Outcome State Fault Refusal := finish (runCommand opScStatsRead p s)

/-- SC_PORT_STATS_READ (R270): Returns eight drop counters per port. -/
def execScPortStatsRead (p : CmdPkt) (s : State) : Host.Outcome State Fault Refusal := finish (runCommand opScPortStatsRead p s)

/-- CAPTURE_RING_SET (R267): Configures, enables or disables a Logline or Sounding host ring. -/
def execCaptureRingSet (p : CmdPkt) (s : State) : Host.Outcome State Fault Refusal := finish (runCommand opCaptureRingSet p s)

/-- TM_SAMPLE_READ (R290): Returns queue samples. -/
def execTmSampleRead (p : CmdPkt) (s : State) : Host.Outcome State Fault Refusal := finish (runCommand opTmSampleRead p s)

/-- TM_QSTATS_READ (R290): Returns per-queue frame and octet counters. -/
def execTmQstatsRead (p : CmdPkt) (s : State) : Host.Outcome State Fault Refusal := finish (runCommand opTmQstatsRead p s)

/-- TM_POL_READ (R290): Returns policer tokens and drop counters per endpoint. -/
def execTmPolRead (p : CmdPkt) (s : State) : Host.Outcome State Fault Refusal := finish (runCommand opTmPolRead p s)

/-- TM_STATS_READ (R290): Returns device traffic-manager counters. -/
def execTmStatsRead (p : CmdPkt) (s : State) : Host.Outcome State Fault Refusal := finish (runCommand opTmStatsRead p s)

/-- FRAME_RECEIVE_START (R243): The ingress MAC timestamps a frame and writes its cells to staging, or drops it for overrun or full staging. -/
def execFrameReceiveStart (port : Fin 128) (t16 : BitVec 14) (frame : Bytes) (fifoFull : Bool) (s : State) :
    Host.Outcome State Fault Refusal :=
  finish (doFrameReceiveStart port t16 frame fifoFull s)

/-- FRAME_CELL_ARRIVE (R245): A later cell of a frame arrives and is charged to staging, the allowance or a continuation grant. -/
def execFrameCellArrive (port : Fin 128) (s : State) : Host.Outcome State Fault Refusal :=
  finish (doFrameCellArrive port s)

/-- MC_REPLICATE (R259): The replicator makes one copy per member of a multicast group, with pruning. -/
def execMcReplicate (pipe : Fin 4) (s : State) : Host.Outcome State Fault Refusal :=
  finish (doMcReplicate pipe s)

/-- EGRESS_SELECT (R278): A port's scheduler selects the next copy by strict, committed and excess tiers. -/
def execEgressSelect (port : Fin 128) (t16 : BitVec 14) (halfBad : Bool) (s : State) :
    Host.Outcome State Fault Refusal :=
  finish (doEgressSelect port t16 halfBad s)

/-- EGRESS_CELL_SEND (R256): Before each cell is sent its trailer is checked; a failure or an underrun ends the copy. -/
def execEgressCellSend (port : Fin 128) (cell : BitVec 19) (trailerBad : Bool) (halfBad : Bool) (s : State) :
    Host.Outcome State Fault Refusal :=
  finish (doEgressCellSend port cell trailerBad halfBad s)

/-- COPY_TX_DONE (R281): A copy's last byte leaves; the copy is charged, its cells are released and it is counted and metered. -/
def execCopyTxDone (port : Fin 128) (ns : BitVec 10) (s : State) : Host.Outcome State Fault Refusal :=
  finish (doCopyTxDone port ns s)

/-- PFC_FRAME_SEND (R250): The egress MAC sends a PFC or PAUSE frame for an XOFF transition. -/
def execPfcFrameSend (port : Fin 128) (s : State) : Host.Outcome State Fault Refusal :=
  finish (doPfcFrameSend port s)

/-- PAUSE_REFRESH (R250): A PAUSE or PFC frame is sent again after PAUSE_REFRESH Fix of XOFF. -/
def execPauseRefresh (port : Fin 128) (s : State) : Host.Outcome State Fault Refusal :=
  finish (doPauseRefresh port s)

/-- FLUSH_RELEASE (R257): A flushing port's unstarted copies are released at up to 4 cells per cycle per pipeline. -/
def execFlushRelease (port : Fin 128) (cells : BitVec 13) (s : State) : Host.Outcome State Fault Refusal :=
  finish (doFlushRelease port cells s)

/-- FLUSH_STUCK (R258): A flush not complete after 64 boundaries raises FLUSH_STUCK. -/
def execFlushStuck (port : Fin 128) (s : State) : Host.Outcome State Fault Refusal :=
  finish (doFlushStuck port s)

/-- LOGLINE_DELIVER (R263): Logline entries pass to the host ring as tokens and room allow, using overflow as needed. -/
def execLoglineDeliver (s : State) : Host.Outcome State Fault Refusal :=
  finish (doLoglineDeliver s)

/-- SOUND_DELIVER (R266): Sounding samples are written to the host ring with the DMA units left after billing. -/
def execSoundDeliver (s : State) : Host.Outcome State Fault Refusal :=
  finish (doSoundDeliver s)

/-- CELL_AUDIT_VISIT (R271): The audit visits 384 cells and reclaims cells unreferenced for two visits. -/
def execCellAuditVisit (lost : List (BitVec 19)) (s : State) : Host.Outcome State Fault Refusal :=
  finish (doCellAuditVisit lost s)

end Sys2Proof.Machine
end

