-- ==== Sys2Proof/Machine/RowsTime.lean ====
section
/-! DEFINITION. The meanings of the rows of Meridian (chapter 5): each command or event with the level of the fault pins
that follows. -/

namespace Sys2Proof.Machine

open Sys2Proof

/-- TIMED_ARM (R118): Arms a timed-action slot with a pin, SET, COMMIT or ROLE action at a target time. -/
def execTimedArm (p : CmdPkt) (s : State) : Host.Outcome State Fault Refusal := finish (runCommand opTimedArm p s)

/-- TIMED_CANCEL (R121): Removes an armed timed action. -/
def execTimedCancel (p : CmdPkt) (s : State) : Host.Outcome State Fault Refusal := finish (runCommand opTimedCancel p s)

/-- TIMED_READ (R122): Writes the state and last status of all 64 slots. -/
def execTimedRead (p : CmdPkt) (s : State) : Host.Outcome State Fault Refusal := finish (runCommand opTimedRead p s)

/-- TIME_CAP_READ (R116): Copies capture FIFO entries, removing them except from ring 2. -/
def execTimeCapRead (p : CmdPkt) (s : State) : Host.Outcome State Fault Refusal := finish (runCommand opTimeCapRead p s)

/-- TIME_STATUS (R126): Writes the synchronisation state, UTC offset, offset from master, path delay and master identity. -/
def execTimeStatus (p : CmdPkt) (s : State) : Host.Outcome State Fault Refusal := finish (runCommand opTimeStatus p s)

/-- TIME_SET (R127): Sets time of day, UTC offset and leap flags while PTP is disabled. -/
def execTimeSet (p : CmdPkt) (s : State) : Host.Outcome State Fault Refusal := finish (runCommand opTimeSet p s)

/-- PTP_MESSAGE_RECEIVED (R107): A PTP message is taken to Binnacle, or in TC mode has its residence time added. -/
def execPtpMessageReceived (port : Fin 128) (pk : Nat) (servo : Option ServoIn) (s : State) :
    Host.Outcome State Fault Refusal :=
  finish (doPtpMessageReceived port pk servo s)

/-- PTP_MESSAGE_SEND (R107): Binnacle sends a PTP message through the port's highest strict queue. -/
def execPtpMessageSend (port : Fin 128) (dst : BitVec 48) (hdr : Bytes) (msg : Bytes) (s : State) :
    Host.Outcome State Fault Refusal :=
  finish (doPtpMessageSend port dst hdr msg s)

/-- FOLLOW_UP_SEND (R108): In two-step operation Binnacle sends a Follow_Up within 1 ms of the Sync. -/
def execFollowUpSend (port : Fin 128) (dst : BitVec 48) (hdr : Bytes) (msg : Bytes) (s : State) :
    Host.Outcome State Fault Refusal :=
  finish (doFollowUpSend port dst hdr msg s)

/-- SYNC_TIMEOUT (R111): An announce timeout or four missing Syncs moves LOCKED to HOLDOVER and raises SYNC_LOST. -/
def execSyncTimeout (s : State) : Host.Outcome State Fault Refusal :=
  finish (doSyncTimeout s)

/-- HOLDOVER_LIMIT_EXPIRE (R111): HOLDOVER_LIMIT elapses and the clock goes to FREERUN with HOLDOVER_END. -/
def execHoldoverLimitExpire (s : State) : Host.Outcome State Fault Refusal :=
  finish (doHoldoverLimitExpire s)

/-- ANCHOR_REWRITE (R104): After a wrap or step, Binnacle rewrites MER_WRAP_TAI and increments MER_WRAP_SEQ. -/
def execAnchorRewrite (s : State) : Host.Outcome State Fault Refusal :=
  finish (doAnchorRewrite s)

/-- PPS_OUT_RISE (R114): PPS_OUT rises at each whole TAI second when enabled and synchronised. -/
def execPpsOutRise (ns : BitVec 10) (s : State) : Host.Outcome State Fault Refusal :=
  finish (doPpsOutRise ns s)

/-- PPS_OUT_FALL (R114): PPS_OUT falls after PPS_OUT_WIDTH. -/
def execPpsOutFall (ns : BitVec 10) (s : State) : Host.Outcome State Fault Refusal :=
  finish (doPpsOutFall ns s)

/-- TIME_CAP_EDGE (R115): A selected TIME_CAP edge is recorded with its time, or dropped on overrun. -/
def execTimeCapEdge (ch : Fin 2) (rising : Bool) (ns : BitVec 10) (s : State) : Host.Outcome State Fault Refusal :=
  finish (doTimeCapEdge ch rising ns s)

/-- PPS_IN_EDGE (R116): A PPS_IN rising edge is captured and, in discipline mode, steers the servo. -/
def execPpsInEdge (ns : BitVec 10) (addend : U64) (s : State) : Host.Outcome State Fault Refusal :=
  finish (doPpsInEdge ns addend s)

/-- PPS_IN_MISSING (R116): A PPS_IN edge missing for 2 s in discipline mode moves LOCKED to HOLDOVER. -/
def execPpsInMissing (s : State) : Host.Outcome State Fault Refusal :=
  finish (doPpsInMissing s)

/-- TIMED_ACTION_FIRE (R117): A timed action reaches its target and is presented as a rank-6 input and applied. -/
def execTimedActionFire (slot : Fin 64) (ns : BitVec 10) (s : State) : Host.Outcome State Fault Refusal :=
  finish (doTimedActionFire slot ns s)

/-- TIMED_PULSE_FALL (R117): A pulse's falling edge is driven WIDTH ns after its rise. -/
def execTimedPulseFall (slot : Fin 64) (ns : BitVec 10) (s : State) : Host.Outcome State Fault Refusal :=
  finish (doTimedPulseFall slot ns s)

/-- MINUTE_ARM (R125): Binnacle computes the next minute Fix and arms slot 0 or 1 for it. -/
def execMinuteArm (s : State) : Host.Outcome State Fault Refusal :=
  finish (doMinuteArm s)

end Sys2Proof.Machine
end

