-- ==== Sys2Proof/Machine/Boundary.lean ====
section
/-! DEFINITION. The work of a Fix boundary in the order of Table 2.2 (R40). -/

namespace Sys2Proof.Machine

open Sys2Proof

/-! ### The Fix begins -/

/-- Figures that count within one Fix start again. -/
def startFix (s : State) : State :=
  let aged := fun (m : KMap Nat) => m.map (fun (e : Nat × Nat) => (e.1, e.2 + 1))
  { portsAge s with
    ctl.closed := false
    ctl.changed := []
    ctl.multi := s.ctl.multi.map (fun m => { m with count := m.count + 1 })
    host.fetchedThisFix := 0
    host.checkedThisFix := 0
    lod.inFix := []
    lod.isoBad := []
    met.mismatched := false
    met.slotsUsed := 0
    met.closing := s.met.closing.map (fun c => { c with age := c.age + 1 })
    met.staged := s.met.staged.map (fun b => { b with age := b.age + 1 })
    sw.soundUnits := 0
    sw.pauseAge := aged s.sw.pauseAge
    sw.flush := aged s.sw.flush }

/-- The tokens of the Fix are restored under the rates now active (R41, R264, R340, R440), and the window of loop 1 sees the free
cells that a commit leaves (R261). -/
def tokensStep (s : State) : State :=
  noteFree { s with
    met.rateLeft := fv s 12 3 0 0 7
    sw.logTokens := fv s 6 0xB 0 0 6
    perf.tokens := if fixN s % 16 = 0 then fv s 15 0x21 0 0 3 else s.perf.tokens }

/-! ### Step 4 -/

/-- The samples that describe Fix b−1 (R40). -/
def latchStep (env : BoundaryEnv) (s : State) : State :=
  ingDeadline <| hbmTrainEnd env.trainBad (chartClear (tombstoneStep (pairLatchStep (swapLatch (perfLatch (loop2Latch (loop1Latch (tmSample s))))))))

/-! ### Step 5 -/

/-- The work of step 5 beside the apply set. -/
def switchStep (env : BoundaryEnv) (s : State) : State :=
  let s := portsBoundary (moverStep (pairStateStep (domainRecover (engineReturn s))))
  drainLeave (thermStep env.junction s)

/-! ### A step of TIME_NS lands (R34 to R36) -/

/-- AGE_NOW moves by the whole ages that time crosses from Fix a by k Fix, forward or backward (R177). (Log: DEDUCED, log entry 22.) -/
def ageBy (a : Nat) (k : Int) (s : State) : State :=
  { s with flow.ageNow := s.flow.ageNow + BitVec.ofInt 32 (((a % 1024 : Nat) + k) / 1024) }

/-- A target is due at the landing boundary of a step of k Fix from Fix a. (Log: DEDUCED, log entry 22.) -/
def dueAtLanding (a : Nat) (k : Int) (s : State) (f : FixNo) : Bool :=
  if 0 < k then decide ((2 ^ 22 : Int) ≤ k) || (decide (0 < fixSub f.toNat a) && decide ((fixSub f.toNat a : Int) ≤ k))
  else f == s.clock.fix

/-- The sample of the landing boundary (R35, R36): the inputs due at the boundaries that a forward step passed over, those that
reached the sampler after the last close among them, and those due at the landing itself. It is resolved under the normal
rules, with claims of its own, and applied. (Log: DEDUCED, log entry 22.) -/
def landInputs (a : Nat) (k : Int) (s : State) : State :=
  let dueF := dueAtLanding a k s
  let due := fun (c : Sched) => dueF c.target
  let gone := s.ctl.leases.filter (leaseOver (fixN s))
  let s := gone.foldl (fun s l => expireLease l s) s
  let is := inputsOf s (fixOf (a + 1)) dueF false (decide (0 < k))
  let s := if 0 < k then takeInputs due s
    else
      let q := s.ctl.queue
      let s := holdSleepers due { s with ctl.queue := [] }
      { s with ctl.queue := q, ctl.sched := s.ctl.sched.filter (fun c => !due c) }
  let r := resolveAll (if 0 < k then some a else none) is
    { v := s, claimed := [], out := [], ended := gone.map (fun l => (l.owner, l.group)) }
  applySet r.out (countInputs r.out { s with
    ctl.apply := s.ctl.apply ++ r.out
    ctl.claimed := r.claimed
    ctl.staging := r.v.ctl.staging
    ctl.leases := r.v.ctl.leases })

/-- The step that is due lands; the Fix it moves by is 0 where none is due. (Log: DEDUCED, log entry 22.) -/
def landing (s : State) : Int × State :=
  let a := fixN s
  let k := limitStep s s.clock.stepDue
  let s := landStep s
  if k = 0 then (0, s)
  else
    let s := ageBy a k s
    (k, if s.ctl.ready then landInputs a k s else s)

/-! ### Steps 6 to 8 -/

def refillStep (s : State) : State := pairRefill (pmRefill (tmRefill (hbmRefill s)))

/-- A heartbeat is due at b, or was at a boundary stepped over. -/
def beatDue (s : State) (k : Int) : Bool :=
  fixN s % 8 == 0 || (decide (0 < k) && decide ((fixN s : Int) % 8 < k))

/-! ### Steps 9 to 11 -/

/-- Shadow words, interrupts and head words of the capture, billing and Monarch rings (R268). -/
def hostRingStep (env : BoundaryEnv) (s : State) : State :=
  let s := ringShadow s.perf.ring (ringShadow s.met.ring (s.sw.rings.foldl (fun s r => ringShadow r s) s))
  let next := fun (i : Nat) (r : HostRing) => ringHead (env.heads.getD i none) { r with wrote := false }
  { s with
    sw.rings := (List.zip (List.range s.sw.rings.length) s.sw.rings).map (fun e => next e.1 e.2)
    met.ring := next 5 s.met.ring
    perf.ring := next 6 s.perf.ring }

/-- A decision of Autopilot enters the sample of the next boundary (rank 7). -/
def decideAp (loop : Nat) (o : Obj) (old new : Nat) (s : State) : State :=
  if old = new then s
  else
    let i : Input := { rank := 7, sub := loop, due := s.clock.fix + 1, body := .autopilot loop o old new }
    { s with ctl.queue := s.ctl.queue ++ [i] }

/-- Loop 1 on the window of 32 Fix (R261). -/
def apLoop1 (s : State) : State :=
  if fixN s % 32 ≠ 0 then s
  else (loop1Decide s).foldl (fun s d => decideAp 1 d.1 d.2.1 d.2.2 s) s

/-- Loops 2, 3 and 4 on the window of 1,024 Fix (R187, R220). -/
def apLoops (s : State) : State :=
  if fixN s % 1024 ≠ 0 then s
  else
    let t := [0, 1, 2, 3].foldl (fun t sl => decideAp 2 (oid 3 5 sl) (objVal s (oid 3 5 sl)) (loop2 s sl) t) s
    let t := [0, 1, 2, 3].foldl (fun t sl => decideAp 3 (oid 3 6 sl) (objVal s (oid 3 6 sl)) (loop3 s sl) t) t
    (cfgIdx s 4 0x15).foldl (fun t q =>
      match loop4 s q with
      | some (j, k) =>
        let o := oid 4 0x10 (q * 256 + j)
        decideAp 4 o (objVal s o) (setBits (objVal s o) 0 6 k) t
      | none => t) t

/-- The counts of loops 3 and 4 cover 1,024 Fix, whether or not Autopilot decides on them (R187, R220). -/
def windowEnd (s : State) : State := if fixN s % 1024 ≠ 0 then s else closeWindow (loop3Reset s)

def autopilotStep (s : State) : State := windowEnd (if !s.ctl.ready || asleep s then s else apLoops (apLoop1 s))

/-- Checks and sensors that run at boundaries. (Log: DEDUCED, log entry 23.) -/
def senseStep (env : BoundaryEnv) (s : State) : State :=
  let s := perfParity env.perfBad (selfTests env.checkerBad env.reactionOk (tcamScrub s))
  hbmTrainStart (hbmTempRead env.hbmTemp s)

/-! ### The whole -/

/-- Steps 4 and 5 at the boundary that has begun. (Log: DESIGN CHOICE, log entry 2.) -/
def boundarySwitch (env : BoundaryEnv) (s : State) : State :=
  let s := perfEvent 0x0001 5 0 0 0 1 (latchStep env (startFix (edgesPast (tick (perfCycles s)))))
  let s := { s with skip.enWas := BitVec.ofNat 32 (fv s 4 1 0 0 32) }
  let s := ageBy ((fixN s + 2 ^ 22 - 1) % 2 ^ 22) 1 s
  applySet s.ctl.apply (gateStep (decisionFailStep (ownerLossStep (commitStep s))))

/-- The rest of step 5, and steps 6 to 11; reads come before the completions of step 9 (R47). (Log: DESIGN CHOICE, log entry 2; DEDUCED, log entry 23.) -/
def boundaryRest (env : BoundaryEnv) (s : State) : State :=
  let (k, s) := landing (switchStep env s)
  let s := readStep (minuteWindow (beatStep (beatDue s k) (minuteFlip (ppsGate (refillStep (tokensStep s))))))
  let s := replayStep (skipAge (flowAge s))
  let s := hostRingStep env (perfIrq (fencesOver (flushCpls s)))
  autopilotStep (powerStep env.ptpDue (senseStep env s))

/-- FIX_BOUNDARY (R40). A boundary whose sample has not been closed closes it first. A chip reset among the winning
orders ends the boundary. (Log: DESIGN CHOICE, log entry 2; DEDUCED, log entry 20; DEDUCED, log entry 23.) -/
def doFixBoundary (env : BoundaryEnv) (s : State) : State :=
  if !s.boot.sysRst then s
  else
    let s := flrStep (if s.ctl.closed then s else closeSample s)
    let t := boundarySwitch env s
    if s.ctl.ready && !t.ctl.ready then t else boundaryRest env t

end Sys2Proof.Machine
end

