-- ==== Sys2Proof/Machine/RowsTimeline.lean ====
section
/-! DEFINITION. The meanings of the rows of the Fix timeline (chapter 2): each command or event with the level of the fault pins
that follows. -/

namespace Sys2Proof.Machine

open Sys2Proof

/-- FIX_BOUNDARY (R40): At each Fix boundary the device latches its samples, switches to the apply set, refills credits and shapers, and does the rest of the boundary work of Table 2.2. -/
def execFixBoundary (env : BoundaryEnv) (s : State) : Host.Outcome State Fault Refusal :=
  finish (doFixBoundary env s)

/-- SAMPLE_CLOSE (R37): When TIME_NS[9:0] reaches 896, the Fix sampler closes the input set for the next boundary, ends expiring leases and resolves the set into an apply set. -/
def execSampleClose (s : State) : Host.Outcome State Fault Refusal :=
  finish (doSampleClose s)

/-- LEASE_EXPIRED (R57): A lease reaches its expiry boundary: its staged entries are discarded and a Class 3 LEASE_EXPIRED message is raised. -/
def execLeaseExpired (s : State) : Host.Outcome State Fault Refusal :=
  finish (doLeaseExpired s)

/-- CFG_STAGE (R50): Stages one or more field entries for the caller, all or none. -/
def execCfgStage (p : CmdPkt) (s : State) : Host.Outcome State Fault Refusal := finish (runCommand opCfgStage p s)

/-- CFG_COMMIT (R52): Applies all of the owner's staged entries of a group at one boundary, or refuses them all. -/
def execCfgCommit (p : CmdPkt) (s : State) : Host.Outcome State Fault Refusal := finish (runCommand opCfgCommit p s)

/-- CFG_ABORT (R474): Discards the owner's staged entries of a group. -/
def execCfgAbort (p : CmdPkt) (s : State) : Host.Outcome State Fault Refusal := finish (runCommand opCfgAbort p s)

/-- CFG_READ (R47): Returns the active or staged copy of one object. -/
def execCfgRead (p : CmdPkt) (s : State) : Host.Outcome State Fault Refusal := finish (runCommand opCfgRead p s)

/-- LEASE_TAKE (R54): Gives the caller sole write access to an object group for DURATION Fix. -/
def execLeaseTake (p : CmdPkt) (s : State) : Host.Outcome State Fault Refusal := finish (runCommand opLeaseTake p s)

/-- LEASE_RELEASE (R55): Ends the caller's lease on a group and discards its uncommitted entries. -/
def execLeaseRelease (p : CmdPkt) (s : State) : Host.Outcome State Fault Refusal := finish (runCommand opLeaseRelease p s)

/-- AP_JOURNAL_READ (R58): Copies Autopilot journal entries from START, oldest first. -/
def execApJournalRead (p : CmdPkt) (s : State) : Host.Outcome State Fault Refusal := finish (runCommand opApJournalRead p s)

/-- BINNACLE_READY (R59): Binnacle reports ready at a boundary, and the sampler accepts inputs from the next boundary. -/
def execBinnacleReady (s : State) : Host.Outcome State Fault Refusal :=
  finish (doBinnacleReady s)

end Sys2Proof.Machine
end

