-- ==== Sys2Proof/Machine/Dispatch.lean ====
section
/-! DEFINITION. The dispatch: one arm for each command or event, each a direct call of its meaning. -/

namespace Sys2Proof.Machine

open Sys2Proof

def exec (i : Instr) (s : State) : Host.Outcome State Fault Refusal :=
  match i with
  | .fixBoundary env => Sys2Proof.Machine.execFixBoundary env s
  | .sampleClose => Sys2Proof.Machine.execSampleClose s
  | .leaseExpired => Sys2Proof.Machine.execLeaseExpired s
  | .multiFixTimeout => Sys2Proof.Machine.execMultiFixTimeout s
  | .genDrainStuck => Sys2Proof.Machine.execGenDrainStuck s
  | .quietPeriodEnd src cls => Sys2Proof.Machine.execQuietPeriodEnd src cls s
  | .tenantDrainEnd tenant => Sys2Proof.Machine.execTenantDrainEnd tenant s
  | .sysInfo p => Sys2Proof.Machine.execSysInfo p s
  | .cfgStage p => Sys2Proof.Machine.execCfgStage p s
  | .cfgCommit p => Sys2Proof.Machine.execCfgCommit p s
  | .cfgAbort p => Sys2Proof.Machine.execCfgAbort p s
  | .cfgRead p => Sys2Proof.Machine.execCfgRead p s
  | .leaseTake p => Sys2Proof.Machine.execLeaseTake p s
  | .leaseRelease p => Sys2Proof.Machine.execLeaseRelease p s
  | .apJournalRead p => Sys2Proof.Machine.execApJournalRead p s
  | .ringTenantSet p => Sys2Proof.Machine.execRingTenantSet p s
  | .inbandKeySet p => Sys2Proof.Machine.execInbandKeySet p s
  | .inbandConfig p => Sys2Proof.Machine.execInbandConfig p s
  | .portRead p => Sys2Proof.Machine.execPortRead p s
  | .timedArm p => Sys2Proof.Machine.execTimedArm p s
  | .timedCancel p => Sys2Proof.Machine.execTimedCancel p s
  | .timedRead p => Sys2Proof.Machine.execTimedRead p s
  | .timeCapRead p => Sys2Proof.Machine.execTimeCapRead p s
  | .timeStatus p => Sys2Proof.Machine.execTimeStatus p s
  | .timeSet p => Sys2Proof.Machine.execTimeSet p s
  | .parseNodeWrite p => Sys2Proof.Machine.execParseNodeWrite p s
  | .parseNodeRead p => Sys2Proof.Machine.execParseNodeRead p s
  | .rulesetSwap p => Sys2Proof.Machine.execRulesetSwap p s
  | .rulesetStatus p => Sys2Proof.Machine.execRulesetStatus p s
  | .clsEntryWrite p => Sys2Proof.Machine.execClsEntryWrite p s
  | .clsEntryRead p => Sys2Proof.Machine.execClsEntryRead p s
  | .pmPatternWrite p => Sys2Proof.Machine.execPmPatternWrite p s
  | .pmBuild p => Sys2Proof.Machine.execPmBuild p s
  | .pmCopy p => Sys2Proof.Machine.execPmCopy p s
  | .pipeStatsRead p => Sys2Proof.Machine.execPipeStatsRead p s
  | .flowInsert p => Sys2Proof.Machine.execFlowInsert p s
  | .flowDelete p => Sys2Proof.Machine.execFlowDelete p s
  | .flowRead p => Sys2Proof.Machine.execFlowRead p s
  | .flowModify p => Sys2Proof.Machine.execFlowModify p s
  | .flowPurgeTenant p => Sys2Proof.Machine.execFlowPurgeTenant p s
  | .flowStatsRead p => Sys2Proof.Machine.execFlowStatsRead p s
  | .flowEventRead p => Sys2Proof.Machine.execFlowEventRead p s
  | .flowFind p => Sys2Proof.Machine.execFlowFind p s
  | .skipStatusRead p => Sys2Proof.Machine.execSkipStatusRead p s
  | .skipStatsRead p => Sys2Proof.Machine.execSkipStatsRead p s
  | .skipRun p => Sys2Proof.Machine.execSkipRun p s
  | .skipReset p => Sys2Proof.Machine.execSkipReset p s
  | .skipTelemRead p => Sys2Proof.Machine.execSkipTelemRead p s
  | .lbRead p => Sys2Proof.Machine.execLbRead p s
  | .ucodeLoad p => Sys2Proof.Machine.execUcodeLoad p s
  | .ucodeInfo p => Sys2Proof.Machine.execUcodeInfo p s
  | .ucodeRead p => Sys2Proof.Machine.execUcodeRead p s
  | .scStatusRead p => Sys2Proof.Machine.execScStatusRead p s
  | .scStatsRead p => Sys2Proof.Machine.execScStatsRead p s
  | .scPortStatsRead p => Sys2Proof.Machine.execScPortStatsRead p s
  | .captureRingSet p => Sys2Proof.Machine.execCaptureRingSet p s
  | .tmSampleRead p => Sys2Proof.Machine.execTmSampleRead p s
  | .tmQstatsRead p => Sys2Proof.Machine.execTmQstatsRead p s
  | .tmPolRead p => Sys2Proof.Machine.execTmPolRead p s
  | .tmStatsRead p => Sys2Proof.Machine.execTmStatsRead p s
  | .poolStatsRead p => Sys2Proof.Machine.execPoolStatsRead p s
  | .poolAcctRead p => Sys2Proof.Machine.execPoolAcctRead p s
  | .poolAlloc p => Sys2Proof.Machine.execPoolAlloc p s
  | .poolFree p => Sys2Proof.Machine.execPoolFree p s
  | .poolOwnerRead p => Sys2Proof.Machine.execPoolOwnerRead p s
  | .hbmStatusRead p => Sys2Proof.Machine.execHbmStatusRead p s
  | .hbmStatsRead p => Sys2Proof.Machine.execHbmStatsRead p s
  | .arbStatsRead p => Sys2Proof.Machine.execArbStatsRead p s
  | .hbmRegionInfo p => Sys2Proof.Machine.execHbmRegionInfo p s
  | .hbmRetrain p => Sys2Proof.Machine.execHbmRetrain p s
  | .meterStatsRead p => Sys2Proof.Machine.execMeterStatsRead p s
  | .meterCloseInfo p => Sys2Proof.Machine.execMeterCloseInfo p s
  | .billingSign p => Sys2Proof.Machine.execBillingSign p s
  | .billRingSet p => Sys2Proof.Machine.execBillRingSet p s
  | .billBlockRead p => Sys2Proof.Machine.execBillBlockRead p s
  | .pairStatusRead p => Sys2Proof.Machine.execPairStatusRead p s
  | .pairRole p => Sys2Proof.Machine.execPairRole p s
  | .pairStatsRead p => Sys2Proof.Machine.execPairStatsRead p s
  | .pairResync p => Sys2Proof.Machine.execPairResync p s
  | .pairHeadRead p => Sys2Proof.Machine.execPairHeadRead p s
  | .faultLogRead p => Sys2Proof.Machine.execFaultLogRead p s
  | .faultRelease p => Sys2Proof.Machine.execFaultRelease p s
  | .faultStatusRead p => Sys2Proof.Machine.execFaultStatusRead p s
  | .faultInjectUnlock p => Sys2Proof.Machine.execFaultInjectUnlock p s
  | .faultInject p => Sys2Proof.Machine.execFaultInject p s
  | .isoTenantRead p => Sys2Proof.Machine.execIsoTenantRead p s
  | .powerStatusRead p => Sys2Proof.Machine.execPowerStatusRead p s
  | .powerPolicy p => Sys2Proof.Machine.execPowerPolicy p s
  | .attest p => Sys2Proof.Machine.execAttest p s
  | .imageInfo p => Sys2Proof.Machine.execImageInfo p s
  | .imageStage p => Sys2Proof.Machine.execImageStage p s
  | .imageAccept p => Sys2Proof.Machine.execImageAccept p s
  | .imageFlash p => Sys2Proof.Machine.execImageFlash p s
  | .chipReset p => Sys2Proof.Machine.execChipReset p s
  | .imageFuse p => Sys2Proof.Machine.execImageFuse p s
  | .certRead p => Sys2Proof.Machine.execCertRead p s
  | .perfRead p => Sys2Proof.Machine.execPerfRead p s
  | .monRingSet p => Sys2Proof.Machine.execMonRingSet p s
  | .monStatsRead p => Sys2Proof.Machine.execMonStatsRead p s
  | .cmdDoorbell ring value => Sys2Proof.Machine.execCmdDoorbell ring value s
  | .cqHeadWrite ring value => Sys2Proof.Machine.execCqHeadWrite ring value s
  | .ringEnable ring => Sys2Proof.Machine.execRingEnable ring s
  | .ringDisable ring => Sys2Proof.Machine.execRingDisable ring s
  | .dberrRead ring => Sys2Proof.Machine.execDberrRead ring s
  | .cmdFetch => Sys2Proof.Machine.execCmdFetch s
  | .cmdFetchDone ring res => Sys2Proof.Machine.execCmdFetchDone ring res s
  | .functionLevelReset => Sys2Proof.Machine.execFunctionLevelReset s
  | .pcieLinkReset kind => Sys2Proof.Machine.execPcieLinkReset kind s
  | .perstNRelease => Sys2Proof.Machine.execPerstNRelease s
  | .registerWrite bar2 off wide full data => Sys2Proof.Machine.execRegisterWrite bar2 off wide full data s
  | .faultHeadWrite value => Sys2Proof.Machine.execFaultHeadWrite value s
  | .macStickyClear lane value => Sys2Proof.Machine.execMacStickyClear lane value s
  | .stepCountRead => Sys2Proof.Machine.execStepCountRead s
  | .wrapTaiLoRead => Sys2Proof.Machine.execWrapTaiLoRead s
  | .perfValLoRead counter => Sys2Proof.Machine.execPerfValLoRead counter s
  | .bootGo => Sys2Proof.Machine.execBootGo s
  | .powerOn => Sys2Proof.Machine.execPowerOn s
  | .vddAonLoss => Sys2Proof.Machine.execVddAonLoss s
  | .sysRstAssert => Sys2Proof.Machine.execSysRstAssert s
  | .sysRstRelease bootSrc ftest pairPresent => Sys2Proof.Machine.execSysRstRelease bootSrc ftest pairPresent s
  | .bootRomTestDone otpBad keyOk rngBad => Sys2Proof.Machine.execBootRomTestDone otpBad keyOk rngBad s
  | .imageHeadersRead a b => Sys2Proof.Machine.execImageHeadersRead a b s
  | .imageBodyReadDone body => Sys2Proof.Machine.execImageBodyReadDone body s
  | .binnacleStarted => Sys2Proof.Machine.execBinnacleStarted s
  | .startupHbmDone dead => Sys2Proof.Machine.execStartupHbmDone dead s
  | .startupUcodeDone => Sys2Proof.Machine.execStartupUcodeDone s
  | .binnacleReady => Sys2Proof.Machine.execBinnacleReady s
  | .binnacleRestartDone => Sys2Proof.Machine.execBinnacleRestartDone s
  | .frameReceiveStart port t16 frame fifoFull => Sys2Proof.Machine.execFrameReceiveStart port t16 frame fifoFull s
  | .frameCellArrive port => Sys2Proof.Machine.execFrameCellArrive port s
  | .frameReceiveEnd port pcs => Sys2Proof.Machine.execFrameReceiveEnd port pcs s
  | .parseStart pk bad laneFree => Sys2Proof.Machine.execParseStart pk bad laneFree s
  | .recircPassStart pipe bad laneFree => Sys2Proof.Machine.execRecircPassStart pipe bad laneFree s
  | .flowLookup pk lane => Sys2Proof.Machine.execFlowLookup pk lane s
  | .flowBucketReturn pk bad lane => Sys2Proof.Machine.execFlowBucketReturn pk bad lane s
  | .lookupAnswer pk bad => Sys2Proof.Machine.execLookupAnswer pk bad s
  | .decideReenter pk bad => Sys2Proof.Machine.execDecideReenter pk bad s
  | .stage12Exit pk ns => Sys2Proof.Machine.execStage12Exit pk ns s
  | .mcReplicate pipe => Sys2Proof.Machine.execMcReplicate pipe s
  | .egressSelect port t16 halfBad => Sys2Proof.Machine.execEgressSelect port t16 halfBad s
  | .egressCellSend port cell trailerBad halfBad => Sys2Proof.Machine.execEgressCellSend port cell trailerBad halfBad s
  | .copyTxDone port ns => Sys2Proof.Machine.execCopyTxDone port ns s
  | .pfcFrameSend port => Sys2Proof.Machine.execPfcFrameSend port s
  | .pauseRefresh port => Sys2Proof.Machine.execPauseRefresh port s
  | .pauseFrameReceived port ns pfc vec times => Sys2Proof.Machine.execPauseFrameReceived port ns pfc vec times s
  | .pauseTimerExpire port prio ns => Sys2Proof.Machine.execPauseTimerExpire port prio ns s
  | .flushRelease port cells => Sys2Proof.Machine.execFlushRelease port cells s
  | .flushStuck port => Sys2Proof.Machine.execFlushStuck port s
  | .linkLoss port ns kind => Sys2Proof.Machine.execLinkLoss port ns kind s
  | .downHoldExpire port ns => Sys2Proof.Machine.execDownHoldExpire port ns s
  | .upHoldExpire port ns => Sys2Proof.Machine.execUpHoldExpire port ns s
  | .negotiateDone port => Sys2Proof.Machine.execNegotiateDone port s
  | .trainDone port => Sys2Proof.Machine.execTrainDone port s
  | .trainFail port => Sys2Proof.Machine.execTrainFail port s
  | .alignLost port ns kind => Sys2Proof.Machine.execAlignLost port ns kind s
  | .ptpMessageReceived port pk servo => Sys2Proof.Machine.execPtpMessageReceived port pk servo s
  | .ptpMessageSend port dst hdr msg => Sys2Proof.Machine.execPtpMessageSend port dst hdr msg s
  | .followUpSend port dst hdr msg => Sys2Proof.Machine.execFollowUpSend port dst hdr msg s
  | .syncTimeout => Sys2Proof.Machine.execSyncTimeout s
  | .holdoverLimitExpire => Sys2Proof.Machine.execHoldoverLimitExpire s
  | .anchorRewrite => Sys2Proof.Machine.execAnchorRewrite s
  | .ppsOutRise ns => Sys2Proof.Machine.execPpsOutRise ns s
  | .ppsOutFall ns => Sys2Proof.Machine.execPpsOutFall ns s
  | .timeCapEdge ch rising ns => Sys2Proof.Machine.execTimeCapEdge ch rising ns s
  | .ppsInEdge ns addend => Sys2Proof.Machine.execPpsInEdge ns addend s
  | .ppsInMissing => Sys2Proof.Machine.execPpsInMissing s
  | .timedActionFire slot ns => Sys2Proof.Machine.execTimedActionFire slot ns s
  | .timedPulseFall slot ns => Sys2Proof.Machine.execTimedPulseFall slot ns s
  | .minuteArm => Sys2Proof.Machine.execMinuteArm s
  | .meterSeal => Sys2Proof.Machine.execMeterSeal s
  | .billingHashDone => Sys2Proof.Machine.execBillingHashDone s
  | .ckptWriteDone => Sys2Proof.Machine.execCkptWriteDone s
  | .ckptLate => Sys2Proof.Machine.execCkptLate s
  | .billRingDeliver => Sys2Proof.Machine.execBillRingDeliver s
  | .loglineDeliver => Sys2Proof.Machine.execLoglineDeliver s
  | .soundDeliver => Sys2Proof.Machine.execSoundDeliver s
  | .monRecordDeliver => Sys2Proof.Machine.execMonRecordDeliver s
  | .cacheCleanerWriteback slice => Sys2Proof.Machine.execCacheCleanerWriteback slice s
  | .moverAttempt slice => Sys2Proof.Machine.execMoverAttempt slice s
  | .ageScan slice => Sys2Proof.Machine.execAgeScan slice s
  | .exiledUpdate slice => Sys2Proof.Machine.execExiledUpdate slice s
  | .microwordExecute eng gap => Sys2Proof.Machine.execMicrowordExecute eng gap s
  | .lock eng tag bucket => Sys2Proof.Machine.execLock eng tag bucket s
  | .lockr eng tag bucket loc => Sys2Proof.Machine.execLockr eng tag bucket loc s
  | .lockset eng tag loc => Sys2Proof.Machine.execLockset eng tag loc s
  | .bread eng tag bucket loc => Sys2Proof.Machine.execBread eng tag bucket loc s
  | .bwrite eng tag bucket unit loc mask => Sys2Proof.Machine.execBwrite eng tag bucket unit loc mask s
  | .xread eng tag addr two loc => Sys2Proof.Machine.execXread eng tag addr two loc s
  | .xwrite eng tag addr loc mask cover => Sys2Proof.Machine.execXwrite eng tag addr loc mask cover s
  | .atom eng tag kind addr operand => Sys2Proof.Machine.execAtom eng tag kind addr operand s
  | .place eng tag loc => Sys2Proof.Machine.execPlace eng tag loc s
  | .skPoolAlloc eng tag pool owner => Sys2Proof.Machine.execSkPoolAlloc eng tag pool owner s
  | .skPoolFree eng tag ref => Sys2Proof.Machine.execSkPoolFree eng tag ref s
  | .pktNext eng tag loc => Sys2Proof.Machine.execPktNext eng tag loc s
  | .lbpick eng tag pool hash loc => Sys2Proof.Machine.execLbpick eng tag pool hash loc s
  | .telem eng tag loc => Sys2Proof.Machine.execTelem eng tag loc s
  | .timeread eng tag => Sys2Proof.Machine.execTimeread eng tag s
  | .commit eng => Sys2Proof.Machine.execCommit eng s
  | .commitHandover eng => Sys2Proof.Machine.execCommitHandover eng s
  | .fail eng => Sys2Proof.Machine.execFail eng s
  | .memOpComplete eng tag bad => Sys2Proof.Machine.execMemOpComplete eng tag bad s
  | .lockGrant bucket cycles => Sys2Proof.Machine.execLockGrant bucket cycles s
  | .lockTimeout eng tag cycles => Sys2Proof.Machine.execLockTimeout eng tag cycles s
  | .unpark eng => Sys2Proof.Machine.execUnpark eng s
  | .skWatchdog eng => Sys2Proof.Machine.execSkWatchdog eng s
  | .ucodeReload cluster => Sys2Proof.Machine.execUcodeReload cluster s
  | .ucodeScrub cluster store word => Sys2Proof.Machine.execUcodeScrub cluster store word s
  | .poolRequest start reqs => Sys2Proof.Machine.execPoolRequest start reqs s
  | .bufferFree owner ref => Sys2Proof.Machine.execBufferFree owner ref s
  | .cellAuditVisit lost => Sys2Proof.Machine.execCellAuditVisit lost s
  | .hbmRequest port req => Sys2Proof.Machine.execHbmRequest port req s
  | .hbmGrant stack => Sys2Proof.Machine.execHbmGrant stack s
  | .hbmCommandIssue pc ready => Sys2Proof.Machine.execHbmCommandIssue pc ready s
  | .hbmReadReturn pc => Sys2Proof.Machine.execHbmReadReturn pc s
  | .rowHoldExpire pc bank => Sys2Proof.Machine.execRowHoldExpire pc bank s
  | .pageIdleClose pc bank => Sys2Proof.Machine.execPageIdleClose pc bank s
  | .writeAgeExpire pc => Sys2Proof.Machine.execWriteAgeExpire pc s
  | .refreshDue pc bank => Sys2Proof.Machine.execRefreshDue pc bank s
  | .pdIdleEnter pc => Sys2Proof.Machine.execPdIdleEnter pc s
  | .srIdleEnter pc => Sys2Proof.Machine.execSrIdleEnter pc s
  | .patrolScrub pc line => Sys2Proof.Machine.execPatrolScrub pc line s
  | .faultMessage m => Sys2Proof.Machine.execFaultMessage m s
  | .inbandFrameReceived port pk => Sys2Proof.Machine.execInbandFrameReceived port pk s
  | .rhDataReceived frame => Sys2Proof.Machine.execRhDataReceived frame s
  | .rhAckReceived frame => Sys2Proof.Machine.execRhAckReceived frame s
  | .rhHeartbeatReceived frame beat => Sys2Proof.Machine.execRhHeartbeatReceived frame beat s
  | .rhHelloReceived frame hello => Sys2Proof.Machine.execRhHelloReceived frame hello s
  | .rhClaimReceived frame home epoch => Sys2Proof.Machine.execRhClaimReceived frame home epoch s
  | .rhClaimAckReceived frame home epoch status => Sys2Proof.Machine.execRhClaimAckReceived frame home epoch status s
  | .rhDataSend => Sys2Proof.Machine.execRhDataSend s
  | .rhAckSend => Sys2Proof.Machine.execRhAckSend s
  | .rhRetransmitTimeout => Sys2Proof.Machine.execRhRetransmitTimeout s
  | .peerLost => Sys2Proof.Machine.execPeerLost s
  | .pairLanesAligned => Sys2Proof.Machine.execPairLanesAligned s
  | .rhAlignLost => Sys2Proof.Machine.execRhAlignLost s
  | .resyncSweep => Sys2Proof.Machine.execResyncSweep s
  | .powerEntryDone => Sys2Proof.Machine.execPowerEntryDone s
  | .powerExitDone => Sys2Proof.Machine.execPowerExitDone s
  | .domainPowerFail d => Sys2Proof.Machine.execDomainPowerFail d s
  | .clockGate d => Sys2Proof.Machine.execClockGate d s
  | .clockUngate d => Sys2Proof.Machine.execClockUngate d s
  | .refclkSdsLoss clk ns => Sys2Proof.Machine.execRefclkSdsLoss clk ns s
  | .bypass => Sys2Proof.Machine.execBypass s
  | .idcode => Sys2Proof.Machine.execIdcode s
  | .samplePreload bits => Sys2Proof.Machine.execSamplePreload bits s
  | .extest => Sys2Proof.Machine.execExtest s
  | .clamp => Sys2Proof.Machine.execClamp s
  | .highz => Sys2Proof.Machine.execHighz s
  | .alignmentAcquired port ns => Sys2Proof.Machine.execAlignmentAcquired port ns s
  | .refclkSdsRestored clk => Sys2Proof.Machine.execRefclkSdsRestored clk s
  | .pcieLinkUp gen width => Sys2Proof.Machine.execPcieLinkUp gen width s

end Sys2Proof.Machine
end

