-- ==== Sys2Proof/Machine/RegRead.lean ====
section
/-! DEFINITION. What a direct register reads as (chapter 20, R5, R7, R62, R446, R447): one 4-byte word of BAR0 or BAR2 at a time.
The four reads with an effect of their own are rows (DBERR_READ, STEP_COUNT_READ, WRAP_TAI_LO_READ, PERF_VAL_LO_READ). -/

namespace Sys2Proof.Machine

open Sys2Proof

/-- GLB_DEVICE_ID to GLB_SCRATCH (Table 20.2); GO is write-only and reads zero. -/
def regGlobal (off : Nat) (s : State) : Nat :=
  if off = 0x00 then 0x1280 + orderCode s * 2 ^ 16
  else if off = 0x04 then Config.dieRev.toNat + 0x01 * 2 ^ 16
  else if off = 0x08 then s.boot.bootSrc.toNat + b2n s.boot.ftest * 4 + b2n s.boot.pairPresent * 8
  else if off = 0x0C then bitsOf s.boot.cause 0 3 + bitsOf s.boot.faultSource 0 8 * 2 ^ 8 + bitsOf s.boot.resetCount 0 16 * 2 ^ 16
  else if off = 0x10 then
    bitsOf s.boot.stage 0 4 + bitsOf s.boot.source 0 2 * 2 ^ 4 + bitsOf s.boot.reason 0 8 * 2 ^ 8 + min 255 s.boot.rejects * 2 ^ 16
  else if off = 0x14 then bitsOf s.boot.bootAddr.toNat 0 32
  else if off = 0x18 then bitsOf s.boot.bootAddr.toNat 32 32
  else if off = 0x1C then s.boot.bootLen.toNat
  else if off = 0x24 then s.boot.scratch.toNat
  else 0

def ringStateCode (st : RingState) : Nat :=
  match st with
  | .idle => 0
  | .running => 1
  | .draining => 2
  | .halted => 3

/-- One register of a command ring (Tables 3.4 and 20.3). -/
def regRing (r : Ring) (off : Nat) : Nat :=
  if off = 0x00 then bitsOf r.base.toNat 0 32
  else if off = 0x04 then bitsOf r.base.toNat 32 32
  else if off = 0x08 then bitsOf r.size.toNat 0 5
  else if off = 0x0C then b2n r.enable
  else if off = 0x10 then bitsOf r.head 0 16
  else if off = 0x14 then bitsOf r.tail 0 16
  else if off = 0x18 then ringStateCode r.state + r.cause.toNat * 2 ^ 8
  else if off = 0x1C then bitsOf r.cqBase.toNat 0 32
  else if off = 0x20 then bitsOf r.cqBase.toNat 32 32
  else if off = 0x24 then bitsOf r.cqSize.toNat 0 5
  else if off = 0x28 then bitsOf r.cqHead 0 16
  else if off = 0x2C then bitsOf r.cqTail 0 16
  else if off = 0x30 then bitsOf r.shadow.toNat 0 32
  else if off = 0x34 then bitsOf r.shadow.toNat 32 32
  else if off = 0x38 then r.irq.toNat
  else if off = 0x3C then r.dberr.toNat
  else 0

/-- The record that the window shows: that at LOD_REC_SEL, if it lies from HEAD to before TAIL (R449). -/
def recShown (s : State) : Option LogRec :=
  s.lod.ring[(s.lod.recSel.toNat + 4096 - s.lod.headCount.toNat % 4096) % 4096]?

/-- Some source holds a state of a class, ACTIVE or HELD. -/
def anyClass (cls : Nat) (s : State) : Bool := s.lod.states.any (fun e => e.1 % 4 == cls && e.2.st != .none)

/-- Table 20.4. -/
def regLodestar (off : Nat) (s : State) : Nat :=
  if off = 0x00 then s.lod.headCount.toNat
  else if off = 0x04 then s.lod.tailCount.toNat
  else if off = 0x08 then s.lod.recSel.toNat
  else if 0x10 ≤ off && off < 0x20 then
    match recShown s with
    | some r => leAt (recBytes r) (off - 0x10) 4
    | none => 0
  else if off = 0x20 then
    b2n s.lod.grave + b2n s.lod.factory * 2 + b2n s.lod.isoFault * 4 + b2n s.lod.errN * 8 + b2n (anyClass 1 s) * 16
      + b2n (anyClass 2 s) * 32 + s.lod.headRefused.toNat * 2 ^ 16
  else if off = 0x24 then bitsOf s.lod.lost.toNat 0 32
  else 0

/-- Table 5.1; a 4-byte read of MER_WRAP_TAI_HI returns the word that the last 4-byte read of MER_WRAP_TAI_LO latched (R450). -/
def regMeridian (off : Nat) (s : State) : Nat :=
  if off = 0x00 then bitsOf (timeNs s) 0 32
  else if off = 0x04 then merSync s
  else if off = 0x08 then bitsOf s.mer.wrapTai.toNat 0 32
  else if off = 0x0C then s.mer.wrapTaiHiLatch.toNat
  else if off = 0x10 then s.mer.wrapSeq.toNat
  else if off = 0x14 then s.mer.utcOffset.toNat
  else if off = 0x18 then s.mer.offsetNs.toNat
  else if off = 0x1C then s.mer.stepCount.toNat
  else 0

/-- Table 20.5, as latched at step 10 (R451). -/
def regPower (off : Nat) (s : State) : Nat :=
  let l := s.pwr.latch
  if off = 0x00 then pwrCode l.state + b2n l.transit * 2 ^ 7 + bitsOf l.next 0 8 * 2 ^ 8
  else if off = 0x04 then min 0xFFFFFFFF l.dist
  else if off = 0x08 then bitsOf l.on.toNat 0 32
  else if off = 0x0C then bitsOf l.on.toNat 32 32
  else if off = 0x10 then bitsOf l.gated.toNat 0 32
  else if off = 0x14 then bitsOf l.gated.toNat 32 32
  else if off = 0x18 then bitsOf l.failed.toNat 0 32
  else if off = 0x1C then bitsOf l.failed.toNat 32 32
  else if off = 0x20 then s.pwr.tj.toNat + s.pwr.tjMax.toNat * 2 ^ 8
  else 0

/-- Table 20.6: RH_LANES is live, the others as latched at step 4; in SOLO all but PAIR_STATE and ROLES read zero (R452). The
table gives no off state for domain 60: the registers then show what they hold. (Log: DESIGN CHOICE, log entry 28.) -/
def regRhumb (off : Nat) (s : State) : Nat :=
  let l := s.pair.latch
  if off = 0x00 then
    pairCode l.st + bitsOf l.cause 0 4 * 2 ^ 4 + l.roles.toNat * 2 ^ 8 + l.peerRoles.toNat * 2 ^ 10 + bitsOf l.peerPower 0 2 * 2 ^ 12
  else if off = 0x04 then if s.pair.st == .solo then 0 else s.pair.lanes.toNat
  else if off = 0x08 then bitsOf l.txSeq 0 32
  else if off = 0x0C then bitsOf l.peerApplied 0 32
  else if off = 0x10 then min 65535 l.lag
  else if off = 0x14 then l.lastRx.toNat
  else if off = 0x18 then bitsOf l.journal 0 32
  else if off = 0x1C then bitsOf l.epoch 0 32
  else 0

/-- One register of a performance counter (Table 20.7): the value words read zero while domain 63 is off, and a 4-byte read of
the high word returns the one that the last 4-byte read of this counter's low word latched (R438, R453). -/
def regPerf (c off : Nat) (s : State) : Nat :=
  let k := perfOf s c
  let on := domainOn s 63
  if off = 0x0 then if on then bitsOf (perfLive s c).toNat 0 32 else 0
  else if off = 0x4 then if on then k.hiLatch.toNat else 0
  else if off = 0x8 then b2n k.ovf + b2n k.bad * 2 + b2n k.hit * 4 + b2n !on * 8 + fv s 15 1 c 0 16 * 2 ^ 16
  else 0

/-- One bit of each of the four groups of MAC_LANE_STATUS for each lane of a port: the model's events give signal, CDR lock, block
lock and alignment-marker lock for all lanes of a port at once. (Log: DEDUCED, log entry 29.) -/
def laneStatus (lane : BitVec 4) (n : Nat) : Nat :=
  ((List.range 4).map (fun g => if lane.getLsbD g then (2 ^ n - 1) * 16 ^ g else 0)).sum

/-- One register of the MAC block of a lane (Table 20.8, R454). -/
def regMac (p off : Nat) (s : State) : Nat :=
  let k := portOf s p
  let on := serdesOn s p
  if !isPort s p then if off = 0x00 then 0xFF + 7 * 2 ^ 8 + b2n on * 2 ^ 11 else 0
  else if !on then if off = 0x00 then portStateByte s p else 0
  else if off = 0x00 then
    portStateByte s p + portMode s p * 2 ^ 8 + 2 ^ 11 + bitsOf k.faultNow.toNat 0 2 * 2 ^ 12 + b2n (k.st == .downPend) * 2 ^ 14
      + vecOf (fun t => (k.pauseEnd.getD t none).isSome) * 2 ^ 16 + vecOf (fun t => (prioOf s (p * 8 + t)).xoff) * 2 ^ 24
  else if off = 0x04 then laneStatus k.lane (portLanes s p).length
  else if off = 0x08 then k.sticky.toNat
  else if off = 0x0C then k.upFix.toNat
  else 0

/-- What a 4-byte read at an aligned offset of BAR0 or BAR2 returns, its own effects apart (Tables 20.1 and 3.2). Doorbells are
write-only, and an unimplemented offset reads zero (R5, R62). -/
def regWord (bar2 : Bool) (off : Nat) (s : State) : Nat :=
  if bar2 then
    if 0x8000 ≤ off && off < 0x8400 then
      bitsOf (kget (2 ^ 96 : BitVec 128) s.host.msix ((off - 0x8000) / 16)).toNat (32 * (off % 16 / 4)) 32
    else if off = 0x9000 then bitsOf s.host.pba.toNat 0 32
    else if off = 0x9004 then bitsOf s.host.pba.toNat 32 32
    else 0
  else if off < 0x1000 then regGlobal off s
  else if off < 0x1400 then regRing (ringOf s ((off - 0x1000) / 0x100)) (off % 0x100)
  else if 0x10000 ≤ off && off < 0x20000 then regLodestar (off - 0x10000) s
  else if 0x20000 ≤ off && off < 0x30000 then regMeridian (off - 0x20000) s
  else if 0x30000 ≤ off && off < 0x40000 then regPower (off - 0x30000) s
  else if 0x40000 ≤ off && off < 0x50000 then regRhumb (off - 0x40000) s
  else if 0x50000 ≤ off && off < 0x51000 then regPerf ((off - 0x50000) / 16) (off % 16) s
  else if 0x100000 ≤ off && off < 0x180000 then regMac ((off - 0x100000) / 0x1000) (off % 0x1000) s
  else 0

/-- The high word of a pair that an 8-byte read covers: the live one, where a 4-byte read would return a latch (R438, R450). -/
def regHigh (off : Nat) (s : State) : Nat :=
  if off = 0x20008 then bitsOf s.mer.wrapTai.toNat 32 32
  else if 0x50000 ≤ off && off < 0x51000 && off % 16 = 0 && domainOn s 63 then
    bitsOf (perfLive s ((off - 0x50000) / 16)).toNat 32 32
  else regWord false (off + 4) s

/-- A direct read of 4 or 8 bytes (R62): an 8-byte read covers two registers in ascending order. No access of another size or
alignment is accepted. -/
def regRead (bar2 : Bool) (off : BitVec 26) (wide : Bool) (s : State) : Option U64 :=
  let o := off.toNat
  if o % (if wide then 8 else 4) ≠ 0 then none
  else
    some (BitVec.ofNat 64 (regWord bar2 o s % 2 ^ 32
      + if wide then ((if bar2 then regWord true (o + 4) s else regHigh o s) % 2 ^ 32) * 2 ^ 32 else 0))

end Sys2Proof.Machine
end

