-- ==== Sys2Proof/Safety.lean ====
section
/-! DEFINITION. The terms that claims use: what a safe run is, when a command is carried out, what its answer is. -/

namespace Sys2Proof.Machine

open Sys2Proof

/-- A step from a state answers a next state, and one whose fault pins agree with its fault states. -/
def StepSafe (s : State) : Prop := ∃ t, step s = .next t ∧ (s.pending ≠ [] → Settled t)

/-- The command or event completes, and leaves t with the fault pins at the level that t's fault states give (R457). -/
abbrev Goes (i : Instr) (s t : State) : Prop := exec i s = .next (settle t)

/-- A command packet is carried out at the boundary of the Fix in progress, with its payload in the buffers bufs, on
the state q, which is s with a completion entry promised (R65) and the buffers taken (R295). The conditions are the checks of
R72 in their order, the states in which Binnacle or Lodestar serve no command (R59, R385, R387), that no power domain that the
command needs is asleep (R403), and at the boundary the tenants (R78) and the leases (R56). -/
abbrev Admitted (op : Op) (p : CmdPkt) (s : State) (bufs : List Nat) (q : State) : Prop :=
  s.ctl.ready = true ∧ s.ctl.restarting = false
  ∧ op.rings.contains (authOf s p.src) = true
  ∧ op.tenant (promise p.src s) p = true
  ∧ formOk op p = true
  ∧ (s.lod.grave = true → op.isRead = true ∨ op.code = 0x0E01)
  ∧ (hasPayloadIn op p = true → p.payload.isSome = true)
  ∧ takePayload (if hasPayloadIn op p then p.paramLen.toNat else 0) (promise p.src s) = (some bufs, q)
  ∧ p.target = 0
  ∧ (op.isMulti = true → multiTaken q < 16)
  ∧ op.arg q p = 0
  ∧ needsExit q op.code = false
  ∧ op.tenant q p = true
  ∧ leaseBlocks q (ownerOf p.src) (op.touch q p) = false

/-- PARAM_LEN has room for the payload that the answer returns (R71). -/
abbrev Fits (p : CmdPkt) (o : CmdOut) : Prop := o.data.length ≤ p.paramLen.toNat

/-- The command completes with the outcome o on the state t: its payload buffers are given back, and its payload and
completion entry are written in the order of R69 (a ring), or its response frame is sent (in-band, R85). -/
def answer (op : Op) (p : CmdPkt) (bufs : List Nat) (o : CmdOut) (t : State) : State := flushCpls (finishCmd op p bufs o t)

/-- A multi-Fix command is in progress after its first boundary (R80): it holds one of the sixteen slots. -/
def underWay (m : Multi) (t : State) : State :=
  flushCpls { t with ctl.multi := t.ctl.multi ++ [{ m with ord := t.ctl.serial }] }

/-- The command in a slot as it starts: its first boundary is that of the Fix in progress. -/
def started (op : Op) (p : CmdPkt) (bufs : List Nat) (limit : Nat) (aux : List Nat) (q : State) : Multi :=
  { slot := freeSlot q, code := op.code, p := p, count := 1, limit := limit, units := 0, lastFix := q.clock.fix, pos := 0,
    aux := aux, bufs := bufs }

/-- An engine runs a routine and the tag is free for a new memory operation (R201). -/
abbrev TagReady (s : State) (eng : Fin 512) (tag : Fin 8) : Prop :=
  (engOf s eng.val).st = .running ∧ tagFree (engOf s eng.val) tag.val = true

/-- What a completion may change beside the buffer pools: the rings and the interrupt bits of the host attachment, what
leaves the chip, the counters of completions, the draw counter of the free values, the frames that wait to be sent, and the level
of the fault pins. -/
def onlyAnswered (s t : State) : Prop :=
  t = { s with
    host.rings := t.host.rings, host.pba := t.host.pba
    out.host := t.out.host
    perf.counters := t.perf.counters, draws := t.draws
    ctl.cpls := t.ctl.cpls, ctl.origin := t.ctl.origin
    lod.isoFault := t.lod.isoFault, lod.errN := t.lod.errN }

/-- The opcode and the packet of a ring or in-band command; none for an event. -/
def ringOp : Instr → Option (Op × CmdPkt)
  | .fixBoundary _ => none
  | .sampleClose => none
  | .leaseExpired => none
  | .multiFixTimeout => none
  | .genDrainStuck => none
  | .quietPeriodEnd _ _ => none
  | .tenantDrainEnd _ => none
  | .sysInfo p => some (opSysInfo, p)
  | .cfgStage p => some (opCfgStage, p)
  | .cfgCommit p => some (opCfgCommit, p)
  | .cfgAbort p => some (opCfgAbort, p)
  | .cfgRead p => some (opCfgRead, p)
  | .leaseTake p => some (opLeaseTake, p)
  | .leaseRelease p => some (opLeaseRelease, p)
  | .apJournalRead p => some (opApJournalRead, p)
  | .ringTenantSet p => some (opRingTenantSet, p)
  | .inbandKeySet p => some (opInbandKeySet, p)
  | .inbandConfig p => some (opInbandConfig, p)
  | .portRead p => some (opPortRead, p)
  | .timedArm p => some (opTimedArm, p)
  | .timedCancel p => some (opTimedCancel, p)
  | .timedRead p => some (opTimedRead, p)
  | .timeCapRead p => some (opTimeCapRead, p)
  | .timeStatus p => some (opTimeStatus, p)
  | .timeSet p => some (opTimeSet, p)
  | .parseNodeWrite p => some (opParseNodeWrite, p)
  | .parseNodeRead p => some (opParseNodeRead, p)
  | .rulesetSwap p => some (opRulesetSwap, p)
  | .rulesetStatus p => some (opRulesetStatus, p)
  | .clsEntryWrite p => some (opClsEntryWrite, p)
  | .clsEntryRead p => some (opClsEntryRead, p)
  | .pmPatternWrite p => some (opPmPatternWrite, p)
  | .pmBuild p => some (opPmBuild, p)
  | .pmCopy p => some (opPmCopy, p)
  | .pipeStatsRead p => some (opPipeStatsRead, p)
  | .flowInsert p => some (opFlowInsert, p)
  | .flowDelete p => some (opFlowDelete, p)
  | .flowRead p => some (opFlowRead, p)
  | .flowModify p => some (opFlowModify, p)
  | .flowPurgeTenant p => some (opFlowPurgeTenant, p)
  | .flowStatsRead p => some (opFlowStatsRead, p)
  | .flowEventRead p => some (opFlowEventRead, p)
  | .flowFind p => some (opFlowFind, p)
  | .skipStatusRead p => some (opSkipStatusRead, p)
  | .skipStatsRead p => some (opSkipStatsRead, p)
  | .skipRun p => some (opSkipRun, p)
  | .skipReset p => some (opSkipReset, p)
  | .skipTelemRead p => some (opSkipTelemRead, p)
  | .lbRead p => some (opLbRead, p)
  | .ucodeLoad p => some (opUcodeLoad, p)
  | .ucodeInfo p => some (opUcodeInfo, p)
  | .ucodeRead p => some (opUcodeRead, p)
  | .scStatusRead p => some (opScStatusRead, p)
  | .scStatsRead p => some (opScStatsRead, p)
  | .scPortStatsRead p => some (opScPortStatsRead, p)
  | .captureRingSet p => some (opCaptureRingSet, p)
  | .tmSampleRead p => some (opTmSampleRead, p)
  | .tmQstatsRead p => some (opTmQstatsRead, p)
  | .tmPolRead p => some (opTmPolRead, p)
  | .tmStatsRead p => some (opTmStatsRead, p)
  | .poolStatsRead p => some (opPoolStatsRead, p)
  | .poolAcctRead p => some (opPoolAcctRead, p)
  | .poolAlloc p => some (opPoolAlloc, p)
  | .poolFree p => some (opPoolFree, p)
  | .poolOwnerRead p => some (opPoolOwnerRead, p)
  | .hbmStatusRead p => some (opHbmStatusRead, p)
  | .hbmStatsRead p => some (opHbmStatsRead, p)
  | .arbStatsRead p => some (opArbStatsRead, p)
  | .hbmRegionInfo p => some (opHbmRegionInfo, p)
  | .hbmRetrain p => some (opHbmRetrain, p)
  | .meterStatsRead p => some (opMeterStatsRead, p)
  | .meterCloseInfo p => some (opMeterCloseInfo, p)
  | .billingSign p => some (opBillingSign, p)
  | .billRingSet p => some (opBillRingSet, p)
  | .billBlockRead p => some (opBillBlockRead, p)
  | .pairStatusRead p => some (opPairStatusRead, p)
  | .pairRole p => some (opPairRole, p)
  | .pairStatsRead p => some (opPairStatsRead, p)
  | .pairResync p => some (opPairResync, p)
  | .pairHeadRead p => some (opPairHeadRead, p)
  | .faultLogRead p => some (opFaultLogRead, p)
  | .faultRelease p => some (opFaultRelease, p)
  | .faultStatusRead p => some (opFaultStatusRead, p)
  | .faultInjectUnlock p => some (opFaultInjectUnlock, p)
  | .faultInject p => some (opFaultInject, p)
  | .isoTenantRead p => some (opIsoTenantRead, p)
  | .powerStatusRead p => some (opPowerStatusRead, p)
  | .powerPolicy p => some (opPowerPolicy, p)
  | .attest p => some (opAttest, p)
  | .imageInfo p => some (opImageInfo, p)
  | .imageStage p => some (opImageStage, p)
  | .imageAccept p => some (opImageAccept, p)
  | .imageFlash p => some (opImageFlash, p)
  | .chipReset p => some (opChipReset, p)
  | .imageFuse p => some (opImageFuse, p)
  | .certRead p => some (opCertRead, p)
  | .perfRead p => some (opPerfRead, p)
  | .monRingSet p => some (opMonRingSet, p)
  | .monStatsRead p => some (opMonStatsRead, p)
  | .cmdDoorbell _ _ => none
  | .cqHeadWrite _ _ => none
  | .ringEnable _ => none
  | .ringDisable _ => none
  | .dberrRead _ => none
  | .cmdFetch => none
  | .cmdFetchDone _ _ => none
  | .functionLevelReset => none
  | .pcieLinkReset _ => none
  | .perstNRelease => none
  | .registerWrite _ _ _ _ _ => none
  | .faultHeadWrite _ => none
  | .macStickyClear _ _ => none
  | .stepCountRead => none
  | .wrapTaiLoRead => none
  | .perfValLoRead _ => none
  | .bootGo => none
  | .powerOn => none
  | .vddAonLoss => none
  | .sysRstAssert => none
  | .sysRstRelease _ _ _ => none
  | .bootRomTestDone _ _ _ => none
  | .imageHeadersRead _ _ => none
  | .imageBodyReadDone _ => none
  | .binnacleStarted => none
  | .startupHbmDone _ => none
  | .startupUcodeDone => none
  | .binnacleReady => none
  | .binnacleRestartDone => none
  | .frameReceiveStart _ _ _ _ => none
  | .frameCellArrive _ => none
  | .frameReceiveEnd _ _ => none
  | .parseStart _ _ _ => none
  | .recircPassStart _ _ _ => none
  | .flowLookup _ _ => none
  | .flowBucketReturn _ _ _ => none
  | .lookupAnswer _ _ => none
  | .decideReenter _ _ => none
  | .stage12Exit _ _ => none
  | .mcReplicate _ => none
  | .egressSelect _ _ _ => none
  | .egressCellSend _ _ _ _ => none
  | .copyTxDone _ _ => none
  | .pfcFrameSend _ => none
  | .pauseRefresh _ => none
  | .pauseFrameReceived _ _ _ _ _ => none
  | .pauseTimerExpire _ _ _ => none
  | .flushRelease _ _ => none
  | .flushStuck _ => none
  | .linkLoss _ _ _ => none
  | .downHoldExpire _ _ => none
  | .upHoldExpire _ _ => none
  | .negotiateDone _ => none
  | .trainDone _ => none
  | .trainFail _ => none
  | .alignLost _ _ _ => none
  | .ptpMessageReceived _ _ _ => none
  | .ptpMessageSend _ _ _ _ => none
  | .followUpSend _ _ _ _ => none
  | .syncTimeout => none
  | .holdoverLimitExpire => none
  | .anchorRewrite => none
  | .ppsOutRise _ => none
  | .ppsOutFall _ => none
  | .timeCapEdge _ _ _ => none
  | .ppsInEdge _ _ => none
  | .ppsInMissing => none
  | .timedActionFire _ _ => none
  | .timedPulseFall _ _ => none
  | .minuteArm => none
  | .meterSeal => none
  | .billingHashDone => none
  | .ckptWriteDone => none
  | .ckptLate => none
  | .billRingDeliver => none
  | .loglineDeliver => none
  | .soundDeliver => none
  | .monRecordDeliver => none
  | .cacheCleanerWriteback _ => none
  | .moverAttempt _ => none
  | .ageScan _ => none
  | .exiledUpdate _ => none
  | .microwordExecute _ _ => none
  | .lock _ _ _ => none
  | .lockr _ _ _ _ => none
  | .lockset _ _ _ => none
  | .bread _ _ _ _ => none
  | .bwrite _ _ _ _ _ _ => none
  | .xread _ _ _ _ _ => none
  | .xwrite _ _ _ _ _ _ => none
  | .atom _ _ _ _ _ => none
  | .place _ _ _ => none
  | .skPoolAlloc _ _ _ _ => none
  | .skPoolFree _ _ _ => none
  | .pktNext _ _ _ => none
  | .lbpick _ _ _ _ _ => none
  | .telem _ _ _ => none
  | .timeread _ _ => none
  | .commit _ => none
  | .commitHandover _ => none
  | .fail _ => none
  | .memOpComplete _ _ _ => none
  | .lockGrant _ _ => none
  | .lockTimeout _ _ _ => none
  | .unpark _ => none
  | .skWatchdog _ => none
  | .ucodeReload _ => none
  | .ucodeScrub _ _ _ => none
  | .poolRequest _ _ => none
  | .bufferFree _ _ => none
  | .cellAuditVisit _ => none
  | .hbmRequest _ _ => none
  | .hbmGrant _ => none
  | .hbmCommandIssue _ _ => none
  | .hbmReadReturn _ => none
  | .rowHoldExpire _ _ => none
  | .pageIdleClose _ _ => none
  | .writeAgeExpire _ => none
  | .refreshDue _ _ => none
  | .pdIdleEnter _ => none
  | .srIdleEnter _ => none
  | .patrolScrub _ _ => none
  | .faultMessage _ => none
  | .inbandFrameReceived _ _ => none
  | .rhDataReceived _ => none
  | .rhAckReceived _ => none
  | .rhHeartbeatReceived _ _ => none
  | .rhHelloReceived _ _ => none
  | .rhClaimReceived _ _ _ => none
  | .rhClaimAckReceived _ _ _ _ => none
  | .rhDataSend => none
  | .rhAckSend => none
  | .rhRetransmitTimeout => none
  | .peerLost => none
  | .pairLanesAligned => none
  | .rhAlignLost => none
  | .resyncSweep => none
  | .powerEntryDone => none
  | .powerExitDone => none
  | .domainPowerFail _ => none
  | .clockGate _ => none
  | .clockUngate _ => none
  | .refclkSdsLoss _ _ => none
  | .bypass => none
  | .idcode => none
  | .samplePreload _ => none
  | .extest => none
  | .clamp => none
  | .highz => none
  | .alignmentAcquired _ _ => none
  | .refclkSdsRestored _ => none
  | .pcieLinkUp _ _ => none

/-- The status of the first of the checks 1 to 4 of R72 that fails, and of the states in which no command is served (R59,
R385, R387), in their order; none where all pass. -/
def firstFailed (op : Op) (p : CmdPkt) (s : State) : Option Nat :=
  if s.ctl.ready = false ∨ s.ctl.restarting = true then some stBUSY
  else if authOf s p.src ∉ op.rings then some stDENIED
  else if op.tenant s p = false then some stDENIED
  else if formOk op p = false then some stBADARG
  else if s.lod.grave = true ∧ op.isRead = false ∧ op.code ≠ 0x0E01 then some stFAULTED
  else if hasPayloadIn op p = true ∧ p.payload = none then some stFAULTED
  else none

/-- The body of an input is no timed action. -/
def notTimed (b : InBody) : Bool :=
  match b with
  | .timed _ => false
  | _ => true

/-- Bytes of a command's payload on its way to the device. -/
def payloadLen (op : Op) (p : CmdPkt) : Nat := if hasPayloadIn op p = true then p.paramLen.toNat else 0

/-- What a read command may change, whether it is carried out, refused or held: the rings and the interrupt bits of the host
attachment, what leaves the chip, the counters, the frames that wait to be sent, the lists of held commands and the count
behind them, the order to leave a sleep state, the draw counter of the free values, and the level of the fault pins. -/
def onlyPresented (s t : State) : Prop :=
  t = { s with
    host.rings := t.host.rings, host.pba := t.host.pba
    out.host := t.out.host
    perf.counters := t.perf.counters, draws := t.draws
    ctl.cpls := t.ctl.cpls, ctl.origin := t.ctl.origin, ctl.sched := t.ctl.sched, ctl.serial := t.ctl.serial
    pwr.held := t.pwr.held, ctl.queue := t.ctl.queue
    lod.isoFault := t.lod.isoFault, lod.errN := t.lod.errN }

/-- The stores and engines of the data path are as before: packets and queues, the classifier, the bytes and controllers of the
HBM, metering, the flow slices, the Skippers, the pair, the buffer pools. -/
def DataPathSame (s t : State) : Prop :=
  t.sw = s.sw ∧ t.cls = s.cls ∧ t.hbm = s.hbm ∧ t.met = s.met ∧ t.flow = s.flow ∧ t.skip = s.skip ∧ t.pair = s.pair
    ∧ t.pools = s.pools

/-- No input of a later place in the list claims an object that meets one of another source's, but for the inputs of ranks 0
and 1, which are never superseded (R43, R44). An entry is an object, the rank of its input and its source. -/
def Apart (cl : Claimed) : Prop :=
  cl.Pairwise (fun a b => a.2.2 ≠ b.2.2 → objMeet a.1 b.1 = true → b.2.1 ≤ 1)

/-- Entries of a ring's completion ring that are written and not yet taken by the host, and those promised (R65). -/
def cqTaken (r : Ring) : Nat := (r.cqTail + ringSize r.cqSize - r.cqHead) % ringSize r.cqSize + r.promised

end Sys2Proof.Machine
end

