-- ==== Sys2Proof/Certificates/Slice0/Obligations.lean ====
section
/-! DEFINITION. The statements about the model: for every command and event that it is carried out with the effect that the
spec gives it, what it leaves as it was, and what holds after every step. -/

open Sys2Proof Sys2Proof.Machine

/-! ### Ring and in-band commands complete -/

/-- The system group's own commands (Tables 3.7, 3.9; R78, R82, R83, R478). SYS_INFO returns its 64 bytes and changes nothing;
RING_TENANT_SET replaces the tenant set and ends ring 1's leases on tenants that are gone; INBAND_KEY_SET sets a key slot, or
with authority 0 clears it and keeps its sequence mark (the mark is the model's choice, log entry 26); INBAND_CONFIG sets the
in-band settings. -/
def Obligations.SystemCommandsComplete : Prop :=
  (∀ p s q, Admitted opSysInfo p s [] q → Fits p (outData 64 (sysInfo q)) →
    Goes (.sysInfo p) s (answer opSysInfo p [] (outData 64 (sysInfo q)) q))
  ∧ (∀ p s bufs q, Admitted opRingTenantSet p s bufs q →
    let ts := dedupN (payTenants 0 (par p 16 2) p)
    let u := { q with ctl.tenants := ts }
    Goes (.ringTenantSet p) s
      (answer opRingTenantSet p bufs (outOk ts.length) ((tenantLeases u).foldl (fun s l => endLease l.owner l.group s) u)))
  ∧ (∀ p s bufs q, Admitted opInbandKeySet p s bufs q → par p 17 1 ≠ 0 →
    let k : IbKey := { authority := par p 17 1, key := sliceB (payBytes p) 0 57,
                       tenants := dedupN (payTenants 64 (par p 18 2) p), seqHigh := 0 }
    Goes (.inbandKeySet p) s
      (answer opInbandKeySet p bufs (outOpen []) { q with ctl.ibKeys := kput q.ctl.ibKeys (par p 16 1) k }))
  ∧ (∀ p s bufs q, Admitted opInbandKeySet p s bufs q → par p 17 1 = 0 →
    let old := ((kfind q.ctl.ibKeys (par p 16 1)).map (fun k => k.seqHigh)).getD 0
    let k : IbKey := { authority := 0, key := [], tenants := [], seqHigh := old }
    Goes (.inbandKeySet p) s
      (answer opInbandKeySet p bufs (outOpen []) { q with ctl.ibKeys := kput q.ctl.ibKeys (par p 16 1) k }))
  ∧ (∀ p s bufs q, Admitted opInbandConfig p s bufs q →
    Goes (.inbandConfig p) s (answer opInbandConfig p bufs (outOpen [])
      { q with
        ctl.ibEnable := par p 16 1 == 1
        ctl.ibEthertype := BitVec.ofNat 16 (par p 18 2)
        ctl.ibMac := BitVec.ofNat 48 (beNat (sliceB (inlBytes p) 4 6))
        ctl.ibVlan := BitVec.ofNat 16 (par p 26 2)
        ctl.ibPorts := BitVec.ofNat 128 (leNat (payBytes p)) }))

/-- Staging and committing (R49 to R53, Table 2.5): CFG_STAGE stages every entry or none; CFG_COMMIT applies all entries of
the group together or refuses them all; CFG_ABORT discards them; CFG_READ returns the value in force or the staged copy. -/
def Obligations.StagingCommandsComplete : Prop :=
  (∀ p s bufs q, Admitted opCfgStage p s bufs q →
    (∀ e ∈ stageEntries_ p, portFieldOk q e.1 = true ∧ ∀ y ∈ q.ctl.staging, y.obj = e.1 → y.owner = ownerOf p.src) →
    q.ctl.staging.length + (dedupN (((stageEntries_ p).map (fun e => e.1)).filter
      (fun x => !(q.ctl.staging.any (fun y => y.obj == x))))).length ≤ 16384 →
    Goes (.cfgStage p) s (answer opCfgStage p bufs (outOk (stageEntries_ p).length)
      ((stageEntries_ p).foldl (fun s e => stageOne (ownerOf p.src) e s) q)))
  ∧ (∀ p s bufs q ws, Admitted opCfgCommit p s bufs q →
    commitVerdict q (ownerOf p.src) (parGroup p) = .ok ws →
    Goes (.cfgCommit p) s (answer opCfgCommit p bufs (outOk ws.length)
      (applyWrites ws (dropEntries (ownerOf p.src) (parGroup p) q))))
  ∧ (∀ p s bufs q r, Admitted opCfgCommit p s bufs q →
    commitVerdict q (ownerOf p.src) (parGroup p) = .error r →
    Goes (.cfgCommit p) s (answer opCfgCommit p bufs (refusal r) q))
  ∧ (∀ p s bufs q, Admitted opCfgAbort p s bufs q →
    Goes (.cfgAbort p) s (answer opCfgAbort p bufs (outOk (commitEntries q (ownerOf p.src) (parGroup p)).length)
      (dropEntries (ownerOf p.src) (parGroup p) q)))
  ∧ (∀ p s bufs q, Admitted opCfgRead p s bufs q → portFieldOk q (par p 16 8) = true → par p 24 1 = 0 → 8 ≤ p.paramLen.toNat →
    Goes (.cfgRead p) s (answer opCfgRead p bufs (outData 1 (leBytes 8 (objVal q (par p 16 8)))) q))
  ∧ (∀ p s bufs q e, Admitted opCfgRead p s bufs q → portFieldOk q (par p 16 8) = true → par p 24 1 = 1 → 8 ≤ p.paramLen.toNat →
    q.ctl.staging.find? (fun x => x.obj == par p 16 8) = some e →
    Goes (.cfgRead p) s (answer opCfgRead p bufs (outData 1 (leBytes 8 e.value.toNat)) q))
  ∧ (∀ p s bufs q, Admitted opCfgRead p s bufs q → portFieldOk q (par p 16 8) = true → par p 24 1 = 1 →
    q.ctl.staging.find? (fun x => x.obj == par p 16 8) = none →
    8 ≤ p.paramLen.toNat →
    Goes (.cfgRead p) s (answer opCfgRead p bufs (outData 0 (leBytes 8 (openDraw 25 q).toNat)) (advanceDraws 1 q)))

/-- Leases and Autopilot's journal (R54 to R58): LEASE_TAKE grants or renews where no other owner's lease meets the group and
the table has room, and answers the expiry Fix; LEASE_RELEASE ends an own lease with its staged entries, or finds none;
AP_JOURNAL_READ returns the entries from START that fit. -/
def Obligations.LeaseCommandsComplete : Prop :=
  (∀ p s bufs q, Admitted opLeaseTake p s bufs q → groupTaken q (ownerOf p.src) (parGroup p) = false →
    ((leaseOf q (ownerOf p.src) (parGroup p)).isSome ∨ q.ctl.leases.length < 256) →
    let e : FixNo := q.clock.fix + BitVec.ofNat 22 (par p 20 4)
    Goes (.leaseTake p) s (answer opLeaseTake p bufs (outOk e.toNat)
      { q with ctl.leases := q.ctl.leases.filter (fun x => !(x.owner == ownerOf p.src && x.group == parGroup p))
                 ++ [{ owner := ownerOf p.src, group := parGroup p, expiry := e }] }))
  ∧ (∀ p s bufs q, Admitted opLeaseTake p s bufs q → groupTaken q (ownerOf p.src) (parGroup p) = true →
    Goes (.leaseTake p) s (answer opLeaseTake p bufs (outErr stBUSY) q))
  ∧ (∀ p s bufs q, Admitted opLeaseRelease p s bufs q → (leaseOf q (ownerOf p.src) (parGroup p)).isSome = true →
    Goes (.leaseRelease p) s (answer opLeaseRelease p bufs (outOpen []) (endLease (ownerOf p.src) (parGroup p) q)))
  ∧ (∀ p s bufs q, Admitted opLeaseRelease p s bufs q → leaseOf q (ownerOf p.src) (parGroup p) = none →
    Goes (.leaseRelease p) s (answer opLeaseRelease p bufs (outErr stNOTFOUND) q))
  ∧ (∀ p s bufs q, Admitted opApJournalRead p s bufs q →
    let all := apFrom q (par p 16 4)
    let es := all.take ((p.paramLen.toNat - 16) / 32)
    let first := if es.isEmpty then q.ctl.apNext.toNat else ns32 q.ctl.apNext.toNat all.length
    let o := outData es.length (leBytes 4 first ++ leBytes 4 es.length ++ leBytes 4 q.ctl.apLost.toNat
      ++ leBytes 4 q.ctl.apNext.toNat ++ (es.map apBytes).flatten)
    Fits p o → Goes (.apJournalRead p) s (answer opApJournalRead p bufs o q))

/-- Reads and settings of ports and of Meridian (Tables 4.4, 5.5; R101, R115 to R121, R127): PORT_READ, TIMED_READ and TIME_STATUS
return their tables; TIME_CAP_READ consumes what it returns unless ring 2 reads; TIMED_ARM arms a free slot whose target lies
1,024 ns to 2^31 ns ahead; TIMED_CANCEL disarms an armed slot of 2 to 63 and ends a high periodic pulse; TIME_SET orders a
step of the wall clock where PTP is off. -/
def Obligations.TimeCommandsComplete : Prop :=
  (∀ p s bufs q, Admitted opPortRead p s bufs q →
    let o := outData (par p 17 1) (((List.range (par p 17 1)).map (fun i => portEntry q (par p 16 1 + i))).flatten)
    Fits p o → Goes (.portRead p) s (answer opPortRead p bufs o q))
  ∧ (∀ p s bufs q, Admitted opTimedArm p s bufs q → (slotOf q (par p 16 1)).armed = false →
    1024 ≤ ns32 (par p 20 4) (fixN q * 1024) → ns32 (par p 20 4) (fixN q * 1024) < 2 ^ 31 →
    (par p 17 1 = 4 → portFieldOk q (par p 32 8) = true) →
    Goes (.timedArm p) s (answer opTimedArm p bufs (outOk (par p 16 1)) (modSlot (par p 16 1) (fun t => { t with
        armed := true, kind := kindOfByte (par p 17 1), pin := par p 18 1, level := par p 19 1,
        target := BitVec.ofNat 32 (par p 20 4), width := par p 24 4, period := par p 28 4, obj := par p 32 8,
        value := BitVec.ofNat 64 (par p 40 8) }) q)))
  ∧ (∀ p s bufs q, Admitted opTimedCancel p s bufs q → (slotOf q (par p 16 1)).armed = true →
    (slotOf q (par p 16 1)).kind ≠ .pinPeriodic →
    Goes (.timedCancel p) s (answer opTimedCancel p bufs (outOpen [])
      (modSlot (par p 16 1) (fun t => { t with armed := false }) q)))
  ∧ (∀ p s bufs q, Admitted opTimedRead p s bufs q →
    let o := outOpen (((List.range 64).map (slotBytes q)).flatten)
    Fits p o → Goes (.timedRead p) s (answer opTimedRead p bufs o q))
  ∧ (∀ p s bufs q, Admitted opTimeCapRead p s bufs q →
    let es := (capOf q (par p 16 1)).take (par p 17 1)
    let o := outData es.length ((es.map (fun e => leBytes 4 e.time.toNat ++ [byteN (b2n e.rising), 0, 0, 0])).flatten)
    Fits p o → Goes (.timeCapRead p) s (answer opTimeCapRead p bufs o
      (if authOf q p.src = 2 then q else setCap (par p 16 1) ((capOf q (par p 16 1)).drop es.length) q)))
  ∧ (∀ p s bufs q, Admitted opTimeStatus p s bufs q →
    let o := outOpen (leBytes 4 (merSync q) ++ leBytes 2 q.mer.utcOffset.toNat ++ zerosB 2 ++ leBytes 4 q.mer.offsetNs.toNat
      ++ leBytes 4 q.mer.pathDelay.toNat ++ leBytes 4 (holdoverSeconds q) ++ zerosB 4 ++ leBytes 8 q.mer.masterId.toNat)
    Fits p o → Goes (.timeStatus p) s (answer opTimeStatus p bufs o q))
  ∧ (∀ p s bufs q, Admitted opTimeSet p s bufs q → fv q 11 1 0 0 1 = 0 →
    Goes (.timeSet p) s (answer opTimeSet p bufs (outOpen [])
      (orderStep ((par p 16 8 : Nat) - ((q.clock.tai : Int) + 1024 * q.clock.stepDue))
        { q with mer.leapTaken := false, mer.nextLeap := none, mer.utcOffset := BitVec.ofNat 16 (par p 24 2), mer.utcValid := true,
                 mer.leap61 := par p 26 1 % 2 == 1, mer.leap59 := par p 26 1 / 2 == 1 })))

/-- Parser and classifier commands (R147 to R149, R155, Table 6.9). -/
def Obligations.ClassifierCommandsComplete : Prop :=
  (∀ p s bufs q, Admitted opRulesetSwap p s bufs q → q.cls.swap = none → multiRunning q 0x0331 = false →
    (bankOf q (b2n (!q.cls.activeGen))).built = true →
    Goes (.rulesetSwap p) s (flushCpls { q with
      cls.activeGen := !q.cls.activeGen
      cls.lastFlip := q.clock.fix
      cls.swap := some { fix := q.clock.fix, count := 0, p := p } }))
  ∧ (∀ p s bufs q, Admitted opRulesetSwap p s bufs q → (q.cls.swap.isSome = true ∨ multiRunning q 0x0331 = true) →
    Goes (.rulesetSwap p) s (answer opRulesetSwap p bufs (outErr stBUSY) q))
  ∧ (∀ p s bufs q, Admitted opRulesetStatus p s bufs q →
    let o := outData 16 ([byteN (b2n q.cls.activeGen), byteN (b2n q.cls.swap.isSome), 0, 0]
      ++ leBytes 4 (if q.cls.swap.isSome then q.cls.genCount.getD (b2n (!q.cls.activeGen)) 0 else 0)
      ++ leBytes 4 q.cls.lastFlip.toNat ++ zerosB 4)
    Fits p o → Goes (.rulesetStatus p) s (answer opRulesetStatus p bufs o q))
  ∧ (∀ p s bufs q, Admitted opParseNodeWrite p s bufs q → swapHolds q = false →
    Goes (.parseNodeWrite p) s (answer opParseNodeWrite p bufs (outOk (par p 17 1))
      ((pipeMask (par p 16 1)).foldl (fun s pipe => ((List.range (par p 17 1)).map (payEntry p 80)).foldl
        (fun s r => putNode pipe (1 - genBefore q) (nByte r 0) r s) s) q)))
  ∧ (∀ p s bufs q, Admitted opParseNodeRead p s bufs q →
    let o := outData 64 (((List.range 64).map (fun i =>
      spliceB (nodeRec q (par p 16 1) (par p 17 1) i) 0 [byteN i])).flatten)
    Fits p o → Goes (.parseNodeRead p) s (answer opParseNodeRead p bufs o q))
  ∧ (∀ p s bufs q t, Admitted opClsEntryWrite p s bufs q → swapHolds q = false → clsWriteLoop p (par p 16 2) 0 q = .ok t →
    Goes (.clsEntryWrite p) s (answer opClsEntryWrite p bufs (outOk (par p 16 2)) t))
  ∧ (∀ p s bufs q, Admitted opClsEntryRead p s bufs q → clsReadOk q p = true →
    let o := outData (par p 24 2) (((List.range (par p 24 2)).map (fun j =>
      match entryPhys q (stageIdx (par p 16 1) (par p 17 1)) (par p 20 4 + j) with
      | some ph => entryRead q (par p 16 1) (par p 17 1) (par p 20 4 + j) ph
      | none => zerosB 192)).flatten)
    Fits p o → Goes (.clsEntryRead p) s (answer opClsEntryRead p bufs o q))
  ∧ (∀ p s bufs q b, Admitted opPmPatternWrite p s bufs q → swapHolds q = false →
    patLoop p (par p 16 2) 0 (bankOf q (1 - genBefore q)) = .ok b →
    Goes (.pmPatternWrite p) s (answer opPmPatternWrite p bufs (outOk (par p 16 2)) (setPatBank (1 - genBefore q) b q)))
  ∧ (∀ p s bufs q, Admitted opPipeStatsRead p s bufs q →
    let c := q.cls.cnt.getD (par p 16 1) pipeCountsReset
    let o := outData 80 (([c.parseDrop, c.passDrop, c.actionDrop, c.integrityDrop, c.unscannedBudget, c.unscannedLane, c.pmDrop,
      c.streamGap, c.tenantIgnored, c.flowReqIgnored].map (fun v => leBytes 8 v.toNat)).flatten)
    Fits p o → Goes (.pipeStatsRead p) s (answer opPipeStatsRead p bufs o q))

/-- PM_BUILD and PM_COPY (R156): work on at most 1,024 patterns ends at the first boundary, more patterns leave a command
under way, 1,024 patterns to a boundary. -/
def Obligations.PatternBuildCommandsComplete : Prop :=
  (∀ p s bufs q, Admitted opPmBuild p s bufs q → swapHolds q = false → multiRunning q 0x0332 = false →
    let b := bankOf q (1 - genBefore q)
    b.pats.length ≤ 1024 → bankStates b ≤ 2097152 →
    Goes (.pmBuild p) s (answer opPmBuild p bufs (outOk b.pats.length)
      (setPatBank (1 - genBefore q) { b with compiled := b.pats, built := true } q)))
  ∧ (∀ p s bufs q, Admitted opPmBuild p s bufs q → swapHolds q = false → multiRunning q 0x0332 = false →
    1024 < (bankOf q (1 - genBefore q)).pats.length →
    Goes (.pmBuild p) s (underWay { started opPmBuild p bufs 262144 [] q with pos := 1024, units := 1 } q))
  ∧ (∀ p s bufs q, Admitted opPmCopy p s bufs q → swapHolds q = false → multiRunning q 0x0331 = false →
    let src := bankOf q (genBefore q)
    src.pats.length ≤ 1024 →
    Goes (.pmCopy p) s (answer opPmCopy p bufs (outOk src.pats.length)
      (setPatBank (1 - genBefore q) { src with built := true } q)))
  ∧ (∀ p s bufs q, Admitted opPmCopy p s bufs q → swapHolds q = false → multiRunning q 0x0331 = false →
    let src := bankOf q (genBefore q)
    1024 < src.pats.length →
    Goes (.pmCopy p) s (underWay { started opPmCopy p bufs 262144 [] q with pos := 1024, units := 1 }
      (setPatBank (1 - genBefore q)
        { pats := src.pats.take 1024, compiled := (bankOf q (1 - genBefore q)).compiled, built := false } q)))

/-- Flow-table commands (R188 to R192, Table 7.10). A record command finds its bucket unlocked; FLOW_INSERT places a new
record of a key that has none; FLOW_DELETE makes a tombstone; FLOW_MODIFY writes the fields that its mask selects; FLOW_FIND
and the reads change no record; FLOW_EVENT_READ consumes the events it returns unless ring 2 reads. -/
def Obligations.FlowCommandsComplete : Prop :=
  (∀ p s bufs q home h, Admitted opFlowInsert p s bufs q → lockedFor q (payKey p) = false →
    let v := (seekKey (payKey p) q).2
    (seekKey (payKey p) q).1 = false → findRec v (payKey p) = none → newHome v (payKey p) = some home →
    insertPlace v (payKey p) = some h →
    let n := mirrorNew (specApply 0x1F (payBytes p) (newRec v (payKey p) home 0 0 0)) v
    Goes (.flowInsert p) s (answer opFlowInsert p bufs (outOk h)
      (flowEvent 2 (keySlice q (payKey p)) h n.1 (recWritten (payKey p) (placeRec h n.1) n.2))))
  ∧ (∀ p s bufs q, Admitted opFlowInsert p s bufs q → lockedFor q (payKey p) = false →
    (findRec (seekKey (payKey p) q).2 (payKey p)).isSome = true →
    Goes (.flowInsert p) s (answer opFlowInsert p bufs (outErr stEXISTS) (seekKey (payKey p) q).2))
  ∧ (∀ p s bufs q h r, Admitted opFlowDelete p s bufs q → lockedFor q (payKey p) = false →
    let v := (seekKey (payKey p) q).2
    findRec v (payKey p) = some (h, r) → rget rSTATE r ≠ 2 → recStandby v r = false → tombRoom v (hSlice v h) = true →
    Goes (.flowDelete p) s (answer opFlowDelete p bufs (outOk h)
      (recWritten (payKey p) (fun s => unitRewritten h r (makeTomb h 4 s)) v)))
  ∧ (∀ p s bufs q h r, Admitted opFlowModify p s bufs q → lockedFor q (payKey p) = false →
    let v := (seekKey (payKey p) q).2
    findRec v (payKey p) = some (h, r) → rget rSTATE r ≠ 2 → recStandby v r = false →
    ((par p 16 2).testBit 15 = true → rget rGEN r = par p 18 2) →
    let n := genBump (specApply (par p 16 2) (payBytes p) r)
    let t := recWritten (payKey p) (fun s => unitRewritten h n (rewriteRec h n s)) v
    Goes (.flowModify p) s (answer opFlowModify p bufs (outOk (rget rGEN n))
      (if par p 16 2 % 32 = 0 then t else mirrorChange n t)))
  ∧ (∀ p s bufs q, Admitted opFlowRead p s bufs q →
    let o := outData (par p 20 2) ((List.range (par p 20 2)).map (fun i =>
      if par p 22 1 = 1 then stashEntry q p (par p 16 4 % 4) i else bucketEntry q p (par p 16 4 + i))).flatten
    Fits p o → Goes (.flowRead p) s (answer opFlowRead p bufs o q))
  ∧ (∀ p s bufs q, Admitted opFlowPurgeTenant p s bufs q →
    Goes (.flowPurgeTenant p) s (match purgeUnit (started opFlowPurgeTenant p bufs 524288 [] q) q with
      | (t, .more m) => underWay m t
      | (t, .fin o) => answer opFlowPurgeTenant p bufs o t))
  ∧ (∀ p s bufs q, Admitted opFlowStatsRead p s bufs q →
    let o := outData 512 (((List.range 4).map (sliceStats q)).flatten)
    Fits p o → Goes (.flowStatsRead p) s (answer opFlowStatsRead p bufs o q))
  ∧ (∀ p s bufs q, Admitted opFlowEventRead p s bufs q → q.flow.eventAge = none →
    let es := (sliceOf q (par p 16 1)).events.take (par p 18 2)
    let u := { q with flow.eventAge := some 0 }
    Fits p (outData es.length es.flatten) → Goes (.flowEventRead p) s (answer opFlowEventRead p bufs (outData es.length es.flatten)
      (if authOf q p.src = 2 then u else modSlice (par p 16 1) (fun k => { k with events := k.events.drop es.length }) u)))
  ∧ (∀ p s bufs q, Admitted opFlowFind p s bufs q → lockedFor q (payKey p) = false →
    let v := (seekKey (payKey p) q).2
    Goes (.flowFind p) s (answer opFlowFind p bufs (match findRec v (payKey p) with
      | some (h, _) => outOk h
      | none => outErr (if (seekKey (payKey p) q).1 = true then stFAULTED else stNOTFOUND)) v))

/-- A record command whose bucket is locked completes BUSY and changes nothing (R183, R208). -/
def Obligations.LockedBucketAnswersBusy : Prop :=
  (∀ p s bufs q, Admitted opFlowInsert p s bufs q → lockedFor q (payKey p) = true →
    Goes (.flowInsert p) s (answer opFlowInsert p bufs (outErr stBUSY) q))
  ∧ (∀ p s bufs q, Admitted opFlowDelete p s bufs q → lockedFor q (payKey p) = true →
    Goes (.flowDelete p) s (answer opFlowDelete p bufs (outErr stBUSY) q))
  ∧ (∀ p s bufs q, Admitted opFlowModify p s bufs q → lockedFor q (payKey p) = true →
    Goes (.flowModify p) s (answer opFlowModify p bufs (outErr stBUSY) q))

/-- Skipper commands (Table 8.8a, R222 to R224): the reads return their tables; SKIP_TELEM_READ consumes what it returns
unless ring 2 reads; SKIP_RUN without a record dispatches a free engine of an enabled cluster whose entry word is sound and
valid, and is under way, or answers BUSY where no engine is free; SKIP_RESET ends the routines of the engines that it names,
and answers how many. -/
def Obligations.SkipperCommandsComplete : Prop :=
  (∀ p s bufs q, Admitted opSkipStatusRead p s bufs q →
    let o := outData (par p 18 2) ((List.range (par p 18 2)).map (fun i =>
      engEntry (par p 16 2 + i) (engOf q (par p 16 2 + i)))).flatten
    Fits p o → Goes (.skipStatusRead p) s (answer opSkipStatusRead p bufs o q))
  ∧ (∀ p s bufs q, Admitted opSkipStatsRead p s bufs q →
    let o := outData 128 (q.skip.cnt.map (fun c => leBytes 8 c.toNat)).flatten
    Fits p o → Goes (.skipStatsRead p) s (answer opSkipStatsRead p bufs o q))
  ∧ (∀ p s bufs q, Admitted opSkipTelemRead p s bufs q → q.skip.telemAge = none →
    let es := q.skip.telem.take (par p 16 2)
    Fits p (outData es.length es.flatten) → Goes (.skipTelemRead p) s (answer opSkipTelemRead p bufs (outData es.length es.flatten)
      (if authOf q p.src = 2 then { q with skip.telemAge := some 0 }
       else { q with skip.telemAge := some 0, skip.telem := q.skip.telem.drop es.length })))
  ∧ (∀ p s bufs q, Admitted opLbRead p s bufs q →
    let k := par p 16 1
    let o := outData 1024 ((List.range 256).map (fun j => byteN (fv q 4 0x10 (k * 256 + j) 0 6))
      ++ ((List.range 64).map (fun j => leBytes 4 (kget 0 q.skip.closedK (k * 64 + j)))).flatten
      ++ ((List.range 256).map (fun j => leBytes 2 (min 65535 (kget 0 q.skip.closedB (k * 256 + j))))).flatten)
    Fits p o → Goes (.lbRead p) s (answer opLbRead p bufs o q))
  ∧ (∀ p s bufs q id, Admitted opSkipRun p s bufs q → runHandle p = none →
    ((runClusters p).filter (fun c => (fv q 4 1 0 0 32).testBit c)).findSome? (freeIn q) = some id →
    let v := (ucFetch (id / 16) 2 (par p 16 1) q).2
    (ucFetch (id / 16) 2 (par p 16 1) q).1 = false → (entryAt v (id / 16) (par p 16 1)).testBit 14 = true →
    let m := started opSkipRun p bufs (fv q 4 4 0 16 16) [] q
    Goes (.skipRun p) s (underWay { m with pos := 1 } (runDispatch id m.slot p none v)))
  ∧ (∀ p s bufs q, Admitted opSkipRun p s bufs q →
    ((runClusters p).filter (fun c => (fv q 4 1 0 0 32).testBit c)).findSome? (freeIn q) = none →
    Goes (.skipRun p) s (answer opSkipRun p bufs (outErrAt stBUSY 0) q))
  ∧ (∀ p s bufs q, Admitted opSkipReset p s bufs q →
    Goes (.skipReset p) s (answer opSkipReset p bufs (outOk (resetEngines q p).length)
      ((resetEngines q p).foldl (fun s id => loseEngine id .reset s) q)))

/-- Microcode commands (R237, R238, Table 9.12): UCODE_LOAD of several idle clusters loads the first and is under way; a bundle that
fails a check loads nothing and completes BADARG; UCODE_INFO and UCODE_READ return the clusters' entries and the words. -/
def Obligations.MicrocodeCommandsComplete : Prop :=
  (∀ p s bufs q sec c, Admitted opUcodeLoad p s bufs q → ucSource q p = some sec →
    (bundlesFor sec (par p 16 4)).all (fun i => (bundleFault sec i).isNone) = true →
    let m := started opUcodeLoad p bufs 8192 [0] q
    ucStepDue m = true → nextCluster m = some c → clusterIdle q c = true →
    (nextCluster { m with units := 1, pos := c + 1, aux := [1] }).isSome = true →
    Goes (.ucodeLoad p) s (underWay { m with units := 1, pos := c + 1, aux := [1], lastFix := (loadCluster sec c q).clock.fix }
      (loadCluster sec c q)))
  ∧ (∀ p s bufs q sec, Admitted opUcodeLoad p s bufs q → ucSource q p = some sec →
    (bundlesFor sec (par p 16 4)).any (fun i => (bundleFault sec i).isSome) = true →
    Goes (.ucodeLoad p) s (answer opUcodeLoad p bufs (outErrAt stBADARG 0) (rejectBundles sec (par p 16 4) q)))
  ∧ (∀ p s bufs q, Admitted opUcodeInfo p s bufs q →
    let o := outData 512 ((List.range 32).map (fun c => clusterEntry (clusterOf q c))).flatten
    Fits p o → Goes (.ucodeInfo p) s (answer opUcodeInfo p bufs o q))
  ∧ (∀ p s bufs q, Admitted opUcodeRead p s bufs q →
    let store := par p 17 1
    let o := outData (par p 20 2) ((List.range (par p 20 2)).map (fun i =>
      leBytes (ucWidth store) (ucWord q (par p 16 1) store (par p 18 2 + i)))).flatten
    Fits p o → Goes (.ucodeRead p) s (answer opUcodeRead p bufs o q))

/-- Switch-core commands (R267, R270, Table 10.9a). CAPTURE_RING_SET enables a disabled ring or disables a ring, and a
disabled Sounding ring loses the samples that wait. -/
def Obligations.SwitchCommandsComplete : Prop :=
  (∀ p s bufs q, Admitted opScStatusRead p s bufs q →
    let alpha := (List.range 8).foldl (fun a c => a + fv q 6 2 c 0 3 * 16 ^ c) 0
    let hd := q.sw.prio.foldl (fun a e => a + e.2.hdrm) 0
    let two := fun (f : ScPipe → Nat) => ((List.range 4).map (fun i => leBytes 2 (f (pipeState q i)))).flatten
    let o := outData 64 (leBytes 4 (sharedSize q) ++ leBytes 4 q.sw.shared ++ leBytes 4 hd ++ leBytes 4 alpha
      ++ two (fun p => p.staging) ++ two (fun p => p.allowance) ++ leBytes 16 (ports128 (portFlushing q)) ++ zerosB 16)
    Fits p o → Goes (.scStatusRead p) s (answer opScStatusRead p bufs o q))
  ∧ (∀ p s bufs q, Admitted opScStatsRead p s bufs q →
    let pipe := fun i => (([(pipeState q i).stageDrop, (pipeState q i).recircNobuf, (pipeState q i).holdNobuf,
      (pipeState q i).mcDrop, (pipeState q i).mcPrune, (pipeState q i).logDropRate, (pipeState q i).logDropFull,
      (pipeState q i).logOvf].map (fun c => leBytes 8 c.toNat)).flatten)
    let o := outData 288 (((List.range 4).map pipe).flatten ++ leBytes 8 q.sw.soundSamples.toNat ++ leBytes 8 q.sw.soundLost.toNat
      ++ leBytes 8 q.sw.reclaimed.toNat ++ zerosB 8)
    Fits p o → Goes (.scStatsRead p) s (answer opScStatsRead p bufs o q))
  ∧ (∀ p s bufs q, Admitted opScPortStatsRead p s bufs q →
    let one := fun i =>
      let c := kget scPortReset q.sw.portCnt (par p 16 1 + i)
      ([c.admitDrop, c.hdrmDrop, c.downDrop, c.flushDrop, c.isoDrop, c.badDiscard, c.ctUnderrun, c.contFail].map
        (fun v => leBytes 8 v.toNat)).flatten
    let o := outData (par p 17 1) (((List.range (par p 17 1)).map one).flatten)
    Fits p o → Goes (.scPortStatsRead p) s (answer opScPortStatsRead p bufs o q))
  ∧ (∀ p s bufs q r, Admitted opCaptureRingSet p s bufs q → ringSet p (capRing q (par p 16 1)) = some r →
    let u := { q with sw.rings := setAt q.sw.rings (par p 16 1) r }
    Goes (.captureRingSet p) s (answer opCaptureRingSet p bufs (outOk (par p 16 1))
      (if par p 16 1 = 4 ∧ r.enable = false then soundDrop u else u)))
  ∧ (∀ p s bufs q, Admitted opCaptureRingSet p s bufs q → ringSet p (capRing q (par p 16 1)) = none →
    Goes (.captureRingSet p) s (answer opCaptureRingSet p bufs (outErr stBUSY) q))

/-- Traffic-manager reads (R288, R290, Table 11.5): samples, counts of queues and of policers, with zeros for what ring 1 may
not see. -/
def Obligations.TrafficManagerReadsComplete : Prop :=
  (∀ p s bufs q, Admitted opTmSampleRead p s bufs q →
    let o := outData (par p 20 2) (((List.range (par p 20 2)).map (fun i =>
      if tmQueueSeen q p (par p 16 4 + i) then sampleRead q (par p 16 4 + i) else zerosB 16)).flatten)
    Fits p o → Goes (.tmSampleRead p) s (answer opTmSampleRead p bufs o q))
  ∧ (∀ p s bufs q, Admitted opTmQstatsRead p s bufs q →
    let o := outData (par p 20 2) (((List.range (par p 20 2)).map (fun i =>
      if tmQueueSeen q p (par p 16 4 + i) then
        leBytes 8 (queueOf q (par p 16 4 + i)).txFrames.toNat ++ leBytes 8 (queueOf q (par p 16 4 + i)).txOctets.toNat
      else zerosB 16)).flatten)
    Fits p o → Goes (.tmQstatsRead p) s (answer opTmQstatsRead p bufs o q))
  ∧ (∀ p s bufs q, Admitted opTmPolRead p s bufs q →
    let o := outData (par p 20 2) (((List.range (par p 20 2)).map (fun i =>
      let e := par p 16 4 + i
      if authOf q p.src != 1 || (tenantsOf q p.src).contains (fv q 12 2 e 0 24) then
        leBytes 8 (ofSigned 64 (polTokens q e)) ++ leBytes 8 (polOf q e).dropFrames.toNat ++ leBytes 8 (polOf q e).dropOctets.toNat
      else zerosB 24)).flatten)
    Fits p o → Goes (.tmPolRead p) s (answer opTmPolRead p bufs o q))
  ∧ (∀ p s bufs q, Admitted opTmStatsRead p s bufs q →
    let o := outData 64 (leBytes 8 q.sw.unassigned.toNat ++ leBytes 8 q.sw.noDest.toNat ++ leBytes 8 q.sw.polFrames.toNat
      ++ leBytes 8 q.sw.polOctets.toNat ++ zerosB 32)
    Fits p o → Goes (.tmStatsRead p) s (answer opTmStatsRead p bufs o q))

/-- Buffer-pool commands (R304, Table 12.6): POOL_ALLOC grants a buffer or answers NOBUF; POOL_FREE frees a buffer of owner 0x250,
and refuses any other by its cause; POOL_OWNER_READ answers the owner; the reads return their tables, and POOL_ACCT_READ
starts the high marks again unless ring 2 reads. -/
def Obligations.PoolCommandsComplete : Prop :=
  (∀ p s bufs q, Admitted opPoolStatsRead p s bufs q →
    let one := fun pool =>
      let c := kget poolCountsReset q.pools.cnt pool
      leBytes 4 (poolSize q pool) ++ leBytes 4 (poolShared q pool) ++ leBytes 4 (poolSharedUse q pool)
        ++ leBytes 4 (poolFreeCount q pool)
        ++ ([c.allocs, c.frees, c.nobuf, c.doubleFree, c.foreignFree, c.sizeRefused].map (fun v => leBytes 8 v.toNat)).flatten
    let o := outData 7 (((List.range 7).map one).flatten)
    Fits p o → Goes (.poolStatsRead p) s (answer opPoolStatsRead p bufs o q))
  ∧ (∀ p s bufs q, Admitted opPoolAcctRead p s bufs q →
    let one := fun a pool => leBytes 4 (acctUse q a pool).use ++ leBytes 4 (acctUse q a pool).high
      ++ leBytes 8 (acctUse q a pool).nobuf.toNat
    let o := outData 112 ((List.range 16).map (fun a => ((List.range 7).map (one a)).flatten)).flatten
    let marks := (q.pools.acct.map (fun e => (e.1, { e.2 with high := e.2.use }))).filter (fun e => decide (e.2 ≠ acctUseReset))
    Fits p o → Goes (.poolAcctRead p) s (answer opPoolAcctRead p bufs o
      (if authOf q p.src = 2 then q else { q with pools.acct := marks })))
  ∧ (∀ p s bufs q r t, Admitted opPoolAlloc p s bufs q → poolTake (par p 18 2) (acctOf (par p 18 2)) (par p 16 1) q = (some r, t) →
    Goes (.poolAlloc p) s (answer opPoolAlloc p bufs (outOk r) t))
  ∧ (∀ p s bufs q t, Admitted opPoolAlloc p s bufs q → poolTake (par p 18 2) (acctOf (par p 18 2)) (par p 16 1) q = (none, t) →
    Goes (.poolAlloc p) s (answer opPoolAlloc p bufs (outErr stNOBUF) t))
  ∧ (∀ p s bufs q x t, Admitted opPoolFree p s bufs q → poolFree 11 (par p 16 4) (fun o => o == 0x250) q = (x, t) →
    Goes (.poolFree p) s (answer opPoolFree p bufs (match x with
      | none => outOk (par p 16 4)
      | some .double => outErr stNOTFOUND
      | some .foreign => outErr stDENIED
      | some .range => outErr stBADARG) t))
  ∧ (∀ p s bufs q o, Admitted opPoolOwnerRead p s bufs q → kfind q.pools.alloc (par p 16 4) = some o →
    Goes (.poolOwnerRead p) s (answer opPoolOwnerRead p bufs (outOk (o + 2 ^ 12)) q))
  ∧ (∀ p s bufs q, Admitted opPoolOwnerRead p s bufs q → kfind q.pools.alloc (par p 16 4) = none →
    Goes (.poolOwnerRead p) s (answer opPoolOwnerRead p bufs (outOk 0) q))

/-- HBM commands (R330, Table 13.7): the reads return their tables and change nothing; HBM_RETRAIN of a working
pseudo-channel in a stack that retrains none starts the retraining and is under way. -/
def Obligations.HbmCommandsComplete : Prop :=
  (∀ p s bufs q, Admitted opHbmStatusRead p s bufs q →
    let o := outData 6 ((List.range 6).map (fun k =>
      (stackPcs k).map (fun c => stackByte (pcOf q c)) ++ [(stackOf q k).temp, byteN (b2n (stackOf q k).doubled), 0, 0]
        ++ leBytes 4 (stackOf q k).lastTrain.toNat ++ zerosB 24)).flatten
    Fits p o → Goes (.hbmStatusRead p) s (answer opHbmStatusRead p bufs o q))
  ∧ (∀ p s bufs q, Admitted opHbmStatsRead p s bufs q →
    let o := outData 6 (((List.range 6).map (fun k => ((stackOf q k).counts.map (fun c => leBytes 8 c.toNat)).flatten)).flatten)
    Fits p o → Goes (.hbmStatsRead p) s (answer opHbmStatsRead p bufs o q))
  ∧ (∀ p s bufs q, Admitted opArbStatsRead p s bufs q →
    let o := outData 6 (((List.range 6).map (fun k => ((List.range 6).map (fun c =>
      leBytes 8 ((stackOf q k).granted.getD c 0).toNat ++ leBytes 8 ((stackOf q k).borrowed.getD c 0).toNat
        ++ leBytes 8 ((stackOf q k).creditWait.getD c 0).toNat)).flatten)).flatten)
    Fits p o → Goes (.arbStatsRead p) s (answer opArbStatsRead p bufs o q))
  ∧ (∀ p s bufs q, Admitted opHbmRegionInfo p s bufs q →
    let o := outData 5 (((List.range 5).map (fun k =>
      leBytes 4 (pcBase q.small k) ++ leBytes 4 (pcSpan q.small k) ++ [byteN (grainLog q k)] ++ zerosB 7)).flatten)
    Fits p o → Goes (.hbmRegionInfo p) s (answer opHbmRegionInfo p bufs o q))
  ∧ (∀ p s bufs q, Admitted opHbmRetrain p s bufs q →
    let pc := 6 * par p 17 1 + par p 16 1
    (stackPcs (par p 16 1)).all (fun c => (pcOf q c).mode != .retraining) = true → (pcOf q pc).mode ≠ .dead →
    Goes (.hbmRetrain p) s (underWay { started opHbmRetrain p bufs 2 [fixN q, (pcOf q pc).trainFails] q with pos := pc }
      (startRetrain pc q)))
  ∧ (∀ p s bufs q, Admitted opHbmRetrain p s bufs q →
    (stackPcs (par p 16 1)).any (fun c => (pcOf q c).mode == .retraining) = true →
    Goes (.hbmRetrain p) s (answer opHbmRetrain p bufs (outErrAt stBUSY 0) q))

/-- Metering commands (R343, R344, Table 14.8): the reads return their tables; BILLING_SIGN takes its snapshot and is under way, or
is turned away while a signature is being made; BILL_RING_SET sets the ring, and with the ring enabled a block half delivered
starts again. That the snapshot is taken at the first boundary is the model's reading (log entry 51). -/
def Obligations.MeteringCommandsComplete : Prop :=
  (∀ p s bufs q, Admitted opMeterStatsRead p s bufs q →
    let o := outData 64 (([q.met.unmetered, q.met.mismatch, q.met.frozenDiscarded, q.met.spills, q.met.blocksClosed,
      q.met.billLost, q.met.ckptsWritten, 0].map (fun c => leBytes 8 c.toNat)).flatten)
    Fits p o → Goes (.meterStatsRead p) s (answer opMeterStatsRead p bufs o q))
  ∧ (∀ p s bufs q d, Admitted opMeterCloseInfo p s bufs q → closeInfo q (par p 16 8) = some d → Fits p (outData 160 d) →
    Goes (.meterCloseInfo p) s (answer opMeterCloseInfo p bufs (outData 160 d) q))
  ∧ (∀ p s bufs q, Admitted opMeterCloseInfo p s bufs q → closeInfo q (par p 16 8) = none →
    Goes (.meterCloseInfo p) s (answer opMeterCloseInfo p bufs (outErr stNOTFOUND) q))
  ∧ (∀ p s bufs q t o, Admitted opBillingSign p s bufs q → signBusy q = false → signBody p q = (t, o) → o.status = 0 →
    Goes (.billingSign p) s (underWay { started opBillingSign p bufs 4096 [o.result, leNat o.data] t with pos := o.data.length } t))
  ∧ (∀ p s bufs q, Admitted opBillingSign p s bufs q → signBusy q = true →
    Goes (.billingSign p) s (answer opBillingSign p bufs (outErrAt stBUSY 0) q))
  ∧ (∀ p s bufs q r, Admitted opBillRingSet p s bufs q → ringSet p q.met.ring = some r →
    Goes (.billRingSet p) s (answer opBillRingSet p bufs (outOk 0)
      (if r.enable then billRestart { q with met.ring := r } else { q with met.ring := r })))
  ∧ (∀ p s bufs q b, Admitted opBillBlockRead p s bufs q → (closedMinute q (par p 16 8)).bind (stagedBlock q) = some b →
    b.delivery ≠ .lost →
    let n := min (par p 28 4) (b.records - par p 24 4)
    Fits p (outData n (stagedRecords q b (par p 24 4) n)) →
    Goes (.billBlockRead p) s (answer opBillBlockRead p bufs (outData n (stagedRecords q b (par p 24 4) n)) q))

/-- Pair commands (R368, Table 15.9): the reads return their tables, and PAIR_STATUS_READ starts LAG_MAX again unless ring 2
reads; PAIR_ROLE sets the roles of homes, DENIED in SOLO; PAIR_RESYNC starts a resynchronisation from PAIRED, BUSY elsewhere.
CLAIM_EPOCH as the larger of two homes is the model's reading (log entry 54). -/
def Obligations.PairCommandsComplete : Prop :=
  (∀ p s bufs q, Admitted opPairStatusRead p s bufs q →
    let o := outData 64 ([byteN (pairCode q.pair.st), byteN q.pair.cause, byteN q.pair.roles.toNat, byteN q.pair.peerRoles.toNat,
        byteN q.pair.peerPower, 0, 0, 0] ++ leBytes 4 q.pair.txSeq ++ leBytes 4 q.pair.peerApplied
      ++ leBytes 4 (pairLag q) ++ leBytes 4 q.pair.lagMax ++ leBytes 4 (max (epochOf q 1) (epochOf q 2))
      ++ leBytes 4 ((q.pair.sweep.map (fun w => w.bucket)).getD 0) ++ beBytes 16 q.pair.peerUid.toNat
      ++ leBytes 4 q.pair.journal.length ++ zerosB 12)
    Fits p o → Goes (.pairStatusRead p) s (answer opPairStatusRead p bufs o
      (if authOf q p.src = 2 then q else { q with pair.lagMax := 0 })))
  ∧ (∀ p s bufs q, Admitted opPairRole p s bufs q → q.pair.st ≠ .solo →
    let t := roleApply (par p 16 1) (par p 17 1) q
    Goes (.pairRole p) s (answer opPairRole p bufs (outOk t.pair.roles.toNat) t))
  ∧ (∀ p s bufs q, Admitted opPairRole p s bufs q → q.pair.st = .solo →
    Goes (.pairRole p) s (answer opPairRole p bufs (outErr stDENIED) q))
  ∧ (∀ p s bufs q, Admitted opPairStatsRead p s bufs q →
    let o := outData 128 (q.pair.cnt.map (fun c => leBytes 8 c.toNat)).flatten
    Fits p o → Goes (.pairStatsRead p) s (answer opPairStatsRead p bufs o q))
  ∧ (∀ p s bufs q, Admitted opPairResync p s bufs q → q.pair.st = .paired →
    Goes (.pairResync p) s (answer opPairResync p bufs (outOk 0) (enterPair .resync q)))
  ∧ (∀ p s bufs q, Admitted opPairResync p s bufs q → q.pair.st ≠ .solo → q.pair.st ≠ .paired →
    Goes (.pairResync p) s (answer opPairResync p bufs (outErr stBUSY) q))
  ∧ (∀ p s bufs q, Admitted opPairHeadRead p s bufs q →
    let o := outData q.pair.heads.length (padTo 6144 ((q.pair.heads.map (padTo 96)).flatten))
    Fits p o → Goes (.pairHeadRead p) s (answer opPairHeadRead p bufs o q))

/-- Lodestar's commands (R391, R393 to R395, Table 16.11). FAULT_LOG_READ drops the records it returned from the on-die ring unless
ring 2 reads; FAULT_RELEASE ends an ACTIVE or HELD state and clears its history; FAULT_INJECT_UNLOCK gives a fresh nonce or
tries a signature over it, once; FAULT_INJECT sends a message or damages a word; the reads return their tables. -/
def Obligations.FaultCommandsComplete : Prop :=
  (∀ p s bufs q, Admitted opFaultLogRead p s bufs q →
    let rs := (if par p 18 1 = 1 then q.lod.book else q.lod.ring).take (par p 16 2)
    let o := outData rs.length ((rs.map recBytes).flatten)
    Fits p o → Goes (.faultLogRead p) s (answer opFaultLogRead p bufs o
      (if par p 18 1 = 0 ∧ authOf q p.src ≠ 2 then dropRecords rs.length q else q)))
  ∧ (∀ p s bufs q, Admitted opFaultRelease p s bufs q → stateOn (srcState q (par p 16 1) (par p 17 1)) = true →
    let t := modSrc (par p 16 1) (par p 17 1) (fun k => { k with history := [] }) (endState (par p 16 1) (par p 17 1) q)
    Goes (.faultRelease p) s (answer opFaultRelease p bufs (outOk (srcState t (par p 16 1) (par p 17 1)).recoveries.toNat) t))
  ∧ (∀ p s bufs q, Admitted opFaultRelease p s bufs q → stateOn (srcState q (par p 16 1) (par p 17 1)) = false →
    Goes (.faultRelease p) s (answer opFaultRelease p bufs (outErr stNOTFOUND) q))
  ∧ (∀ p s bufs q, Admitted opFaultStatusRead p s bufs q →
    let o := outData 584 ([byteN (b2n q.lod.grave), byteN (b2n q.lod.factory),
        byteN (b2n (pinsNow q).1 + 2 * b2n (pinsNow q).2)]
      ++ zerosB 5 ++ leBytes 8 q.lod.lost.toNat ++ leBytes 16 (ports128 (portSafe q))
      ++ ((List.range 23).map (srcEntry q)).flatten)
    Fits p o → Goes (.faultStatusRead p) s (answer opFaultStatusRead p bufs o q))
  ∧ (∀ p s bufs q, Admitted opFaultInjectUnlock p s bufs q → par p 16 1 = 0 → 16 ≤ p.paramLen.toNat →
    let n : BitVec 128 := Config.random (q.draws + 2) ++ Config.random (q.draws + 3)
    Goes (.faultInjectUnlock p) s (answer opFaultInjectUnlock p bufs { outOk 0 with data := beBytes 16 n.toNat }
      { q with draws := q.draws + 2, lod.nonce := some n }))
  ∧ (∀ p s bufs q n, Admitted opFaultInjectUnlock p s bufs q → par p 16 1 = 1 → q.lod.nonce = some n →
    Goes (.faultInjectUnlock p) s
      (if Config.ed448Verify Config.factoryKey (ctxFT ++ uniqueIdB) (beBytes 16 n.toNat) (payBytes p) then
        answer opFaultInjectUnlock p bufs (outOk 0)
          { q with lod.nonce := none, lod.factory := true, lod.factoryEntries := q.lod.factoryEntries + 1 }
       else answer opFaultInjectUnlock p bufs (outErr stAUTH) { q with lod.nonce := none }))
  ∧ (∀ p s bufs q, Admitted opFaultInjectUnlock p s bufs q → par p 16 1 = 1 → q.lod.nonce = none →
    Goes (.faultInjectUnlock p) s (answer opFaultInjectUnlock p bufs (outErr stAUTH) q))
  ∧ (∀ p s bufs q c, Admitted opFaultInject p s bufs q → kindClass (par p 16 1) (par p 17 1) = some c → par p 18 1 = 0 →
    let t := arrive (injectMsg p c) q
    Goes (.faultInject p) s (answer opFaultInject p bufs (outOk (recordSeq t (injectMsg p c))) t))
  ∧ (∀ p s bufs q c, Admitted opFaultInject p s bufs q → kindClass (par p 16 1) (par p 17 1) = some c → par p 18 1 ≠ 0 →
    let d : Damage := { source := byteN (par p 16 1), kind := byteN (par p 17 1), addr := BitVec.ofNat 40 (par p 24 5),
                        flip := BitVec.ofNat 64 (par p 32 8) }
    Goes (.faultInject p) s (answer opFaultInject p bufs (outOk 0) { q with lod.damage := q.lod.damage ++ [d] }))
  ∧ (∀ p s bufs q, Admitted opIsoTenantRead p s bufs q →
    let lo := objVal q (oid 14 0x100 (par p 16 4))
    let hi := objVal q (oid 14 0x101 (par p 16 4))
    let d := kget drainReset q.lod.drains (par p 16 4)
    let o := outData (b2n (lo != 0 || hi != 0)) (leBytes 8 lo ++ leBytes 8 hi ++ leBytes 16 d.mask.toNat
      ++ leBytes 4 d.fix.toNat ++ zerosB 12)
    Fits p o → Goes (.isoTenantRead p) s (answer opIsoTenantRead p bufs o q))

/-- The power manager's commands (R412, Table 17.6): POWER_STATUS_READ returns its 64 bytes; POWER_POLICY writes the fields of
its policy word, DENIED where the policy is not allowed. -/
def Obligations.PowerCommandsComplete : Prop :=
  (∀ p s bufs q, Admitted opPowerStatusRead p s bufs q →
    let o := outData 64 ([byteN (pwrCode q.pwr.st + 128 * b2n q.pwr.transit.isSome), byteN q.pwr.next, 0, 0]
      ++ leBytes 4 q.pwr.dist ++ leBytes 8 q.pwr.on.toNat ++ leBytes 8 q.pwr.gated.toNat ++ leBytes 8 q.pwr.roosts.toNat
      ++ leBytes 8 q.pwr.cocoons.toNat ++ [byteN q.pwr.tj.toNat] ++ zerosB 23)
    Fits p o → Goes (.powerStatusRead p) s (answer opPowerStatusRead p bufs o q))
  ∧ (∀ p s bufs q, Admitted opPowerPolicy p s bufs q → policyDenied q p = false →
    Goes (.powerPolicy p) s (answer opPowerPolicy p bufs (outOk (par p 16 1))
      ((policyWrites q p).foldl (fun s w => objWrite w.1 w.2 s) q)))
  ∧ (∀ p s bufs q, Admitted opPowerPolicy p s bufs q → policyDenied q p = true →
    Goes (.powerPolicy p) s (answer opPowerPolicy p bufs (outErr stDENIED) q))

/-- Image and identity commands (R416, R428 to R432, Table 18.8). IMAGE_STAGE writes the staging memory and takes back an
acceptance; IMAGE_ACCEPT and IMAGE_FLASH are under way after their first boundary; IMAGE_FUSE with nothing to raise changes
nothing, and with the fuses that verify (an open value) raises the anti-rollback fuse and burns the revocations, else fails
with what was fused (an open value); CHIP_RESET gives the order of rank 1 for the next sample; ATTEST takes its snapshot and
is under way; the reads return their tables. The open values are those of log entry 65. -/
def Obligations.BootCommandsComplete : Prop :=
  (∀ p s bufs q, Admitted opChipReset p s bufs q →
    let i : Input := { rank := 1, sub := 0, due := q.clock.fix + 1, body := .order (.chip 2 0) }
    Goes (.chipReset p) s (answer opChipReset p bufs (outOk 0) { q with ctl.queue := q.ctl.queue ++ [i] }))
  ∧ (∀ p s bufs q t o, Admitted opAttest p s bufs q → signBusy q = false → attestBody p q = (t, o) → o.status = 0 →
    Goes (.attest p) s (underWay { started opAttest p bufs 4096 [o.result, leNat o.data] t with pos := o.data.length } t))
  ∧ (∀ p s bufs q, Admitted opAttest p s bufs q → signBusy q = true →
    Goes (.attest p) s (answer opAttest p bufs (outErrAt stBUSY 0) q))
  ∧ (∀ p s bufs q, Admitted opImageInfo p s bufs q →
    let run := match q.boot.running with
      | some g => imageEntry g.header g.source 2 0
      | none => zerosB 96
    let st := if q.boot.stagedState = 0 then padTo 96 (zerosB 9 ++ [3])
      else imageEntry (stagedHeader q) 3 q.boot.stagedState q.boot.stagedReason
    let o := outData 256 (run ++ st ++ [byteN q.boot.fuses, byteN q.boot.revoke.toNat] ++ zerosB 62)
    Fits p o → Goes (.imageInfo p) s (answer opImageInfo p bufs o q))
  ∧ (∀ p s bufs q, Admitted opImageStage p s bufs q → imageBusy q = false →
    Goes (.imageStage p) s (answer opImageStage p bufs (outOk (par p 16 4 + p.paramLen.toNat))
      { q with boot.staging := memWriteN q.boot.staging (par p 16 4) (payBytes p), boot.stagedState := 1,
               boot.stagedReason := 0, boot.accepted := none }))
  ∧ (∀ p s bufs q, Admitted opImageStage p s bufs q → imageBusy q = true →
    Goes (.imageStage p) s (answer opImageStage p bufs (outErr stBUSY) q))
  ∧ (∀ p s bufs q, Admitted opImageAccept p s bufs q → imageBusy q = false →
    Goes (.imageAccept p) s (underWay { started opImageAccept p bufs 65536 [] q with pos := 1 } q))
  ∧ (∀ p s bufs q, Admitted opImageFlash p s bufs q → imageBusy q = false → q.boot.accepted.isSome = true →
    1 < (imgSize (stagedHeader q) + 65535) / 65536 →
    let slot := flashSlot q
    Goes (.imageFlash p) s (underWay { started opImageFlash p bufs 1048576 [slot] q with pos := 1, units := 1 }
      { q with boot.lastSlot := some slot,
               out.flash := q.out.flash ++ [(slot * 8388608, memReadN q.boot.staging 0 (min 65536 (imgSize (stagedHeader q))))] }))
  ∧ (∀ p s bufs q, Admitted opImageFlash p s bufs q → imageBusy q = false → q.boot.accepted = none →
    Goes (.imageFlash p) s (answer opImageFlash p bufs (outErrAt stNOTFOUND 0) q))
  ∧ (∀ p s bufs q, Admitted opImageFuse p s bufs q → imgEpoch (runHeader q) ≤ q.boot.fuses →
    q.boot.revoke ||| fuseRevokes q = q.boot.revoke →
    Goes (.imageFuse p) s (answer opImageFuse p bufs (outOk q.boot.fuses) q))
  ∧ (∀ p s bufs q, Admitted opImageFuse p s bufs q → q.boot.fuses < imgEpoch (runHeader q) →
    let goal := imgEpoch (runHeader q)
    let d := openDraw 23 q
    let part := q.boot.fuses + bitsOf d.toNat 8 16 % (goal - q.boot.fuses + 1)
    let some_ := q.boot.revoke ||| (fuseRevokes q &&& BitVec.ofNat 4 (bitsOf d.toNat 32 4))
    Goes (.imageFuse p) s
      (if d.getLsbD 0 = true then answer opImageFuse p bufs (outErrAt stFAULTED part)
        (raiseFault fkOTP_ECC_UNCORR (bitsOf d.toNat 40 12)
          { q with draws := q.draws + 1, boot.fuses := part, boot.revoke := some_ })
       else answer opImageFuse p bufs (outOk goal)
        { q with draws := q.draws + 1, boot.fuses := goal, boot.revoke := q.boot.revoke ||| fuseRevokes q }))
  ∧ (∀ p s bufs q, Admitted opCertRead p s bufs q →
    let o := if shake256 (certBytes 0) = Config.otpDigest 5 then outData 2 (certPart 0 ++ certPart 1)
      else outErr stFAULTED
    Fits p o → Goes (.certRead p) s (answer opCertRead p bufs o q))

/-- Counter and Monarch commands (R437, R442, R444, Table 19.6): PERF_READ returns the latched counts, and with CLEAR starts those
counters again; MON_RING_SET enables a disabled ring or disables it, BUSY on an enabled one; MON_STATS_READ returns its
counters. -/
def Obligations.CounterCommandsComplete : Prop :=
  (∀ p s bufs q, Admitted opPerfRead p s bufs q →
    let ids := (List.range (par p 18 2)).map (fun i => par p 16 2 + i)
    let one := fun c => leBytes 8 (perfOf q c).latch.toNat
      ++ [byteN (b2n (perfOf q c).latchOvf + 2 * b2n (perfOf q c).bad + 4 * b2n (perfOf q c).latchHit), 0]
      ++ leBytes 2 ((perfOf q c).oldEvent.getD (fv q 15 1 c 0 16)) ++ zerosB 4
    let o := outData (par p 18 2) ((ids.map one).flatten)
    let cleared := (q.perf.counters.map (fun e => if ids.contains e.1 then (e.1, perfClear e.2) else e)).filter
      (fun e => decide (e.2 ≠ perfCounterReset))
    Fits p o → Goes (.perfRead p) s (answer opPerfRead p bufs o
      (if par p 20 1 = 1 then { q with perf.counters := cleared } else q)))
  ∧ (∀ p s bufs q r, Admitted opMonRingSet p s bufs q → ringSet p q.perf.ring = some r →
    Goes (.monRingSet p) s (answer opMonRingSet p bufs (outOk 0) { q with perf.ring := r }))
  ∧ (∀ p s bufs q, Admitted opMonRingSet p s bufs q → ringSet p q.perf.ring = none →
    Goes (.monRingSet p) s (answer opMonRingSet p bufs (outErr stBUSY) q))
  ∧ (∀ p s bufs q, Admitted opMonStatsRead p s bufs q →
    let o := outData 64 (([q.perf.tagged, q.perf.skipped, q.perf.storeFull, q.perf.monLost, q.perf.delivered].map
      (fun c => leBytes 8 c.toNat)).flatten ++ zerosB 24)
    Fits p o → Goes (.monStatsRead p) s (answer opMonStatsRead p bufs o q))

/-! ### Events complete -/

/-- Doorbells and ring control (R63 to R66, Tables 3.3 and 3.4): a tail or head in the ring's range is taken, any other is ignored and
counted in DBERR (saturating); ENABLE and DISABLE change the ring as R63 and R66 say; DBERR_READ returns and clears the count.
-/
def Obligations.DoorbellEventsComplete : Prop :=
  (∀ n v s, bitsOf (BitVec.toNat v) 0 16 < ringSize (ringOf s n.val).size →
    Goes (.cmdDoorbell n v) s (modRing n.val (fun _ => { ringOf s n.val with tail := bitsOf v.toNat 0 16 }) s))
  ∧ (∀ n v s, ringSize (ringOf s n.val).size ≤ bitsOf (BitVec.toNat v) 0 16 →
    Goes (.cmdDoorbell n v) s (modRing n.val (fun _ => bumpDberr (ringOf s n.val)) s))
  ∧ (∀ n v s, domainOn s 61 = true → bitsOf (BitVec.toNat v) 0 16 < ringSize (ringOf s n.val).cqSize →
    Goes (.cqHeadWrite n v) s (modRing n.val (fun _ => { ringOf s n.val with cqHead := bitsOf v.toNat 0 16 }) s))
  ∧ (∀ n v s, domainOn s 61 = true → ringSize (ringOf s n.val).cqSize ≤ bitsOf (BitVec.toNat v) 0 16 →
    Goes (.cqHeadWrite n v) s (modRing n.val (fun _ => bumpDberr (ringOf s n.val)) s))
  ∧ (∀ n s, domainOn s 61 = true → (ringOf s n.val).enable = false → (ringOf s n.val).state = .idle →
    let ok := sizeOk (ringOf s n.val).size && sizeOk (ringOf s n.val).cqSize
    let r : Ring := { ringOf s n.val with
      enable := true, head := 0, tail := 0, cqHead := 0, cqTail := 0, promised := 0, waiting := [], inFetch := []
      fenced := false, state := if ok then .running else .halted, cause := if ok then 0 else 1 }
    Goes (.ringEnable n) s (modRing n.val (fun _ => r) s))
  ∧ (∀ n s, domainOn s 61 = true → (ringOf s n.val).enable = true → 0 < (ringOf s n.val).promised →
    Goes (.ringDisable n) s (modRing n.val (fun _ => { ringOf s n.val with enable := false, state := .draining }) s))
  ∧ (∀ n s, domainOn s 61 = true → (ringOf s n.val).enable = true → (ringOf s n.val).promised = 0 → (ringOf s n.val).waiting = [] →
    (ringOf s n.val).inFetch = [] →
    Goes (.ringDisable n) s (modRing n.val (fun _ => { ringOf s n.val with enable := false, state := .idle }) s))
  ∧ (∀ n s, Goes (.dberrRead n) s (modRing n.val (fun r => { r with dberr := 0 })
      { s with out.lastRead := (ringOf s n.val).dberr.setWidth 64 }))

/-- Direct registers (R62, R446, R449, R450, R453, R454, Table 20.2): an aligned write of whole words reaches its register, an
8-byte one in ascending order; FAULT_HEAD drops the records up to its value; MAC_STICKY clears the bits written as 1; the
three reads return their value and clear or latch what they should; PERF_VAL_LO reads as zero while domain 63 is off. A read
of GLB_DEVICE_ID returns 0x1280 and the order code; the write-only GLB_BOOT_GO and the doorbell page read zero (R3, R5). -/
def Obligations.DirectRegisterEventsComplete : Prop :=
  (∀ bar2 off data s, s.boot.sysRst = true → BitVec.toNat off % 4 = 0 →
    Goes (.registerWrite bar2 off false true data) s (writeWord bar2 off.toNat (BitVec.toNat data % 2 ^ 32) s))
  ∧ (∀ bar2 off data s, s.boot.sysRst = true → BitVec.toNat off % 8 = 0 →
    Goes (.registerWrite bar2 off true true data) s
      (writeWord bar2 (off.toNat + 4) (BitVec.toNat data / 2 ^ 32) (writeWord bar2 off.toNat (data.toNat % 2 ^ 32) s)))
  ∧ (∀ bar2 off wide data s, Goes (.registerWrite bar2 off wide false data) s s)
  ∧ (∀ v s, let n := (BitVec.ofNat 13 (BitVec.toNat v) - s.lod.headCount).toNat
    n ≤ (s.lod.tailCount - s.lod.headCount).toNat → Goes (.faultHeadWrite v) s (dropRecords n s))
  ∧ (∀ v s, let n := (BitVec.ofNat 13 (BitVec.toNat v) - s.lod.headCount).toNat
    (s.lod.tailCount - s.lod.headCount).toNat < n →
    Goes (.faultHeadWrite v) s
      { s with lod.headRefused := if s.lod.headRefused = 0xFFFF then 0xFFFF else s.lod.headRefused + 1 })
  ∧ (∀ lane v s, isPort s lane.val = true → domainOn s (56 + lane.val / 32) = true →
    Goes (.macStickyClear lane v) s
      (modPort lane.val (fun k => { k with sticky := k.sticky &&& ~~~(BitVec.ofNat 6 (BitVec.toNat v)) }) s))
  ∧ (∀ lane v s, isPort s lane.val = false → Goes (.macStickyClear lane v) s s)
  ∧ (∀ s, Goes .stepCountRead s { s with out.lastRead := s.mer.stepCount.setWidth 64, mer.stepCount := 0 })
  ∧ (∀ s, Goes .wrapTaiLoRead s
      { s with out.lastRead := BitVec.ofNat 64 (s.mer.wrapTai.toNat % 2 ^ 32),
               mer.wrapTaiHiLatch := BitVec.ofNat 32 (s.mer.wrapTai.toNat / 2 ^ 32) })
  ∧ (∀ c s, let v := if domainOn s 63 then (perfLive s (BitVec.toNat c)).toNat else 0
    Goes (.perfValLoRead c) s
      { s with
        out.lastRead := BitVec.ofNat 64 (v % 2 ^ 32)
        perf.counters := kmod perfCounterReset s.perf.counters c.toNat
          (fun k => { k with hiLatch := BitVec.ofNat 32 (v / 2 ^ 32) }) })
  ∧ (∀ s, regRead false 0 false s = some (BitVec.ofNat 64 ((0x1280 + orderCode s * 2 ^ 16) % 2 ^ 32))
    ∧ regRead false 0x20 false s = some 0)
  ∧ (∀ off s, BitVec.toNat off % 4 = 0 → off.toNat < 0x8000 → regRead true off false s = some 0)

/-- How commands and resets come over PCI Express and in band (R65 to R68, R82 to R87): CMD_FETCH reads a burst of the next
ring of the rotation that has something ready; CMD_FETCH_DONE hands the entries of the oldest burst to the checks, or halts
the ring; a function-level or link reset returns the rings to reset; PCIE_LINK_UP trains the link unless PERST_N is low. -/
def Obligations.HostInterfaceEventsComplete : Prop :=
  (∀ s i, fetching s = true →
    ((List.range 6).map (fun i => (s.host.rot + i) % 6)).find? (fun i => fetchable s (rotation.getD i 0) != 0) = some i →
    let n := rotation.getD i 0
    let k := fetchable s n
    let idx := (ringOf s n).head
    let t := modRing n (fun r => { r with
      head := (r.head + k) % ringSize r.size, promised := r.promised + k, inFetch := r.inFetch ++ [(idx, k)] }) s
    Goes .cmdFetch s
      { t with host.fetchedThisFix := s.host.fetchedThisFix + k, host.rot := (i + 1) % 6,
               out.fetches := s.out.fetches ++ [(n, idx, k, (ringOf s n).base + BitVec.ofNat 64 (64 * idx))] })
  ∧ (∀ n cs s idx k rest, (ringOf s n.val).inFetch = (idx, k) :: rest → cs.length = k →
    let t := modRing n.val (fun r => { r with inFetch := rest, waiting := r.waiting ++ cs.map (parseEntry n) }) s
    Goes (.cmdFetchDone n (.entries cs)) s (drainRing n.val (ringOf t n.val).waiting.length t))
  ∧ (∀ n why s idx k rest, (ringOf s n.val).inFetch = (idx, k) :: rest → (ringOf s n.val).state = .running →
    let t := modRing n.val (fun _ => { ringOf s n.val with
      inFetch := rest, promised := (ringOf s n.val).promised - k, cause := 2, state := .halted }) s
    Goes (.cmdFetchDone n (.failed why)) s (raiseFault fkFETCH_ERR n.val (aerReport why (modRing n.val ringSettle t))))
  ∧ (∀ s, Goes .functionLevelReset s (raiseFault fkFLR 0 (hostReset s)))
  ∧ (∀ kind s, s.boot.sysRst = true → kind ≠ 0 →
    Goes (.pcieLinkReset kind) s (raiseFault fkFLR 0
      (hostReset { s with host.linkUp := false, host.inReset := true, host.linkGen := 1, host.linkWidth := 1,
                          host.pcie := pcieSpaceReset })))
  ∧ (∀ s, s.boot.sysRst = true →
    Goes (.pcieLinkReset 0) s (raiseFault fkFLR 0 (hostReset
      { s with host.perst := true, host.linkUp := false, host.inReset := true, host.linkGen := 1, host.linkWidth := 1,
               host.pcie := pcieSpaceReset })))
  ∧ (∀ gen width s, s.boot.sysRst = true → s.host.perst = false →
    Goes (.pcieLinkUp gen width) s
      { s with host.linkUp := true, host.inReset := false, host.linkGen := gen.val + 1, host.linkWidth := 2 ^ width.val })
  ∧ (∀ port pk s k, pktOf s pk = some k → k.port = port.val → k.tail = .good → k.stage = .ingress → k.counted = false →
    ibMatch s k.rx = true → (freePkt pk k s).ctl.ibPorts.getLsbD port.val = true →
    Goes (.inbandFrameReceived port pk) s
      (ibEnvelope port (BitVec.ofNat 48 (beAt k.rx 6 6)) (k.rx.drop (ibTypeOff (freePkt pk k s) + 2)) (freePkt pk k s)))
  ∧ (∀ port pk s k, pktOf s pk = some k → k.port = port.val → k.tail = .good → k.stage = .ingress → k.counted = false →
    ibMatch s k.rx = true → (freePkt pk k s).ctl.ibPorts.getLsbD port.val = false →
    let t := freePkt pk k s
    Goes (.inbandFrameReceived port pk) s (modPort port.val (fun x => { x with cnt.rxInbandDrop := x.cnt.rxInbandDrop + 1 })
      { t with ctl.ibDropPort := t.ctl.ibDropPort + 1 }))

/-- The Fix timeline (R37, R40, R57, R59, R80): SAMPLE_CLOSE resolves the next boundary's sample; FIX_BOUNDARY does the work
of Table 2.2 (a sample that is still open is closed first: the model's choice, log entry 20), and ends at step 5 where a chip
reset has won; LEASE_EXPIRED ends the leases whose expiry has come, discards what was staged under them and sends their
messages; MULTI_FIX_TIMEOUT completes what has passed its limit with TIMEOUT and the units done, and frees its slots;
BINNACLE_READY opens command service once the microcode is loaded. -/
def Obligations.TimelineEventsComplete : Prop :=
  (∀ env s, s.boot.sysRst = true →
    let u := flrStep (if s.ctl.closed = true then s else closeSample s)
    let v := boundarySwitch env u
    Goes (.fixBoundary env) s (if u.ctl.ready = true ∧ v.ctl.ready = false then v else boundaryRest env v))
  ∧ (∀ s, s.boot.sysRst = true → s.ctl.closed = false →
    let t := closeSample (atNs 896 s)
    Goes .sampleClose s t ∧ t.ctl.closed = true ∧ Apart t.ctl.claimed)
  ∧ (∀ s, let b := if 896 ≤ s.clock.sub.toNat then (fixN s + 1) % 2 ^ 22 else fixN s
    let late := s.ctl.leases.filter (leaseOver b)
    ∃ t, Goes .leaseExpired s t
      ∧ t = { s with ctl.leases := t.ctl.leases, ctl.staging := t.ctl.staging, lod.wire := t.lod.wire }
      ∧ (∀ l, l ∈ t.ctl.leases ↔ l ∈ s.ctl.leases ∧ ∀ x ∈ late, ¬(l.owner = x.owner ∧ l.group = x.group))
      ∧ (∀ e, e ∈ t.ctl.staging ↔ e ∈ s.ctl.staging ∧ ∀ x ∈ late, ¬(e.owner = x.owner ∧ e.lease = some x.group))
      ∧ t.lod.wire = s.lod.wire ++ late.map (fun x => mkFault fkLEASE_EXPIRED x.group [] []))
  ∧ (∀ s, let late := s.ctl.multi.filter (fun m => decide (m.limit < m.count))
    let t := flushCpls (late.foldl
      (fun s m => endMulti m { status := stTIMEOUT, winRank := 0, result := m.units, data := [] } m.lastFix s) s)
    Goes .multiFixTimeout s t
      ∧ t.ctl.multi = s.ctl.multi.filter (fun m => !late.any (fun x => x.slot == m.slot)))
  ∧ (∀ s, s.boot.stage = 6 → s.boot.sysRst = true → s.boot.ucDone = true →
    Goes .binnacleReady s { s with boot.stage := 7, ctl.ready := true, ctl.queue := [] })
  ∧ (∀ s, Goes .binnacleRestartDone s { s with ctl.restarting := false })

/-- Ports (R96, R97, R99, R100, Table 4.3): link loss in UP or DOWN_PEND, the two hold times, the steps on the way to UP, and
pause frames and timers. The times are counted in nanoseconds since reset (log entry 30). -/
def Obligations.PortEventsComplete : Prop :=
  (∀ port ns kind s, isPort (atNs ns s) port.val = true → (portOf (atNs ns s) port.val).st = .up →
    let u := atNs ns s
    Goes (.linkLoss port ns kind) s (truncateRx port.val (loseTx port.val (modPort port.val
      (fun k => { k with st := .downPend, loss := true, since := monoNs u, holdDone := false }) (lossMark port.val kind u)))))
  ∧ (∀ port ns s, (portOf (atNs ns s) port.val).st = .downPend → downHeld (atNs ns s) port.val = true →
    Goes (.downHoldExpire port ns) s (modPort port.val (fun k => { k with holdDone := true }) (atNs ns s)))
  ∧ (∀ port ns s, (portOf (atNs ns s) port.val).st = .align → upHeld (atNs ns s) port.val = true →
    Goes (.upHoldExpire port ns) s (modPort port.val (fun k => { k with holdDone := true }) (atNs ns s)))
  ∧ (∀ port s, isPort s port.val = true → serdesOn s port.val = true → (portOf s port.val).st = .negotiate →
    Goes (.negotiateDone port) s
      (modPort port.val (fun k => { k with st := if fv s 1 5 port.val 1 1 = 1 then .train else .align }) s))
  ∧ (∀ port s, isPort s port.val = true → serdesOn s port.val = true → (portOf s port.val).st = .train →
    Goes (.trainDone port) s (modPort port.val (fun k => { k with st := .align, aligned := false }) s))
  ∧ (∀ port s, isPort s port.val = true → (portOf s port.val).st = .train →
    Goes (.trainFail port) s (portRestart port.val s))
  ∧ (∀ port ns kind s, isPort (atNs ns s) port.val = true → (portOf (atNs ns s) port.val).st = .align →
    Goes (.alignLost port ns kind) s (portRestart port.val (lossMark port.val kind (atNs ns s))))
  ∧ (∀ port ns s, isPort (atNs ns s) port.val = true → clocked (atNs ns s) port.val = true →
    serdesOn (atNs ns s) port.val = true →
    (portOf (atNs ns s) port.val).st = .align → (portOf (atNs ns s) port.val).aligned = false →
    Goes (.alignmentAcquired port ns) s (modPort port.val (fun k => { k with
      aligned := true, since := monoNs (atNs ns s), holdDone := false, lane := 0xF, faultNow := 0 }) (atNs ns s)))
  ∧ (∀ port ns s, isPort (atNs ns s) port.val = true → clocked (atNs ns s) port.val = true →
    serdesOn (atNs ns s) port.val = true →
    (portOf (atNs ns s) port.val).st = .downPend →
    Goes (.alignmentAcquired port ns) s
      (modPort port.val (fun k => { k with loss := false, holdDone := false, lane := 0xF, faultNow := 0 }) (atNs ns s)))
  ∧ (∀ port ns vec times s, isPort (atNs ns s) port.val = true → (portOf (atNs ns s) port.val).st = .up →
    let u := modCnt port.val (fun c => { c with rxPause := c.rxPause + 1 }) (atNs ns s)
    pauseMode u port.val = 1 →
    Goes (.pauseFrameReceived port ns false vec times) s { u with ports := kmod portReset u.ports port.val (fun k =>
      setPause (List.range 8) (List.replicate 8 (times.getD 0 0)) u k port.val) })
  ∧ (∀ port prio ns s t, (portOf (atNs ns s) port.val).pauseEnd.getD prio.val none = some t → t ≤ monoNs (atNs ns s) →
    let u := atNs ns s
    Goes (.pauseTimerExpire port prio ns) s { u with ports := kmod portReset u.ports port.val (fun k =>
      { k with pauseEnd := setAt k.pauseEnd prio.val none }) })

/-- Meridian's PTP traffic and lock (R106 to R111, Table 5.3): a PTP message of the device's own domain is taken by the servo, or
in transparent-clock mode is marked for its residence time; messages are sent where PTP may send; losing Sync starts holdover,
and holdover ends after its limit. -/
def Obligations.PtpEventsComplete : Prop :=
  (∀ port pk servo s k o x, pktOf s pk = some k → k.port = port.val → isWhole k = true → k.tail = .good → k.stage = .ingress →
    ptpOurs s port.val k.rx = some (o, x) → fv s 11 1 0 1 2 = 3 →
    Goes (.ptpMessageReceived port pk servo) s (putPkt pk { k with ptp := ptpEvent k.rx o } s))
  ∧ (∀ port pk v s k o x, pktOf s pk = some k → k.port = port.val → isWhole k = true → k.tail = .good → k.stage = .ingress →
    ptpOurs s port.val k.rx = some (o, x) → fv s 11 1 0 1 2 ≠ 3 →
    Goes (.ptpMessageReceived port pk (some v)) s
      (if ptpServes s k.rx o = true then servoTake v (freePkt pk k s) else freePkt pk k s))
  ∧ (∀ port dst hdr msg s, ptpSends s port.val (ptpFrame s port.val dst hdr msg) = true →
    Goes (.ptpMessageSend port dst hdr msg) s (originate port.val (withFcs (ptpFrame s port.val dst hdr msg)) s))
  ∧ (∀ port dst hdr msg s x, s.mer.followUps.find? (fun e => e.1 == port.val) = some (port.val, x) →
    let u := { s with mer.followUps := s.mer.followUps.erase (port.val, x) }
    ptpSends u port.val (ptpFrame u port.val dst hdr msg) = true → isFollowUp (ptpFrame u port.val dst hdr msg) = true →
    Goes (.followUpSend port dst hdr msg) s (originate port.val (withFcs (ptpStamp x (ptpFrame u port.val dst hdr msg))) u))
  ∧ (∀ s, s.mer.sync = .locked → Goes .syncTimeout s (enterHoldover s))
  ∧ (∀ s, s.mer.sync = .acquire →
    Goes .syncTimeout s (enterFreerun s))
  ∧ (∀ s, s.mer.sync = .freerun ∨ s.mer.sync = .holdover →
    Goes .syncTimeout s { s with mer.masterSelected := false, mer.masterOffset := 0 })
  ∧ (∀ s, s.mer.sync = .holdover → fv s 11 3 0 0 16 * 1000000000 ≤ monoNs s - s.mer.holdoverStart →
    Goes .holdoverLimitExpire s (syncMsg fkHOLDOVER_END (ppsGate { s with mer.sync := .freerun })))

/-- Pins, the anchor and timed actions (R104, R114 to R125): the anchor is rewritten where it is due, with a message for each
step; PPS_OUT rises on a second and falls after its width; capture edges are stored where they are selected; the second of a
PPS input disciplines the clock; an armed slot fires with the verdict of its sample; pulse edges that are due are driven;
MINUTE_ARM plans the next minute action. -/
def Obligations.PinEventsComplete : Prop :=
  (∀ s, s.mer.anchorDue = true →
    Goes .anchorRewrite s (s.mer.stepsToReport.foldl (fun s k => raiseFault fkTIME_STEP (ofSigned 40 k) s)
      { s with
        mer.wrapTai := BitVec.ofNat 64 (s.clock.tai - fixN s * 1024)
        mer.wrapSeq := s.mer.wrapSeq + 1
        mer.anchorDue := false
        mer.stepsToReport := []
        mer.stepCount := BitVec.ofNat 32 (min 0xFFFFFFFF (s.mer.stepCount.toNat + s.mer.stepsToReport.length)) }))
  ∧ (∀ ns s, let u := atNs ns s
    fv u 11 4 0 0 1 = 1 → synced u = true → taiNs u % 1000000000 = 0 →
    Goes (.ppsOutRise ns) s { u with mer.ppsOut := true, mer.ppsRise := monoNs u })
  ∧ (∀ ns s, let u := atNs ns s
    u.mer.ppsOut = true → fv u 11 4 0 1 20 * 1000 ≤ monoNs u - u.mer.ppsRise →
    Goes (.ppsOutFall ns) s { u with mer.ppsOut := false })
  ∧ (∀ ch rising ns s, (fv (atNs ns s) 11 6 0 (2 * Fin.val ch) 2).testBit (if rising then 0 else 1) = true →
    Goes (.timeCapEdge ch rising ns) s (capture ch.val rising (atNs ns s)))
  ∧ (∀ ns addend s, fv (atNs ns s) 11 5 0 0 2 ≠ 0 →
    let u := { capture 2 true (atNs ns s) with mer.ppsLast := monoNs (atNs ns s) }
    Goes (.ppsInEdge ns addend) s
      (if ppsDiscipline u then setAddend addend (takeOffset (secondOffset u) (gainReference u)) else u))
  ∧ (∀ s, ppsDiscipline s = true → s.mer.sync = .locked → 2000000000 ≤ monoNs s - s.mer.ppsLast →
    Goes .ppsInMissing s (enterHoldover s))
  ∧ (∀ slot ns s ws t, let u := atNs ns s
    let n := Fin.val slot
    let late := fixSub (fixN u) ((slotOf u n).target.toNat / 1024)
    let e := perfEvent 0x0B01 5 0 n (kindNumber (slotOf u n).kind) 1 u
    (slotOf u n).armed = true → late < 2 ^ 21 → (slotOf u n).kind ≠ .minute → timedVerdict n e = ((.accepted, ws), t) →
    Goes (.timedActionFire slot ns) s (slotDone n stOK 0 late (timedEffect n late ws t)))
  ∧ (∀ slot ns s k ws t, let u := atNs ns s
    let n := Fin.val slot
    let late := fixSub (fixN u) ((slotOf u n).target.toNat / 1024)
    let e := perfEvent 0x0B01 5 0 n (kindNumber (slotOf u n).kind) 1 u
    (slotOf u n).armed = true → late < 2 ^ 21 → (slotOf u n).kind ≠ .minute → timedVerdict n e = ((.superseded k, ws), t) →
    Goes (.timedActionFire slot ns) s (slotDone n stSUPERSEDED k late t))
  ∧ (∀ slot ns s, let u := atNs ns s
    Goes (.timedPulseFall slot ns) s (driveEdges (fun e => e.slot == Fin.val slot && decide (e.time ≤ monoNs u)) u))
  ∧ (∀ s, s.ctl.ready = true → minuteInHand s = false → Goes .minuteArm s (planMinute s))

/-- Lodestar's events (R377, R379, R383, R389): a message arrives (the oldest that a block has sent, or a fault that hardware
finds, with the effect that its kind has in its block); a quiet period ends a state; a tenant's drain ends after 2^20 Fix. How
a presented fault gets its class is the model's reading (log entry 57). -/
def Obligations.FaultEventsComplete : Prop :=
  (∀ s w rest, s.boot.sysRst = true → s.lod.wire = w :: rest →
    Goes (.faultMessage none) s (arriveCounted w { s with lod.wire := rest }))
  ∧ (∀ m s c, s.boot.sysRst = true → kindClass (FaultMsg.source m).toNat m.kind.toNat = some c →
    let x := foundInjected { m with cls := Fin.ofNat 4 c, injected := false } s
    Goes (.faultMessage (some m)) s (arriveCounted x.1 (faultEffect x.1 x.2)))
  ∧ (∀ src cls s, Goes (.quietPeriodEnd src cls) s (engineReturn (quietEnd src cls s)))
  ∧ (∀ tenant s d, kfind s.lod.drains (BitVec.toNat tenant) = some d → 1048576 ≤ fixSub (fixN s) d.fix.toNat →
    let hit := fun (q : Nat) (c : Copy) =>
      (match queuePort s q with
       | some p => d.mask.getLsbD p
       | none => false) && admittedBefore d.fix c
        && (match pktOf s c.pkt with
            | some k => pget k bTENANT == tenant.toNat
            | none => false)
    let qs := s.sw.queues.map (fun (e : Nat × QueueState) => (e.1, { e.2 with
      copies := e.2.copies.map (fun c => if hit e.1 c then { c with expired := true } else c) }))
    Goes (.tenantDrainEnd tenant) s
      (qs.foldl (fun s e => purgeHead e.1 e.2.copies.length s)
        { s with sw.queues := qs, lod.drains := kdel s.lod.drains tenant.toNat }))

/-- Power events (R405 to R409): the ends of an entry and of an exit, a domain's failure, clock gates, and HBM self refresh in
Cocoon. -/
def Obligations.PowerEventsComplete : Prop :=
  (∀ s t, s.pwr.transit = some t → t.entry = true →
    let u := sliceGated 3 (sliceGated 2 (sliceGated 1 (sliceGated 0 (stashFlush (cacheFlush s)))))
    let v := if t.state = .cocoon then allSelfRefresh (bufferLose u) else u
    Goes .powerEntryDone s { v with pwr.on := v.pwr.on &&& ~~~domMask (sleepOff s t.state), pwr.transit := none })
  ∧ (∀ s t, s.pwr.transit = some t → t.entry = false → exitOver s t = true →
    let v := if t.state = .cocoon then quickRetrainAll s else s
    let u := gainAll (awakeOn v) v
    Goes .powerExitDone s
      { u with pwr.st := .flight, pwr.transit := none, pair.replaying := !u.pair.journal.isEmpty })
  ∧ (∀ d s, Goes (.domainPowerFail d) s (domainLose (Fin.val d)
      (raiseFault fkDOMAIN_FAIL d.val { s with pwr.failed := s.pwr.failed ||| domMask [d.val] })))
  ∧ (∀ d s, s.pwr.st = .basking → s.pwr.on.getLsbD (Fin.val d) = true →
    Goes (.clockGate d) s { s with pwr.gated := s.pwr.gated ||| domMask [d.val] })
  ∧ (∀ d s, Goes (.clockUngate d) s { s with pwr.gated := s.pwr.gated &&& ~~~domMask [Fin.val d] })
  ∧ (∀ pc s, s.pwr.st = .cocoon → ((pcOf s (Fin.val pc)).mode = .ready ∨ (pcOf s pc.val).mode = .powerDown) →
    pcIdle (pcOf s pc.val) = true →
    Goes (.srIdleEnter pc) s (modPc pc.val (fun c => { c with mode := .selfRefresh, banks := [] }) s))

/-- Reset pins and start-up (R414 to R423, R463 to R465): each event of the start-up sequence has its effect at its stage, and
the reset pins and straps act as chapter 21 says. -/
def Obligations.StartupEventsComplete : Prop :=
  (∀ s, s.boot.aonUp = false →
    Goes .powerOn s (aonClear { chipReset 0 0 s with boot.aonUp := true, boot.sysRst := false }))
  ∧ (∀ s, Goes .vddAonLoss s (aonClear { chipReset 0 0 s with boot.aonUp := false, boot.sysRst := false }))
  ∧ (∀ s, s.boot.sysRst = true → Goes .sysRstAssert s { chipReset 1 0 s with boot.sysRst := false })
  ∧ (∀ src ftest pp s, s.boot.aonUp = true → s.boot.sysRst = false →
    Goes (.sysRstRelease src ftest pp) s
      { s with
        boot.sysRst := true, boot.bootSrc := src, boot.ftest := ftest, boot.pairPresent := pp
        boot.cause := if s.boot.fresh then 0 else 1
        boot.fresh := false, lod.ftest := ftest
        pair.latch := rhAfterReset pp s.pair.epoch
        pair.st := if pp then .down else .solo
        pair.roles := if pp then 0 else 3 })
  ∧ (∀ s, Goes .perstNRelease s { s with host.perst := false })
  ∧ (∀ s, starting 0 s = true → s.lod.grave = false → s.boot.bootSrc = 1 →
    Goes (.bootRomTestDone none true none) s { s with boot.stage := 1 })
  ∧ (∀ s, starting 0 s = true → s.lod.grave = false → s.boot.bootSrc ≠ 1 → s.boot.bootSrc ≠ 3 →
    Goes (.bootRomTestDone none true none) s { s with boot.stage := 2 })
  ∧ (∀ s w k r, starting 0 s = true →
    Goes (.bootRomTestDone (some w) k r) s (raiseFault fkOTP_ECC_UNCORR (BitVec.toNat w) (haltBoot 0x10 s)))
  ∧ (∀ s, s.boot.sysRst = true → s.boot.stage = 1 → 4096 ≤ s.boot.bootLen.toNat → s.boot.bootLen.toNat ≤ 8388608 →
    Goes .bootGo s { s with boot.source := 2, boot.cand := none, boot.nextSlot := none, boot.pushHalt := false, boot.stage := 2 })
  ∧ (∀ h b s, starting 2 s = true → s.boot.cand = none → s.boot.source = 2 → headerFault s (padTo 512 h) = none →
    Goes (.imageHeadersRead (some h) b) s { s with boot.cand := some (2, padTo 512 h) })
  ∧ (∀ a b x u t s, starting 2 s = true → s.boot.cand = none → s.boot.source ≠ 2 → takeHeader 0 a s = (some x, u) →
    takeHeader 1 b u = (none, t) →
    Goes (.imageHeadersRead a b) s { t with boot.cand := some x, boot.source := 0 })
  ∧ (∀ a b u t s, starting 2 s = true → s.boot.cand = none → s.boot.source ≠ 2 → takeHeader 0 a s = (none, u) →
    takeHeader 1 b u = (none, t) → Goes (.imageHeadersRead a b) s (flashExhausted t))
  ∧ (∀ b s src h, starting 2 s = true → s.boot.cand = some (src, h) →
    Goes (.imageBodyReadDone (some b)) s (match bodyCheck src h b with
      | .error r => bodyRejected src r s
      | .ok img => { s with boot.cand := none, boot.nextSlot := none, boot.running := some img, boot.stage := 4,
                            skip.ucRun := img.microcode }))
  ∧ (∀ s src h, starting 2 s = true → s.boot.cand = some (src, h) →
    Goes (.imageBodyReadDone none) s (bodyRejected src 0x01 s))
  ∧ (∀ s, starting 4 s = true → Goes .binnacleStarted s { s with boot.stage := 5 })
  ∧ (∀ s, starting 5 s = true →
    let a := objWrite (oid 3 1 0) ((Config.random (s.draws + 2)).toNat % 2 ^ 32) s
    let u := objWrite (oid 3 2 0) ((Config.random (a.draws + 3)).toNat % 2 ^ 32) a
    Goes (.startupHbmDone []) s (loadAll { u with
      draws := u.draws + 2
      hbm.mem := u.hbm.mem.filter (fun c => decide (2 ^ 40 ≤ c.1))
      flow.ageNow := BitVec.ofNat 32 (u.clock.tai / 2 ^ 20)
      pair.homeSince := [u.clock.tai / 2 ^ 20 % 2 ^ 32, u.clock.tai / 2 ^ 20 % 2 ^ 32]
      boot.stage := 6 }))
  ∧ (∀ d ds s, starting 5 s = true →
    Goes (.startupHbmDone (d :: ds)) s (haltBoot 0x10 ((d :: ds).foldl (fun s p =>
      raiseFault fkHBM_PC_DEAD (eccAddr { pc := Fin.val p, o := 0 }) (modPc p.val (fun c => { c with mode := .dead }) s)) s)))
  ∧ (∀ s, starting 6 s = true → s.skip.clusters.all (fun e => e.2.testing.isEmpty) = true →
    Goes .startupUcodeDone s { s with boot.ucDone := true })

/-- Reference clocks and the JTAG port (R467, R468): the ports of a lost clock lose alignment, and those of a restored clock
on their way to UP start again; BYPASS, IDCODE and SAMPLE/PRELOAD load their registers; EXTEST, CLAMP and HIGHZ drive the pins
while HALTED with reason STRAP, and act as BYPASS elsewhere. The instruction codes are the model's, log entry 68. -/
def Obligations.ClockAndJtagEventsComplete : Prop :=
  (∀ clk ns s,
    let u := (clockPorts clk).foldl (fun s p => doAlignLost (Fin.ofNat 128 p) ns 0 (doLinkLoss (Fin.ofNat 128 p) ns 0 s))
      { atNs ns s with boot.refclk := s.boot.refclk &&& ~~~(1#2 <<< Fin.val clk) }
    Goes (.refclkSdsLoss clk ns) s (if clk = 1 then { doRhAlignLost u with pair.lanes := 0 } else u))
  ∧ (∀ (clk : Fin 2) s, Goes (.refclkSdsRestored clk) s ((clockPorts clk).foldl (fun s p =>
      if isPort s p && ((portOf s p).st == .negotiate || (portOf s p).st == .train || (portOf s p).st == .align) then
        portRestart p s
      else s)
      { s with boot.refclk := s.boot.refclk ||| (1 <<< clk.val) }))
  ∧ (∀ s, Goes .bypass s { s with boot.jtag := 0xFF, boot.jtagPins := .normal })
  ∧ (∀ s, Goes .idcode s { s with boot.idcode := idcodeWord, boot.jtag := 2, boot.jtagPins := .normal })
  ∧ idcodeWord = Config.dieRev.setWidth 4 ++ (0x1280#16 ++ (Config.jedecCode ++ 1#1))
  ∧ (∀ bits s, Goes (.samplePreload bits) s { s with boot.bsr := bits, boot.jtag := 1, boot.jtagPins := .normal })
  ∧ (∀ s, s.boot.stage = 8 → s.boot.reason = 0x12 →
    Goes .extest s { s with boot.jtag := 0, boot.jtagPins := .driven }
    ∧ Goes .clamp s { s with boot.jtag := 3, boot.jtagPins := .held }
    ∧ Goes .highz s { s with boot.jtag := 4, boot.jtagPins := .tristate })
  ∧ (∀ s, ¬(s.boot.stage = 8 ∧ s.boot.reason = 0x12) →
    let t := { s with boot.jtag := 0xFF, boot.jtagPins := .normal }
    Goes .extest s t ∧ Goes .clamp s t ∧ Goes .highz s t)

/-- The pipelines (R129 to R145, R150, R199): a frame's parsing starts with the generation of its ingress; a
recirculated packet starts its next pass; the answer of the lookup, or the decision for a held packet, takes the packet on; a
packet leaves stage 12 to the traffic manager, to a discard or to recirculation; a swap that drains too long is reported. -/
def Obligations.PipelineEventsComplete : Prop :=
  (∀ h bad lane s k, pktOf s h = some k → k.stage = .ingress → k.counted = false → (isWhole k = true ∨ 2048 ≤ k.rx.length) →
    ((k.tail = .open ∨ k.tail = .good) → toBinnacle s k.port k.rx = false) → (pipeState s (pipeOf k.port)).hold6 = none →
    fv s 15 0x20 (pipeOf k.port) 0 1 = 0 →
    let gen := b2n s.cls.activeGen
    let u := { s with cls.genCount := modAt s.cls.genCount gen (fun n => n + 1) }
    let r := runPass h 0 bad lane { pset bGEN gen k with counted := true } u
    Goes (.parseStart h bad lane) s (stage6Pass h (putPkt h r.1 r.2)))
  ∧ (∀ pipe bad lane s h rest k, (pipeState s (Fin.val pipe)).recirc = h :: rest → pktOf s h = some k → k.stage = .recirc →
    (pipeState s pipe.val).hold6 = none →
    let v := k.bufs.foldl (fun s r => poolRelease r s) (modPipe pipe.val (fun p => { p with recirc := rest }) s)
    let inner := if pget k bDECAP = 1 then k.lvl2 else none
    let start := (inner.map (fun x => x.2)).getD 0
    let off := (inner.map (fun x => x.1)).getD 0
    let ans := k.ans.map (fun a => { a with level := levelShift off a.level })
    let k' := { k with bus := nextPassBus k, tx := k.tx.drop off, bufs := [], stage := PktStage.ingress, ans := ans }
    let r := runPass h start bad lane k' v
    Goes (.recircPassStart pipe bad lane) s (stage6Pass h (putPkt h r.1 r.2)))
  ∧ (∀ pk bad s k, pktOf s pk = some k → k.stage = .answered → k.wasHeld = false →
    Goes (.lookupAnswer pk bad) s (resume pk bad k (monPoint pk 3 k s)))
  ∧ (∀ pk bad s k, pktOf s pk = some k → k.stage = .answered → k.wasHeld = true →
    (pipeState s (pipeOf k.port)).recirc.head? = some pk → (pipeState s (pipeOf k.port)).hold6 = none →
    let u := k.bufs.foldl (fun s r => poolRelease r s)
      (modPipe (pipeOf k.port) (fun p => { p with recirc := p.recirc.drop 1 }) s)
    Goes (.decideReenter pk bad) s (resume pk bad { k with bufs := [], passCfg := pipeCfg u } (monPoint pk 7 k u)))
  ∧ (∀ h ns s k, pktOf (atNs ns s) h = some k → k.stage = .stage12 →
    let u := monPoint h 4 k (atNs ns s)
    pget k bRECIRC = 1 → pget k bDROP = 0 → pget k bPASS + 1 < fv (passView k u) 2 1 (pipeOf k.port) 0 3 →
    Goes (.stage12Exit h ns) s (recirculate h k u))
  ∧ (∀ h ns s k, pktOf (atNs ns s) h = some k → k.stage = .stage12 →
    let u := monPoint h 4 k (atNs ns s)
    let loops := pget k bRECIRC = 1 ∧ pget k bDROP = 0
    (loops → fv (passView k u) 2 1 (pipeOf k.port) 0 3 ≤ pget k bPASS + 1) →
    let k' := if k.wasHeld = true then k else { k with epoch := none }
    let v := uncount k' (if k.wasHeld = true then u else epochLeave k u)
    let m := ingMeter { k' with counted := false } v
    let w := putPkt h m.1 m.2
    Goes (.stage12Exit h ns) s (if pget m.1 bDROP = 1 then
        discardEnd h m.1 (pget m.1 bDROP_REASON) (countReason (pipeOf k.port) (pget m.1 bDROP_REASON) w)
      else if loops then discardEnd h m.1 0x81 (countReason (pipeOf k.port) 0x81 w)
      else lastExit h m.1 w))
  ∧ (∀ s w, s.cls.swap = some w → w.count ≠ 0 → w.count % 65536 = 0 →
    Goes .genDrainStuck s (raiseFault fkGEN_DRAIN_STUCK (s.cls.genCount.getD (b2n (!s.cls.activeGen)) 0) s))

/-- The flow engine (R161, R162, R168 to R182): a lookup that finds its record near answers as a hit, one that finds a guard of its key
chains behind it, and one that finds neither opens a guard; the bucket's return serves the guard's packets in order; and the
background work of the cleaner, the mover, the scanner, the EXILED counters and the lock table. -/
def Obligations.FlowEventsComplete : Prop :=
  (∀ pk lane s sl pipe k l, lookupServed s pk = some (sl, pipe) → pktOf s pk = some k → lookupLevel k = some l →
    sliceAccepts s sl = true →
    let key := pktKey k l
    s.flow.guards.any (fun g => g.key == key) = true → waitingOf s (pipeOf k.port) < 4096 →
    let u := putPkt pk { k with stage := .chained } (flowCount sl 0 1 s)
    Goes (.flowLookup pk lane) s (servedOut sl pipe { u with
      flow.guards := u.flow.guards.map (fun g => if g.key = key then { g with pkts := g.pkts ++ [pk] } else g) }))
  ∧ (∀ pk lane s sl pipe k l h r, lookupServed s pk = some (sl, pipe) → pktOf s pk = some k → lookupLevel k = some l →
    sliceAccepts s sl = true →
    let key := pktKey k l
    s.flow.guards.any (fun g => g.key == key) = false →
    let t := touchWords sl key (flowCount sl 0 1 s)
    t.1 = false →
    findKey key (stashRecs t.2 sl ++ (setRecs t.2 sl (keySet t.2 key)).map (fun e => (e.1, e.2.bytes))) = some (h, r) →
    Goes (.flowLookup pk lane) s (servedOut sl pipe
      (hitPkt pk h 1 sl key (lane && domainOn s (4 + pipeOf k.port)) l k (flowCount sl 1 1 t.2))))
  ∧ (∀ pk lane s sl pipe k l, lookupServed s pk = some (sl, pipe) → pktOf s pk = some k → lookupLevel k = some l →
    sliceAccepts s sl = true →
    let key := pktKey k l
    s.flow.guards.any (fun g => g.key == key) = false → waitingOf s (pipeOf k.port) < 4096 →
    let t := touchWords sl key (flowCount sl 0 1 s)
    t.1 = false →
    findKey key (stashRecs t.2 sl ++ (setRecs t.2 sl (keySet t.2 key)).map (fun e => (e.1, e.2.bytes))) = none →
    Goes (.flowLookup pk lane) s (servedOut sl pipe (openGuard pk sl key k t.2)))
  ∧ (∀ pk bad lane s g faulted, s.flow.guards.find? (fun g => g.pkts.head? == some pk) = some g → g.back = some faulted →
    let u := { s with flow.guards := s.flow.guards.filter (fun x => x.key != g.key) }
    let serve := fun (s : State) => match bucketChecks g.bucket g.key (if faulted = true then 3 else bad) s with
      | (some unit, _, s) =>
        let h := mkHandle g.bucket unit
        g.pkts.foldl (fun s pk => match pktOf s pk with
          | some k => sliceDrop pk g.slice ((lookupLevel k).getD levelReset) k s
          | none => s) (refuseUnit h (raiseFault fkREC_CRC h (flowCount g.slice 12 g.pkts.length s)))
      | (none, inst, s) =>
        g.pkts.tail.foldl (fun s h => serveMiss h g.slice inst false lane s)
          ((g.pkts.head?.map (fun h => serveMiss h g.slice inst true lane s)).getD s)
    Goes (.flowBucketReturn pk bad lane) s (stage6Resumes
      (if chosenBucket u g.key = g.bucket then sliceWritten g.slice true g.bucket serve u
       else sliceWritten g.slice false (chosenBucket u g.key) (sliceWritten g.slice true g.bucket serve) u)))
  ∧ (∀ sl s, (sliceOf s (Fin.val sl)).cleanList.dropWhile
      (fun set => decide (fv s 3 6 sl.val 0 4 ≤ cleanWays s sl.val set)) = [] →
    Goes (.cacheCleanerWriteback sl) s (modSlice sl.val (fun k => { k with cleanList := [] }) s))
  ∧ (∀ sl s set rest h, (sliceOf s (Fin.val sl)).cleanList.dropWhile
      (fun set => decide (fv s 3 6 sl.val 0 4 ≤ cleanWays s sl.val set)) = set :: rest →
    let u := modSlice sl.val (fun k => { k with cleanList := set :: rest }) s
    (kget [] s.hbm.stalled sl.val).isEmpty = true → cleanPick u sl.val set = some h →
    let v := cleanOne sl.val h u
    Goes (.cacheCleanerWriteback sl) s (if fv v 3 6 sl.val 0 4 ≤ cleanWays v sl.val set then
      modSlice sl.val (fun k => { k with cleanList := rest }) v else v))
  ∧ (∀ sl s, (sliceOf s (Fin.val sl)).move = none → (sliceOf s sl.val).moverUsed = false → asleep s = false →
    domainOn s (8 + sl.val) = true →
    Goes (.moverAttempt sl) s (modSlice sl.val (fun k => { k with moverUsed := true })
      (((moverOrder s sl.val).findSome? (fun x => moverTry sl.val x s)).getD s)))
  ∧ (∀ sl s, s.ctl.ready = true → asleep s = false → domainOn s (8 + Fin.val sl) = true →
    let u := scanLoop sl.val (fv s 3 9 sl.val 0 9) s
    Goes (.ageScan sl) s ((stashRecs u sl.val).foldl (fun s x =>
      if isLocked s (chosenBucket s (recKey x.2)) then flowCount sl.val 10 1 s else scanRec sl.val x s) u))
  ∧ (∀ sl s p up rest, (sliceOf s (Fin.val sl)).exq = (p, up) :: rest →
    Goes (.exiledUpdate sl) s (sliceWritten sl.val false p (fun s =>
      let u := (sliceRead p (modSlice sl.val (fun k => { k with exq := rest }) s)).2
      if u.flow.exFixed.contains p = true then u
      else putExiled p (if up = true then exiledOf u p + 1 else exiledOf u p - 1) u) s))
  ∧ (∀ bucket cycles s w o, let b := BitVec.toNat bucket
    let sl := bucketSlice s b
    (sliceOf s sl).waits.find? (fun w => w.bucket == b) = some w → lockHolder s b = none → (sliceOf s sl).locks.length < 4096 →
    let u := perfEvent 0x0302 5 w.engine b 0 (BitVec.toNat cycles)
      (wake w.engine (modSlice sl (fun k => { k with waits := k.waits.filter (fun x => x != w) }) s))
    (tagOf (engOf u w.engine) w.tag).op = some o →
    let took := if o.before.contains b = true then o.took else b :: o.took
    Goes (.lockGrant bucket cycles) s (lockSteps w.engine w.tag o.locks { o with wait := false, took := took }
      (modEng w.engine (fun e => { e with held := e.held ++ [b], heldOnce := true }) (putLock b w.engine u))))
  ∧ (∀ eng tag cycles s w, let id := Fin.val eng
    s.flow.slices.findSome? (fun k => k.waits.find? (fun w => w.engine == id && w.tag == Fin.val tag && decide (16 ≤ w.age)))
      = some w →
    let u := { s with flow.slices := s.flow.slices.map (fun k => { k with waits := k.waits.filter (fun x => x != w) }) }
    let v := wake id (finishTag id (Fin.val tag) stLOCKTIMEOUT 0
      (perfEvent 0x0302 5 id w.bucket 0 (BitVec.toNat cycles) (skipCount 6 1 u)))
    let t := modEng id (fun e => { e with timedOut := true }) v
    Goes (.lockTimeout eng tag cycles) s (if (engOf t id).st = .running then t else poll id t))

/-- Frames coming in and copies going out (R98, R243 to R256, R277 to R281): a frame takes its first cell or is dropped by its
cause; its cells and end arrive; an idle port selects a copy or a frame of the device's own; cells are sent; a copy that has
been sent whole is counted and released. -/
def Obligations.FrameEventsComplete : Prop :=
  (∀ port t16 frame s, let u := at16 t16 s
    let p := Fin.val port
    isPort u p = true → (portOf u p).st = .up → kfind u.sw.rx p = none → u.sw.rxSkip.contains p = false →
    domainOn u (56 + p / 32) = true → ptpHeader frame = none →
    let v := { u with pwr.rxAge := 0 }
    asleep v = false → domainOn v (pipeOf p) = true → domainOn v (44 + pipeOf p) = true →
    (pipeState v (pipeOf p)).staging < 8192 →
    let h := v.sw.nextPkt
    let k := { pktReset p (ingressStamp v p t16) with coming := frame, cells := 1, maxLen := maxFrame v p }
    let w := modPipe (pipeOf p) (fun k => { k with staging := k.staging + 1 })
      { v with sw.nextPkt := h + 1, sw.rx := kput v.sw.rx p h }
    Goes (.frameReceiveStart port t16 frame false) s (takeBytes h (putPkt h k w)))
  ∧ (∀ port t16 frame s, let u := at16 t16 s
    let p := Fin.val port
    isPort u p = true → (portOf u p).st = .up → kfind u.sw.rx p = none → u.sw.rxSkip.contains p = false →
    domainOn u (56 + p / 32) = true → ptpHeader frame = none →
    let v := { u with pwr.rxAge := 0 }
    asleep v = false →
    Goes (.frameReceiveStart port t16 frame true) s
      { modCnt p (fun c => { c with rxOverrun := c.rxOverrun + 1 }) (stickPort p 4 v) with sw.rxSkip := p :: v.sw.rxSkip })
  ∧ (∀ port s h k, kfind s.sw.rx (Fin.val port) = some h → pktOf s h = some k → k.coming ≠ [] →
    Goes (.frameCellArrive port) s (takeBytes h (takeCell h k s)))
  ∧ (∀ port pcs s h k, kfind s.sw.rx (Fin.val port) = some h → pktOf s h = some k → k.coming = [] →
    Goes (.frameReceiveEnd port pcs) s
      (frameEnd h k (PcsReport.uncorrectable pcs != 0) (codewordCount port.val pcs s)))
  ∧ (∀ port t16 hb s q tier u c cs, let v := at16 t16 s
    isPort v (Fin.val port) = true → portLive v port.val = true → kfind v.sw.tx port.val = none →
    domainOn v 48 = true → domainOn v (44 + port.val / 32) = true →
    takeOrigin port.val (purgePort port.val v).ctl.origin = none →
    selectQueue port.val (purgePort port.val v) = (some (q, tier), u) → (queueOf u q).copies = c :: cs →
    Goes (.egressSelect port t16 hb) s (startCopy port.val q tier t16 hb c u))
  ∧ (∀ port t16 hb s f rest, let v := at16 t16 s
    let w := purgePort (Fin.val port) v
    isPort v port.val = true → portLive v port.val = true → kfind v.sw.tx port.val = none →
    domainOn v 48 = true → domainOn v (44 + port.val / 32) = true →
    takeOrigin port.val w.ctl.origin = some (f, rest) → queuePaused w port.val (4 * port.val + 3) = false →
    0 < peakTokens w (4 * port.val + 3) →
    let u := { w with ctl.origin := rest }
    (portOf u port.val).st ≠ .downPend →
    Goes (.egressSelect port t16 hb) s (sendOrigin port.val (egressStamp u port.val t16) f u))
  ∧ (∀ port cell s t k, kfind s.sw.tx (Fin.val port) = some t → pktOf s t.copy.pkt = some k → t.lost = false → t.cut = none →
    portSafe s port.val = false → 256 * t.sent < k.tx.length → (k.coming = [] ∨ 256 * t.sent + 256 ≤ k.tx.length) →
    Goes (.egressCellSend port cell false false) s { s with sw.tx := kput s.sw.tx port.val { t with sent := t.sent + 1 } })
  ∧ (∀ port cell s t k, kfind s.sw.tx (Fin.val port) = some t → pktOf s t.copy.pkt = some k → t.lost = false → t.cut = none →
    portSafe s port.val = false →
    let u := raiseScoped fkTRAILER_MISMATCH (port.val + BitVec.toNat cell * 2 ^ 7) [port.val] [pget k bENDPOINT] s
    Goes (.egressCellSend port cell true false) s { u with sw.tx := kput u.sw.tx port.val (txCut (256 * t.sent) t) })
  ∧ (∀ port ns s t k, let u := atNs ns s
    kfind u.sw.tx (Fin.val port) = some t → pktOf u t.copy.pkt = some k → t.lost = true →
    let v := { u with sw.tx := kdel u.sw.tx port.val }
    Goes (.copyTxDone port ns) s (releaseCopy t.copy (fateKnown t.copy.pkt k t.copy.first 0 port.val 7 t.copy.queue
      (chargeTx t.copy.queue t.tier (256 * t.sent) v))))
  ∧ (∀ port ns s t k, let u := atNs ns s
    let p := Fin.val port
    kfind u.sw.tx p = some t → pktOf u t.copy.pkt = some k → t.lost = false → txComplete k t = true → (txEnd k t).2.1 = false →
    let q := t.copy.queue
    let sent := (bodyOf k).take (txEnd k t).1
    let body := if k.ptp = true ∨ ptpTransit u k = true then ptpResidence (residence16 k t) sent else sent
    let n := body.length + 4
    let v := modCnt p (fun m => { m with txFrames := m.txFrames + 1, txOctets := inc64 m.txOctets n })
      { u with sw.tx := kdel u.sw.tx p }
    let v := perfEvent 0x0103 5 0 p t.copy.tc n (perfEvent 0x0102 5 0 p t.copy.tc 1 v)
    let v := chargeTx q t.tier n (modQueue q (fun m => { m with txFrames := m.txFrames + 1, txOctets := inc64 m.txOctets n }) v)
    let v := meterUpdate 2 (pget k bEP_SET == 1) (pget k bENDPOINT) (pget k bTENANT) n (bitsOf t.startNs.toNat 10 22) v
    let v := { v with out.frames := v.out.frames ++ [{ port := p, bytes := body ++ leBytes 4 (crc32 body), stomped := false }] }
    let v := if t.copy.first = true then monPoint t.copy.pkt 11 k v else v
    (txEnd k t).2.2 = false →
    Goes (.copyTxDone port ns) s (releaseCopy t.copy (fateKnown t.copy.pkt k t.copy.first t.startNs.toNat p 0 q v)))

/-- Multicast, pause frames, flushes, records for the host and the cell audit (R250, R257 to R260, R262 to
R268, R271). -/
def Obligations.SwitchEventsComplete : Prop :=
  (∀ pipe s h rest k, (pipeState s (Fin.val pipe)).replicator = h :: rest → pktOf s h = some k →
    let u := modPipe pipe.val (fun p => { p with replicator := rest }) s
    let k' := { k with stage := PktStage.admitted, members := [] }
    let r := k.members.foldl (fun ns m => mcMember h k' (u.sw.shared - k.cells) m ns) (0, 0, putPkt h k' u)
    let v := { r.2.2 with sw.cycle := 0 }
    r.1 = 0 →
    Goes (.mcReplicate pipe) s (freePkt h k' (monFinish h k' 0xFF (if k'.starved = true then 8 else 3) 0
      (if r.2.1 = 0 then modPipe pipe.val (fun p => { p with mcDrop := p.mcDrop + 1 }) v else v))))
  ∧ (∀ pipe s h rest k w, (pipeState s (Fin.val pipe)).replicator = h :: rest → pktOf s h = some k →
    let u := modPipe pipe.val (fun p => { p with replicator := rest }) s
    let k' := { k with stage := PktStage.admitted, members := [] }
    let r := k.members.foldl (fun ns m => mcMember h k' (u.sw.shared - k.cells) m ns) (0, 0, putPkt h k' u)
    let v := { r.2.2 with sw.cycle := 0 }
    0 < r.1 → pktOf v h = some w →
    Goes (.mcReplicate pipe) s (k.members.foldl (fun s m => purgeHead m.1 1 s) (putPkt h { w with refs := r.1 } v)))
  ∧ (∀ port s, let vec := vecOf (fun t => (prioOf s (Fin.val port * 8 + t)).due && (pauseMask s port.val).testBit t)
    (portOf s port.val).st = .up → vec ≠ 0 → isPort s port.val = true →
    Goes (.pfcFrameSend port) s (sendPause port.val vec s))
  ∧ (∀ port s, let vec := vecOf (fun t => (prioOf s (Fin.val port * 8 + t)).xoff && (pauseMask s port.val).testBit t)
    (portOf s port.val).st = .up → vec ≠ 0 → fv s 6 8 port.val 16 16 ≤ kget 0 s.sw.pauseAge port.val →
    Goes (.pauseRefresh port) s (sendPause port.val vec s))
  ∧ (∀ port cells s, portFlushing s (Fin.val port) = true →
    Goes (.flushRelease port cells) s
      (flushSettle port.val { flushLoop port.val 6144 (min 6144 (BitVec.toNat cells)) s with sw.cycle := 0 }))
  ∧ (∀ port s age, kfind s.sw.flush (Fin.val port) = some age → 64 ≤ age → age < 2 ^ 32 →
    Goes (.flushStuck port) s
      (raiseFault fkFLUSH_STUCK port.val { s with sw.flush := kput s.sw.flush port.val (age + 2 ^ 32) }))
  ∧ (∀ s, Goes .loglineDeliver s (logDeliverLoop s.sw.logTokens s))
  ∧ (∀ s, domainOn s 63 = true → Goes .soundDeliver s (soundLoop s.sw.soundFifo.length s))
  ∧ (∀ s, domainOn s 63 = true → Goes .monRecordDeliver s (monLoop s.perf.fifo.length s))
  ∧ (∀ lost s, let inRange := fun c => decide (s.sw.auditPos ≤ c) && decide (c < s.sw.auditPos + 384)
    let now := dedupN ((lost.map (fun c : BitVec 19 => c.toNat)).filter inRange)
    let again := now.filter (fun c => s.sw.orphanSeen.contains c)
    let found := s.sw.auditFound + again.length
    let t := { s with sw.orphanSeen := s.sw.orphanSeen.filter (fun c => !inRange c) ++ now.filter (fun c => !again.contains c),
                      sw.auditPos := (s.sw.auditPos + 384) % 393216, sw.auditFound := found,
                      sw.reclaimed := inc64 s.sw.reclaimed again.length }
    let u := { t with sw.auditFound := 0 }
    Goes (.cellAuditVisit lost) s (if (s.sw.auditPos + 384) % 393216 ≠ 0 then t
      else if 0 < found then raiseFault fkCELL_AUDIT found u else u))

/-- The pools and the bus (R295 to R301): the bus serves the presented requests from its start, round robin, and answers each;
a buffer is freed by its owner; a Skipper's allocation takes a buffer or answers NOBUF at its completion, and its free waits
for the commit. -/
def Obligations.PoolEventsComplete : Prop :=
  (∀ start reqs s,
    Goes (.poolRequest start reqs) s
      ((sortBy (fun r : PoolReq => (r.port.val + 46 - Fin.val start) % 46) reqs).foldl (fun s r =>
        let a := poolRequest r.owner.toNat r.hbm r.size s
        { a.2 with pools.answers := a.2.pools.answers ++ [(r.port.val, a.1)] })
        { s with pools.start := start.val, pools.answers := [] }))
  ∧ (∀ owner ref s,
    Goes (.bufferFree owner ref) s
      (poolFree (acctOf (BitVec.toNat owner)) (BitVec.toNat ref) (fun o => o == owner.toNat) s).2)
  ∧ (∀ eng tag pool owner s, let id := Fin.val eng
    (engOf s id).st = .running → tagFree (engOf s id) (Fin.val tag) = true → Fin.val pool ≠ 7 →
    (BitVec.toNat owner = id ∨ 0x200 ≤ owner.toNat ∧ owner.toNat ≤ 0x203 ∨ owner.toNat = 0x250) →
    let o := newOp s id 10
    let a := poolTake id (acctOf owner.toNat) pool.val (noteIssue id 10 s)
    Goes (.skPoolAlloc eng tag pool owner) s (match a.1 with
      | none => setOp id tag.val { o with status := stNOBUF } a.2
      | some r =>
        let u := { a.2 with pools.prov := kput a.2.pools.prov r owner.toNat }
        setOp id tag.val { o with result := r } (modEng id (fun e => { e with allocs := e.allocs ++ [r] }) u)))
  ∧ (∀ eng tag ref s, let id := Fin.val eng
    (engOf s id).st = .running → tagFree (engOf s id) (Fin.val tag) = true →
    Goes (.skPoolFree eng tag ref) s
      (finishTag id tag.val stOK 0 (modEng id (fun e => { e with frees := e.frees ++ [BitVec.toNat ref] }) (noteIssue id 11 s))))

/-- The HBM subsystem (R310 to R326): a request waits in its port's queue; a window grants; an issued read returns in order; a
row is released, closed or refreshed at its own events; an idle pseudo-channel powers down; and the patrol reads a line. -/
def Obligations.HbmEventsComplete : Prop :=
  (∀ port req s, let k := pcStack (reqPlace s req).pc
    (kget [] (stackOf s k).queues (Fin.val port)).length < 128 → kget [] s.hbm.stalled port.val = [] →
    s.hbm.masked.contains (BitVec.toNat req.id) = false →
    Goes (.hbmRequest port req) s (modStack k (fun st => { st with queues := kmod [] st.queues port.val (fun q => q ++ [req]) })
      { s with hbm.hint := BitVec.ofNat 16 (hintWord port.val req s) }))
  ∧ (∀ stack s, let k := Fin.val stack
    domainOn s (50 + k) = true →
    let broke := (classOrder s k).filter (fun c => (pickPort s k c [] true).isNone && (pickPort s k c [] false).isSome)
    Goes (.hbmGrant stack) s (let t := broke.foldl (fun s c => perfEvent 0x0A02 5 0 k c 1
        (modStack k (fun st => { st with creditWait := modAt st.creditWait c (fun v => v + 1) }) s)) s
      grantLoop k (classOrder t k) 16 [] true t))
  ∧ (∀ pc ready s w, let p := Fin.val pc
    let c := pcOf s p
    let isReady := fun b => List.any ready (fun r : Fin 16 => r.val == b)
    c.mode = .ready →
    c.writes.find? (writeReady s p ready) = some w →
    (c.drain = true ∨ c.aged = true
      ∨ ∀ b ∈ List.range 16, isReady ((c.lastBank + 1 + b) % 16) = true →
          bankCanIssue s (pcStack p) (pairedShut s p) (bankOfPc c ((c.lastBank + 1 + b) % 16)) = false) →
    Goes (.hbmCommandIssue pc ready) s (issueWrite p w s))
  ∧ (∀ pc ready s b e, let p := Fin.val pc
    let c := pcOf s p
    let isReady := fun b => List.any ready (fun r : Fin 16 => r.val == b)
    let u := modPc p (fun c => { c with lastBank := b }) s
    c.mode = .ready → c.writes = [] →
    ((List.range 16).map (fun i => (c.lastBank + 1 + i) % 16)).find?
      (fun b => isReady b && bankCanIssue s (pcStack p) (pairedShut s p) (bankOfPc c b)) = some b →
    refreshDueNow (bankOfPc c b) = false → bankPick u (pcStack p) (pairedShut u p) (bankOfPc c b) = some e →
    Goes (.hbmCommandIssue pc ready) s (makeUpRefresh p b (issueEntry p b e u)))
  ∧ (∀ pc s f rest, (pcOf s (Fin.val pc)).flight = f :: rest →
    let q := f.entry.req
    let r := (List.range (max 1 (reqLines q))).foldl (fun (x : Bool × State) i =>
      let y := hbmCheck (placeOf x.2 q.region.val (q.offset / 64 * 64 + 64 * i)) x.2
      (x.1 || y.1, y.2)) (false, modPc pc.val (fun c => { c with flight := rest }) s)
    Goes (.hbmReadReturn pc) s (hbmAnswer f.entry.port q r.1 f.data r.2))
  ∧ (∀ pc bank s, let k := bankOfPc (pcOf s (Fin.val pc)) (Fin.val bank)
    k.hold ≠ [] →
    let u := modPc pc.val (setBank bank.val (fun k => { k with
      hold := k.hold.drop 1
      queue := k.queue.filter (fun e => !lateWrite k e) })) s
    Goes (.rowHoldExpire pc bank) s (makeUpRefresh pc.val bank.val (drainSettle (pcStack pc.val) pc.val
      ((k.queue.filter (lateWrite k)).foldl (fun s e => hbmCount pc.val 5 (modPc pc.val (queueReq e.req) s)) u))))
  ∧ (∀ pc bank s, Goes (.pageIdleClose pc bank) s (modPc (Fin.val pc) (setBank (Fin.val bank) (fun k =>
      if k.hold.isEmpty then { k with row := none, hits := 0 } else k)) s))
  ∧ (∀ pc s, Goes (.writeAgeExpire pc) s (modPc (Fin.val pc) (fun c => { c with aged := !c.writes.isEmpty }) s))
  ∧ (∀ pc bank s, let k := bankOfPc (pcOf s (Fin.val pc)) (Fin.val bank)
    k.hold ≠ [] → (pcOf s pc.val).mode ≠ .selfRefresh →
    Goes (.refreshDue pc bank) s (modPc pc.val (setBank bank.val (fun k =>
      { k with postponed := min 8 (k.postponed + 1), forced := decide (8 ≤ min 8 (k.postponed + 1)) })) s))
  ∧ (∀ pc bank s, let k := bankOfPc (pcOf s (Fin.val pc)) (Fin.val bank)
    k.hold = [] → k.forced = false → k.queue = [] → (pcOf s pc.val).mode = .ready →
    Goes (.refreshDue pc bank) s (doRefresh pc.val bank.val false s))
  ∧ (∀ pc s, (pcOf s (Fin.val pc)).mode = .ready → pcIdle (pcOf s pc.val) = true → fv s 9 4 (pcStack pc.val) 0 12 ≠ 0 →
    Goes (.pdIdleEnter pc) s (hbmCount pc.val 14 (modPc pc.val (fun c => { c with mode := .powerDown, banks := [] }) s)))
  ∧ (∀ pc line s, fv s 9 6 (pcStack (Fin.val pc)) 0 8 ≠ 0 → (pcOf s pc.val).mode ≠ .dead →
    let pl : Place := { pc := pc.val, o := BitVec.toNat line * 64 }
    let r := hbmCheck pl s
    Goes (.patrolScrub pc line) s (if r.1 = false ∧ (hbmDamage s pl).isSome = true then hbmCount pc.val 13 r.2 else r.2))

/-- Metering (R29, R30, R336 to R341): two Fixes after its minute a closing block is sealed and staged; its digest enters the chain, and
a paired chip mirrors the head; the newest checkpoint is kept first; a checkpoint late by 97,657 Fixes is reported once; and
the billing ring is served two blocks at a time. -/
def Obligations.MeteringEventsComplete : Prop :=
  (∀ s c, s.met.closing = some c → 2 ≤ c.age →
    let bank := !s.met.bank
    let read := (blockEps s bank c).foldl
      (fun s e => meterReq .read (accOff bank e 0) 64 (accLine bank e (epWord bank e s))) s
    let eps := blockEps read bank c
    let newest := read.met.ckpts.head?
    let prevMin := if read.met.first then (newest.map (fun k => k.minute)).getD (2 ^ 64 - 1)
      else read.met.lastMinute.getD (2 ^ 64 - 1)
    let prevHead := if read.met.first then (newest.map (fun k => k.head)).getD (zerosB 64)
      else read.met.lastHead.getD (zerosB 64)
    let h := headerBytes read c eps.length prevMin (read.met.first && newest.isNone) (read.met.first && newest.isSome)
    let staged := (List.range eps.length).foldl (fun s i => meterReq .write (stageOff c.minute + 64 * i) 64 s)
      (hbmWrite 2 (stageOff c.minute) ((eps.map (recordBytes read bank c)).flatten) (overrun c.minute read))
    let u := eps.foldl (fun s e => meterReq .write (accOff bank e 0) 64 s) staged
    let b : Block := { minute := c.minute, header := h, records := eps.length, prevHead := prevHead, head := none,
                       delivery := .pending, sent := 0, ckpt := false, late := false, age := c.age }
    let lo := hbmKey 2 (accOff bank 0 0)
    Goes .meterSeal s { u with
      met.staged := u.met.staged ++ [b]
      met.closing := none
      met.eps := u.met.eps.filter (fun e => decide (e.1 / 2 ^ 18 ≠ b2n bank))
      hbm.mem := u.hbm.mem.filter (fun k => !(decide (lo ≤ k.1) && decide (k.1 < lo + 2 ^ 24)))
      met.lastMinute := some c.minute
      met.lastHead := none
      met.first := false
      met.blocksClosed := u.met.blocksClosed + 1 })
  ∧ (∀ s m head b, nextHash s = some (m, head) → stagedBlock (setHead m head s) m = some b →
    let t := setHead m head s
    Goes .billingHashDone s (if mirroring t = true then
        queueEvent 6 0 (beBytes 8 m ++ beBytes 4 (leAt b.header 16 4) ++ beBytes 4 b.records ++ padTo 64 head) t else t))
  ∧ (∀ s b head, s.met.staged.find? (fun b => b.head.isSome && !b.ckpt) = some b → b.head = some head →
    let k : Ckpt := { minute := b.minute, fixM := leAt b.header 16 4, records := b.records, flags := leAt b.header 25 1,
                      head := head }
    Goes .ckptWriteDone s (pruneStaged (updBlock b.minute (fun x => { x with ckpt := true })
      { s with met.ckpts := (k :: s.met.ckpts).take 4096, met.ckptsWritten := s.met.ckptsWritten + 1 })))
  ∧ (∀ s b, s.met.staged.find? (fun b => !b.ckpt && !b.late && decide (97657 ≤ b.age)) = some b →
    Goes .ckptLate s
      (raiseFault fkCKPT_LATE (b.minute % 2 ^ 40) (updBlock b.minute (fun x => { x with late := true }) s)))
  ∧ (∀ s b, domainOn s 62 = true →
    s.met.staged.find? (fun b => b.delivery == .pending || b.delivery == .inProgress) = some b →
    let u := billSlots b.minute (b.records + 2) s
    Goes .billRingDeliver s (match u.met.staged.find? (fun b => b.delivery == .pending || b.delivery == .inProgress) with
      | none => pruneStaged u
      | some b => pruneStaged (billSlots b.minute (b.records + 2) u)))

/-- What the pair's frames and timers do (R347, R348, R353 to R365): DATA in sequence is taken in and answered, out of sequence it is
asked for again; heartbeats, greetings, claims and their answers act on the pairing; frames are sent, sent again and
acknowledged; a silent peer is lost; aligned lanes bring the pairing up; and the sweep runs a Fix's share at a time. The
bodies of HEARTBEAT, HELLO and CLAIM have the model's layout (log entry 53). -/
def Obligations.PairEventsComplete : Prop :=
  (∀ frame s bufs u, s.pair.st ≠ .solo → s.pair.st ≠ .down → rhFrameOk frame = true → rhType frame = 1 →
    let v := rhUse 2 2 (rxHeader frame s)
    let n := beAt frame 17 1
    pairUp (rxHeader frame s) = true → beAt frame 4 4 = v.pair.rxSeq → takeRx ((n + 1) / 2) [] v = (some bufs, u) →
    let es := rxEvents n (beAt frame 4 4) (frame.drop 32)
    let new := (List.range n).map (fun i =>
      ({ ev := es.getD i { seq := 0, kind := 0, body := [] }, buf := bufs[i / 2]?, deferred := false } : RxEvent))
    Goes (.rhDataReceived frame) s
      { u with pair.rxq := u.pair.rxq ++ new, pair.rxSeq := (u.pair.rxSeq + n) % 2 ^ 32, pair.ackDue := true })
  ∧ (∀ frame s, s.pair.st ≠ .solo → s.pair.st ≠ .down → rhFrameOk frame = true → rhType frame = 1 →
    let v := rhUse 2 2 (rxHeader frame s)
    pairUp (rxHeader frame s) = true → beAt frame 4 4 ≠ v.pair.rxSeq →
    Goes (.rhDataReceived frame) s (if seqBefore v.pair.rxSeq (beAt frame 4 4) = true then { v with pair.nakDue := true }
      else { v with pair.ackDue := true }))
  ∧ (∀ frame s, s.pair.st ≠ .solo → s.pair.st ≠ .down → rhFrameOk frame = true → rhType frame = 2 →
    Goes (.rhAckReceived frame) s (rxHeader frame s))
  ∧ (∀ frame beat s, s.pair.st = .resync → rhFrameOk frame = true → rhType frame = 3 →
    let v := rxHeader frame s
    v.pair.st = .resync → beat.sweepDone = true →
    Goes (.rhHeartbeatReceived frame beat) s
      { v with pair.peerRoles := beat.roles, pair.peerPower := BitVec.toNat beat.power,
               pair.peerState := BitVec.toNat beat.state, pair.peerEnded := true })
  ∧ (∀ frame hello s, s.pair.st = .hello → rhFrameOk frame = true → rhType frame = 4 →
    let v := rxHeader frame s
    v.pair.st = .hello → hello.ok = true → helloCause v (beAt frame 1 1) hello = 0 →
    Goes (.rhHelloReceived frame hello) s (wantPair .resync
      { v with pair.peerRoles := hello.roles, pair.peerUid := hello.uid, pair.helloOk := true }))
  ∧ (∀ frame hello s, s.pair.st = .hello → rhFrameOk frame = true → rhType frame = 4 →
    let v := rxHeader frame s
    v.pair.st = .hello → helloCause v (beAt frame 1 1) hello ≠ 0 →
    Goes (.rhHelloReceived frame hello) s (wantPair .mismatch
      { v with pair.peerRoles := hello.roles, pair.peerUid := hello.uid, pair.cause := helloCause v (beAt frame 1 1) hello }))
  ∧ (∀ frame home epoch s, s.pair.st ≠ .solo → s.pair.st ≠ .down → rhFrameOk frame = true → rhType frame = 5 →
    let v := rxHeader frame s
    let h := Fin.val home + 1
    Goes (.rhClaimReceived frame home epoch) s (if BitVec.toNat epoch ≤ epochOf v h then
        rhSend 6 0 0 (claimBody h epoch.toNat stSTALE) v
      else
        let c : Input := { rank := 2, sub := 0, due := v.clock.fix + 1, body := .peerClaim h epoch.toNat }
        { v with ctl.queue := v.ctl.queue ++ [c] }))
  ∧ (∀ frame home epoch status s, s.pair.st ≠ .solo → s.pair.st ≠ .down → rhFrameOk frame = true → rhType frame = 6 →
    let v := rxHeader frame s
    let h := Fin.val home + 1
    let c := (h, BitVec.toNat epoch)
    let u := { v with pair.claims := v.pair.claims.filter (fun x => x != c) }
    Goes (.rhClaimAckReceived frame home epoch status) s
      (if v.pair.claims.contains c = true ∧ status = 0 ∧ epochOf v h < epoch.toNat then
        { u with pair.epoch := setAt u.pair.epoch (h - 1) epoch.toNat } else u))
  ∧ (∀ s, pairUp s = true →
    let u := rhUse 0 1 s
    let old := fitEvents 63 2016 u.pair.resend
    old ≠ [] →
    Goes .rhDataSend s (pairCount 10 1 (dataFrame old { u with pair.resend := u.pair.resend.drop old.length })))
  ∧ (∀ s, pairUp s = true →
    let u := rhUse 0 1 s
    fitEvents 63 2016 u.pair.resend = [] →
    let new := fitEvents 63 (min 2016 (131072 - evTotal u.pair.retx)) u.pair.txq
    let v := new.foldl (fun s e => perfEvent 0x0D01 5 0 0 e.kind 1 s) u
    Goes .rhDataSend s (dataFrame new (pairCount 0 new.length
      { v with pair.txq := v.pair.txq.drop new.length, pair.retx := v.pair.retx ++ new })))
  ∧ (∀ s, (s.pair.ackDue = true ∨ s.pair.nakDue = true) → Goes .rhAckSend s (rhSend 2 0 0 (zerosB 32) s))
  ∧ (∀ s, pairUp s = true → s.pair.retx ≠ [] → Goes .rhRetransmitTimeout s { s with pair.resend := s.pair.retx })
  ∧ (∀ s, pairUp s = true → fv s 13 4 0 0 8 ≤ s.pair.quiet →
    let u := { s with pair.st := .lost, pair.want := none, pair.txq := [], pair.retx := [], pair.resend := [], pair.lagq := [],
                      pair.claims := [], pair.sweep := none, pair.takeover := true }
    let v := if takeoverHomes u = [] then u else orderExit u
    Goes .peerLost s (raiseFault fkPEER_LOST (ns32 v.pair.rxSeq 1) (pairCount 13 1 v)))
  ∧ (∀ s, s.pair.st = .down → s.boot.refclk.getLsbD 1 = true →
    Goes .pairLanesAligned s { s with pair.lanes := 0xFFF, pair.want := some .hello })
  ∧ (∀ s, s.pair.st ≠ .hello → s.pair.st ≠ .mismatch → (s.pair.st = .down → s.pair.want = none) →
    Goes .rhAlignLost s { s with pair.lanes := s.pair.lanes &&& 0xF00 })
  ∧ (∀ s, (s.pair.st = .hello ∨ s.pair.st = .mismatch ∨ (s.pair.st = .down ∧ s.pair.want.isSome = true)) →
    Goes .rhAlignLost s (wantPair .down { s with pair.lanes := s.pair.lanes &&& 0xF00 }))
  ∧ (∀ s w, s.pair.sweep = some w → s.pair.st = .resync → w.ended = false → w.last ≠ some s.clock.fix →
    s.pair.txq.length ≤ 8192 → w.bucket < tableBuckets s →
    let m := min (fv s 13 7 0 0 13) (tableBuckets s - w.bucket)
    let t := (List.range m).foldl (fun s i => (bucketRecs s (w.bucket + i)).foldl (fun s x => sweepRec x s) s) s
    let w' := { w with bucket := w.bucket + m, sent := w.sent + sweepSent s t, last := some s.clock.fix }
    Goes .resyncSweep s { t with pair.sweep := some w' })

/-- The Skippers' lock operations (R182, R204, R205): a free bucket is locked at once, with LOCKR the bucket is read; a bucket that
another holder has is waited for; a bucket beyond the table is BADARG, one below the highest lock held LOCKORDER and a fifth
lock NOBUF; LOCKSET releases what it does not keep and takes its list in ascending order; an access beyond the local store is
SK_ILLEGAL. That a lock waited for counts towards the four is the model's reading (log entry 42). -/
def Obligations.SkipperLockCommandsComplete : Prop :=
  (∀ eng tag bucket s, TagReady s eng tag → let id := Fin.val eng
    let b := BitVec.toNat bucket
    let u := lockUse b (noteIssue id 1 s)
    b < tableBuckets (noteIssue id 1 s) → (engOf (noteIssue id 1 s) id).held.contains b = false →
    (dedupN (b :: lockWants (engOf (noteIssue id 1 s) id))).length ≤ 4 →
    ((engOf (noteIssue id 1 s) id).held = [] ∨ heldHigh (engOf (noteIssue id 1 s) id) ≤ b) →
    (engOf u id).held.contains b = false → lockFree u b = true →
    Goes (.lock eng tag bucket) s (finishTag id tag.val stOK 0
      (modEng id (fun e => { e with held := e.held ++ [b], heldOnce := true }) (putLock b id u))))
  ∧ (∀ eng tag bucket loc s, TagReady s eng tag → let id := Fin.val eng
    let b := BitVec.toNat bucket
    let u := lockUse b (noteIssue id 2 s)
    b < tableBuckets (noteIssue id 2 s) → (engOf (noteIssue id 2 s) id).held.contains b = false →
    (dedupN (b :: lockWants (engOf (noteIssue id 2 s) id))).length ≤ 4 →
    ((engOf (noteIssue id 2 s) id).held = [] ∨ heldHigh (engOf (noteIssue id 2 s) id) ≤ b) →
    (engOf u id).held.contains b = false → lockFree u b = true → BitVec.toNat loc + 128 ≤ 1024 →
    let o := newOp s id 2
    Goes (.lockr eng tag bucket loc) s (startReads id tag.val { o with
        reads := [(0, b * 128, 128, loc.toNat)], lines := linesOf 0 (b * 128) 128
        took := if o.before.contains b = true then [] else [b] }
      (modEng id (fun e => { e with held := e.held ++ [b], heldOnce := true }) (putLock b id u))))
  ∧ (∀ eng tag bucket s, TagReady s eng tag → let id := Fin.val eng
    let b := BitVec.toNat bucket
    let u := lockUse b (noteIssue id 1 s)
    b < tableBuckets (noteIssue id 1 s) → (engOf (noteIssue id 1 s) id).held.contains b = false →
    (dedupN (b :: lockWants (engOf (noteIssue id 1 s) id))).length ≤ 4 →
    ((engOf (noteIssue id 1 s) id).held = [] ∨ heldHigh (engOf (noteIssue id 1 s) id) ≤ b) →
    (engOf u id).held.contains b = false → lockFree u b = false →
    Goes (.lock eng tag bucket) s (setOp id tag.val { newOp s id 1 with wait := true, locks := [(b, false, 0)] }
      (modSlice (bucketSlice u b) (fun k => { k with
        waits := k.waits ++ [{ bucket := b, engine := id, tag := tag.val, age := 0 }] }) u)))
  ∧ (∀ eng tag bucket loc s, TagReady s eng tag → let id := Fin.val eng
    let u := noteIssue id 2 s
    1024 < BitVec.toNat loc + 128 → Goes (.lockr eng tag bucket loc) s (skIllegal id u))
  ∧ (∀ eng tag bucket loc s, TagReady s eng tag → let id := Fin.val eng
    let u := noteIssue id 2 s
    let b := BitVec.toNat bucket
    BitVec.toNat loc + 128 ≤ 1024 → tableBuckets u ≤ b →
    Goes (.lockr eng tag bucket loc) s (finishTag id tag.val stBADARG 0 u))
  ∧ (∀ eng tag bucket loc s, TagReady s eng tag → let id := Fin.val eng
    let u := noteIssue id 2 s
    let b := BitVec.toNat bucket
    BitVec.toNat loc + 128 ≤ 1024 → b < tableBuckets u → (engOf u id).held.contains b = false → (engOf u id).held ≠ [] →
    b < heldHigh (engOf u id) →
    Goes (.lockr eng tag bucket loc) s (finishTag id tag.val stLOCKORDER 0 (skipCount 5 1 u)))
  ∧ (∀ eng tag bucket s, TagReady s eng tag → let id := Fin.val eng
    let u := noteIssue id 1 s
    let b := BitVec.toNat bucket
    b < tableBuckets u → (engOf u id).held.contains b = false → heldHigh (engOf u id) ≤ b →
    4 < (dedupN (b :: lockWants (engOf u id))).length →
    Goes (.lock eng tag bucket) s (finishTag id tag.val stNOBUF 0 u))
  ∧ (∀ eng tag bucket s, TagReady s eng tag → let id := Fin.val eng
    let b := BitVec.toNat bucket
    let u := lockUse b (noteIssue id 1 s)
    b < tableBuckets (noteIssue id 1 s) → (engOf (noteIssue id 1 s) id).held.contains b = true →
    (engOf u id).held.contains b = true →
    Goes (.lock eng tag bucket) s (finishTag id tag.val stOK 0 u))
  ∧ (∀ eng tag loc s, TagReady s eng tag → let id := Fin.val eng
    let u := noteIssue id 3 s
    BitVec.toNat loc + 32 ≤ 1024 → lsDamaged u id loc.toNat 32 = none →
    let e := engOf u id
    let named := lockList (lsRead e loc.toNat 32)
    let low := named.foldl (fun m x => min m x.1) (2 ^ 28)
    let keep := e.held.filter (fun b => decide (b < low))
    let gone := e.held.filter (fun b => !decide (b < low))
    let extra := (gone.filter (fun b => !named.any (fun x => x.1 == b))).map (fun b => (b, false, 0))
    let want := sortBy (fun x => x.1) (named ++ extra)
    (∀ x ∈ named, x.1 < tableBuckets u ∧ (x.2.1 = true → x.2.2 + 128 ≤ 1024)) →
    (dedupN (want.map (fun x => x.1) ++ lockWants e)).length ≤ 4 →
    Goes (.lockset eng tag loc) s (lockSteps id tag.val want (newOp s id 3)
      (modEng id (fun e => { e with held := keep, wbuf := e.wbuf.filter (fun w => !gone.contains w.cover) })
        (releaseLocks id gone u))))

/-- The Skippers' other operations (R199, R201 to R203, R218, R219, R224): reads of a locked bucket and of extension lines are
issued; writes are buffered under a lock; atomics act at once and can be undone; PLACE, PKT_NEXT, LBPICK, TELEM and TIMEREAD
answer; and an operation in flight completes once the arbiters have answered it. -/
def Obligations.SkipperMemoryCommandsComplete : Prop :=
  (∀ eng tag bucket loc s, TagReady s eng tag → let id := Fin.val eng
    let b := BitVec.toNat bucket
    BitVec.toNat loc + 128 ≤ 1024 →
    Goes (.bread eng tag bucket loc) s (if (engOf s id).held.contains b = true then
        startReads id tag.val { newOp s id 4 with lines := linesOf 0 (b * 128) 128, reads := [(0, b * 128, 128, loc.toNat)] }
          (noteIssue id 4 s)
      else finishTag id tag.val stDENIED 0 (noteIssue id 4 s)))
  ∧ (∀ eng tag bucket unit loc mask s, TagReady s eng tag → let id := Fin.val eng
    let u := noteIssue id 5 s
    let b := BitVec.toNat bucket
    BitVec.toNat loc + 64 ≤ 1024 → lsDamaged u id loc.toNat 64 = none →
    (engOf u id).held.contains b = true → (engOf u id).wbuf = [] →
    let w : WLine := { region := 0, addr := b * 128 + 64 * Fin.val unit, mask := mask,
                       bytes := lsRead (engOf u id) loc.toNat 64, cover := b }
    Goes (.bwrite eng tag bucket unit loc mask) s
      (finishWrite id tag.val { newOp s id 5 with lines := [(0, (b * 128 + 64 * unit.val) / 64)] }
        (modEng id (fun e => { e with wbuf := e.wbuf ++ [w] }) u)))
  ∧ (∀ eng tag bucket unit loc mask s, TagReady s eng tag → let id := Fin.val eng
    let u := noteIssue id 5 s
    BitVec.toNat loc + 64 ≤ 1024 → lsDamaged u id loc.toNat 64 = none →
    (engOf u id).held.contains (BitVec.toNat bucket) = false →
    Goes (.bwrite eng tag bucket unit loc mask) s (finishTag id tag.val stDENIED 0 u))
  ∧ (∀ eng tag addr two loc s, TagReady s eng tag → let id := Fin.val eng
    let n := if two = true then 128 else 64
    let a := BitVec.toNat addr
    BitVec.toNat loc + n ≤ 1024 →
    Goes (.xread eng tag addr two loc) s (if a % 64 = 0 ∧ extOk s a n = true then
        startReads id tag.val { newOp s id 6 with lines := linesOf 1 a n, reads := [(1, a, n, loc.toNat)] } (noteIssue id 6 s)
      else finishTag id tag.val stBADARG 0 (noteIssue id 6 s)))
  ∧ (∀ eng tag addr loc mask cover s, TagReady s eng tag → let id := Fin.val eng
    let u := noteIssue id 7 s
    let a := BitVec.toNat addr
    BitVec.toNat loc + 64 ≤ 1024 → lsDamaged u id loc.toNat 64 = none →
    (engOf u id).held.contains (BitVec.toNat cover) = true → a % 64 = 0 → extOk u a 64 = true → (engOf u id).wbuf = [] →
    let w : WLine := { region := 1, addr := a, mask := mask, bytes := lsRead (engOf u id) loc.toNat 64, cover := cover.toNat }
    Goes (.xwrite eng tag addr loc mask cover) s
      (finishWrite id tag.val { newOp s id 7 with lines := [(1, a / 64)] }
        (modEng id (fun e => { e with wbuf := e.wbuf ++ [w] }) u)))
  ∧ (∀ eng tag addr operand s, TagReady s eng tag → let id := Fin.val eng
    let u := noteIssue id 8 s
    let a := BitVec.toNat addr
    let line := a / 64 * 64
    extOk u line 64 = true → (engOf u id).undo.length < 4 →
    let q := plainReq id (.atom 0) 1 line 64
    let r := hbmAtom 0 1 (a / 8 * 8) (BitVec.toNat operand) (hbmPresent (4 + id / 16) q u)
    let x : Undo := { isAdd := true, addr := a / 8 * 8, operand := operand.toNat }
    Goes (.atom eng tag 0 addr operand) s (setOp id tag.val { newOp s id 8 with
      hint := some (skHint id 1 line 64 (.atom 0) u)
      lines := [(1, line / 64)]
      out := [q]
      result := r.1 } (modEng id (fun e => { e with undo := e.undo ++ [x] }) r.2)))
  ∧ (∀ eng tag addr operand s, TagReady s eng tag → let id := Fin.val eng
    let u := noteIssue id 8 s
    let line := BitVec.toNat addr / 64 * 64
    extOk u line 64 = true →
    Goes (.atom eng tag 2 addr operand) s (finishWrite id tag.val { newOp s id 8 with lines := [(1, line / 64)] }
      (modEng id (fun e => { e with bclr := e.bclr ++ [(line, BitVec.toNat operand % 512)] }) u)))
  ∧ (∀ eng tag loc s, TagReady s eng tag → let id := Fin.val eng
    let u := noteIssue id 9 s
    BitVec.toNat loc + 40 ≤ 1024 → lsDamaged u id loc.toNat 40 = none →
    Goes (.place eng tag loc) s (setOp id tag.val { newOp s id 9 with data := [(0, lsRead (engOf u id) loc.toNat 40)] } u))
  ∧ (∀ eng tag loc s key k a, TagReady s eng tag → let id := Fin.val eng
    let u := noteIssue id 12 s
    BitVec.toNat loc + 128 ≤ 1024 → nextHeld u id = some (key, k) → k.ans = some a →
    Goes (.pktNext eng tag loc) s (finishTag id tag.val stOK 0
      (modEng id (lsWrite loc.toNat (padTo 128 (hdrOf k a.level)))
        (modHold key (fun x => { x with next := x.next + 1 }) u))))
  ∧ (∀ eng tag loc s, TagReady s eng tag → let id := Fin.val eng
    let u := noteIssue id 12 s
    BitVec.toNat loc + 128 ≤ 1024 → nextHeld u id = none →
    Goes (.pktNext eng tag loc) s (finishTag id tag.val stNOTFOUND 0 u))
  ∧ (∀ eng tag pool hash loc s, TagReady s eng tag → let id := Fin.val eng
    let u := noteIssue id 17 s
    let q := BitVec.toNat pool
    let j := BitVec.toNat hash % 256
    let k := fv u 4 0x10 (q * 256 + j) 0 6
    q < 256 → BitVec.toNat loc + 24 ≤ 1024 → lbWord (q * 2 ^ 16 + j) u = (false, u) →
    lbWord (q * 2 ^ 16 + 2 ^ 8 + k) u = (false, u) →
    let v := modEng id (lsWrite loc.toNat (backendEntry u q k)) u
    Goes (.lbpick eng tag pool hash loc) s (if fv u 4 0x11 (q * 64 + k) 0 1 = 0 then finishTag id tag.val stNOTFOUND 0 u
      else finishTag id tag.val stOK (j * 256 + k)
        { v with skip.pickB := kmod 0 v.skip.pickB (q * 256 + j) (fun n => n + 1),
                 skip.pickK := kmod 0 v.skip.pickK (q * 64 + k) (fun n => n + 1) }))
  ∧ (∀ eng tag loc s, TagReady s eng tag → let id := Fin.val eng
    let u := noteIssue id 13 s
    let r := lsRead (engOf u id) (BitVec.toNat loc) 64
    loc.toNat + 64 ≤ 1024 → lsDamaged u id loc.toNat 64 = none →
    Goes (.telem eng tag loc) s (finishTag id tag.val stOK 0 (if u.skip.telem.length < 1048576 then
        { u with skip.telem := u.skip.telem ++ [r] }
      else skipCount 15 1 { u with skip.telem := u.skip.telem.drop 1 ++ [r] })))
  ∧ (∀ eng tag s, TagReady s eng tag → let id := Fin.val eng
    let v := finishTag id tag.val stOK (timeNs (noteIssue id 14 s) % 2 ^ 32) (noteIssue id 14 s)
    tagFree (engOf s id) ((tag.val + 1) % 8) = true →
    Goes (.timeread eng tag) s (finishTag id ((tag.val + 1) % 8) stOK (ageNow (noteIssue id 14 s)) v))
  ∧ (∀ eng tag bad s o, let id := Fin.val eng
    let e := engOf s id
    (tagOf e (Fin.val tag)).op = some o → o.wait = false → o.out = [] → mustWait e tag.val o = false → e.st = .running →
    o.code ≠ 9 → o.status ≠ stFAULTED → (bad = true → o.data = []) →
    Goes (.memOpComplete eng tag bad) s (finishTag id tag.val o.status o.result
      (modEng id (fun e => o.data.foldl (fun e d => lsWrite d.1 d.2 e) e) s)))
  ∧ (∀ eng tag bad s o, let id := Fin.val eng
    let e := engOf s id
    (tagOf e (Fin.val tag)).op = some o → o.wait = false → o.out = [] → mustWait e tag.val o = false → e.st = .running →
    o.code = 9 →
    Goes (.memOpComplete eng tag bad) s (finishTag id tag.val stOK (placeAnswer s (o.data.headD (0, [])).2) s))
  ∧ (∀ eng tag bad s o, let id := Fin.val eng
    let e := engOf s id
    (tagOf e (Fin.val tag)).op = some o → o.wait = false → o.out = [] → mustWait e tag.val o = false → e.st = .running →
    o.code ≠ 9 → (o.status = stFAULTED ∨ (bad = true ∧ o.data ≠ [])) →
    Goes (.memOpComplete eng tag bad) s (finishTag id tag.val stFAULTED 0 (undoLocks id o.took s)))

/-- The ends of a routine (R206 to R211): a commit hands its work over where every slice has room for its lines and stalls
otherwise; FAIL ends the attempt with its outcome; a wake goes to a parked engine; and the watchdog takes an overlong routine.
-/
def Obligations.SkipperRoutineCommandsComplete : Prop :=
  (∀ eng s, (engOf s (Fin.val eng)).st = .running →
    (∀ i ∈ List.range (engOf s eng.val).wbuf.length, damageAt s 7 4 (eng.val + i * 2 ^ 9) = none) →
    Goes (.commit eng) s (if storesRoom s (engOf s eng.val).wbuf = true then handOver eng.val s
      else modEng eng.val (fun e => { e with st := .stalled }) s))
  ∧ (∀ eng s, (engOf s (Fin.val eng)).st = .stalled → storesRoom s (engOf s eng.val).wbuf = true →
    Goes (.commitHandover eng) s (handOver eng.val s))
  ∧ (∀ eng s, (engOf s (Fin.val eng)).st = .running →
    Goes (.fail eng) s (failOutcome eng.val (engOf s eng.val).why true (endRoutine eng.val (discardWork eng.val s))))
  ∧ (∀ eng s, Goes (.unpark eng) s (modEng (Fin.val eng) (fun e =>
      if e.st = .parked then { e with st := .waiting, cycles := e.cycles + 2 } else e) s))
  ∧ (∀ eng s, ((engOf s (Fin.val eng)).st = .stalled ∨ (engOf s eng.val).st = .waiting ∨ (engOf s eng.val).st = .parked) →
    (engOf s eng.val).timedOut = false → fv s 4 4 0 16 16 ≤ (engOf s eng.val).age →
    Goes (.skWatchdog eng) s (loseEngine eng.val (.quiet 7) (raiseFault fkSK_WATCHDOG eng.val s)))

/-- The microwords (R228 to R230, R236, R239): an engine at its program counter fetches its microword and its nanoword and carries them
out; a reserved nanoword is SK_ILLEGAL, a word that cannot be read loses the engine; a stopped cluster is loaded again from
the running microcode; and the scrub reads a word. -/
def Obligations.MicrowordCommandsComplete : Prop :=
  (∀ eng gap s, let id := Fin.val eng
    let u := passCycles id (BitVec.toNat gap) s
    let c := id / 16
    (engOf s id).st = .running →
    let g := useWord (0x07, 1, 3) (0x07, 2, 2) id u
    let m := ucFetch c 0 (engOf s id).pc g.2
    let mw := BitVec.toNat (kget 0 m.2.skip.mw (c * 2 ^ 14 + (engOf s id).pc))
    let n := ucFetch c 1 (bitsOf mw 19 10) m.2
    let w := BitVec.toNat (kget 0 n.2.skip.nw (c * 1024 + bitsOf mw 19 10))
    g.1 = false → m.1 = false → n.1 = false →
    Goes (.microwordExecute eng gap) s
      (if bitsOf mw 19 10 = 0 ∨ nanoReserved w = true then skIllegal id n.2
       else if tagsReady (engOf n.2 id) w = false then poll id n.2 else runWord id mw w n.2))
  ∧ (∀ eng gap s, let id := Fin.val eng
    let u := passCycles id (BitVec.toNat gap) s
    (engOf s id).st = .running →
    let g := useWord (0x07, 1, 3) (0x07, 2, 2) id u
    let m := ucFetch (id / 16) 0 (engOf s id).pc g.2
    g.1 = false → m.1 = true →
    Goes (.microwordExecute eng gap) s (loseEngine id (.quiet 8) m.2))
  ∧ (∀ eng gap s, (engOf s (Fin.val eng)).st = .parked →
    Goes (.microwordExecute eng gap) s (passCycles eng.val (BitVec.toNat gap) s))
  ∧ (∀ cluster s, (clusterOf s (Fin.val cluster)).state = 2 →
    (∀ id ∈ clusterEngines cluster.val, inRoutine (engOf s id) = false) →
    bundleFault s.skip.ucRun (mapOf s.skip.ucRun cluster.val) = none →
    Goes (.ucodeReload cluster) s (loadCluster s.skip.ucRun cluster.val s))
  ∧ (∀ cluster store word s, Goes (.ucodeScrub cluster store word) s
      (ucFetch (Fin.val cluster) (Fin.val store) (BitVec.toNat word) s).2)

/-- The front command of the queue runs: a step of a state with a command at the front of its queue is that command carried
out on the state with the queue's rest; a state with an empty queue idles (the model's choice, log entry 1). No word spells a
command, because the table gives its rows no bits. -/
def Obligations.StepRunsTheFrontCommand : Prop :=
  (∀ (c : Instr) (s : State) rest, step { s with pending := c :: rest } = exec c { s with pending := rest })
  ∧ (∀ s : State, s.pending = [] → step s = .next s)
  ∧ (∀ n w, decodeTableWord n w = none)
  ∧ (∀ (s : State) n w, State.withFetchWord s n w = s)

/-- Every command and every event has an effect: a step never ends in a fault or a refusal, and after the step of a command or
an event the two fault pins agree with the fault states (R457), whatever the state was before. -/
def Obligations.EveryStepGoesOnWithSettledPins : Prop := ∀ s, StepSafe s

/-- R43 to R46: resolution keeps the claims of accepted inputs apart. Whatever inputs are resolved, in whatever order, on
whatever state, two accepted inputs of different sources never claim objects that conflict, but where the later one has rank 0
or 1, which is never superseded. That ranks 0 and 1 are never superseded is the model's reading (log entry 14), as is what
counts as one source (log entry 15). -/
def Obligations.ResolutionKeepsClaimsApart : Prop :=
  ∀ base is r, Apart r.claimed → Apart (resolveAll base is r).claimed

/-- R44 to R46: resolution gives every input of a sample one verdict, in the order of R43, but for a timed action that a cancel
of the same sample has taken away, which gets none (R121); an input of rank 0 or 1 is accepted; an input that is superseded or
refused claims nothing and changes nothing for the inputs after it. That ranks 0 and 1 are never superseded is the model's
reading (log entry 14). -/
def Obligations.ResolutionJudgesEveryInputOnce : Prop :=
  (∀ land is r, ∃ js, (resolveAll land is r).out.map (fun x => x.inp) = r.out.map (fun x => x.inp) ++ js ∧ js.Sublist is
    ∧ js.filter (fun i => notTimed i.body) = is.filter (fun i => notTimed i.body))
  ∧ (∀ land all r i, timedGone r.v i = false → ∃ x, (resolveOne land all r i).out = r.out ++ [x] ∧ x.inp = i)
  ∧ (∀ land all r i, timedGone r.v i = true → resolveOne land all r i = r)
  ∧ (∀ base all r i, i.rank ≤ 1 → timedGone r.v i = false →
    ∃ x, (resolveOne base all r i).out = r.out ++ [x] ∧ x.inp = i ∧ x.verdict = .accepted)
  ∧ (∀ base all r i x, (resolveOne base all r i).out = r.out ++ [x] → x.verdict ≠ .accepted →
    (resolveOne base all r i).v = r.v ∧ (resolveOne base all r i).claimed = r.claimed ∧ x.writes = [])

/-- R65, R67: a fetch takes at most 8 commands, at most 8 in one Fix across the rings, consecutive entries of one ring, and
only as many as the completion ring has free entries; so a completion ring that is not overrun stays so. -/
def Obligations.FetchNeverOverrunsACompletionRing : Prop :=
  ∀ s t, exec .cmdFetch s = .next t →
    (s.host.fetchedThisFix ≤ 8 → t.host.fetchedThisFix ≤ 8)
    ∧ (∀ n, n < 4 → cqTaken (ringOf s n) ≤ ringSize (ringOf s n).cqSize - 1 →
        cqTaken (ringOf t n) ≤ ringSize (ringOf t n).cqSize - 1)
    ∧ (t.out.fetches = s.out.fetches
      ∨ ∃ n k, n < 4 ∧ 0 < k ∧ k ≤ 8 ∧ t.out.fetches = s.out.fetches ++
            [(n, (ringOf s n).head, k, (ringOf s n).base + BitVec.ofNat 64 (64 * (ringOf s n).head))]
          ∧ (ringOf s n).head + k ≤ ringSize (ringOf s n).size
          ∧ t.host.fetchedThisFix = s.host.fetchedThisFix + k
          ∧ (ringOf s n).state = .running ∧ (ringOf s n).enable = true
          ∧ ∀ m, m ≠ n → ringOf t m = ringOf s m)

/-- R72, R73: the checks of a command are made in the order of R72, and the first that fails is the command's status, with no
effect but its completion: BUSY where no command is served, DENIED by the ring or its tenants, BADARG by its form, FAULTED in
GRAVE or with an unreadable payload, NOBUF without buffers, then STALE, BUSY and the opcode's own checks. That BUSY comes
before an unknown opcode, and that a command's row is checked and applied in one Fix, are the model's (log entries 12 and 13).
-/
def Obligations.RefusedCommandsOnlyComplete : Prop :=
  (∀ i op p s st, ringOp i = some (op, p) → firstFailed op p (promise p.src s) = some st →
    Goes i s (flushCpls (complete op.code p (refusal st) s.clock.fix (promise p.src s))))
  ∧ (∀ i op p s q, ringOp i = some (op, p) → firstFailed op p (promise p.src s) = none →
    takePayload (payloadLen op p) (promise p.src s) = (none, q) →
    Goes i s (flushCpls (complete op.code p (outErr stNOBUF) q.clock.fix q)))
  ∧ (∀ i op p s bufs q, ringOp i = some (op, p) → firstFailed op p (promise p.src s) = none →
    takePayload (payloadLen op p) (promise p.src s) = (some bufs, q) →
    let st := if p.target ≠ 0 ∧ (targetDist p q = 0 ∨ 2 ^ 21 ≤ targetDist p q) then stSTALE
      else if p.target ≠ 0 ∧ 4096 ≤ q.ctl.sched.length then stBUSY
      else if op.isMulti = true ∧ 16 ≤ multiTaken q then stBUSY
      else if op.arg q p ≠ 0 then op.arg q p
      else if missesSample p q = true then stSTALE
      else 0
    st ≠ 0 →
    Goes i s (flushCpls (complete op.code p (refusal st) (freePayload bufs q).clock.fix (freePayload bufs q))))

/-- R38, R39: a command whose checks pass and whose TARGET names a later Fix is held for it, with its payload and its place in
the order of such commands, and nothing else happens. That the row of a command is checked in the Fix in progress is the
model's (log entry 13). -/
def Obligations.FutureTargetsAreHeld : Prop :=
  ∀ i op p s bufs q, ringOp i = some (op, p) → firstFailed op p (promise p.src s) = none →
    takePayload (payloadLen op p) (promise p.src s) = (some bufs, q) →
    p.target ≠ 0 → targetDist p q ≠ 0 → targetDist p q < 2 ^ 21 → q.ctl.sched.length < 4096 →
    (op.isMulti = true → multiTaken q < 16) → op.arg q p = 0 → missesSample p q = false →
    let c : Sched := { code := op.code, p := setPriv q p, target := fixOf p.target.toNat, bufs := bufs, ord := q.ctl.serial }
    Goes i s { q with ctl.sched := q.ctl.sched ++ [c], ctl.serial := q.ctl.serial + 1 }

/-- R56, R78: a command without a target whose checks pass is judged again at the boundary: where its tenant is no longer
allowed, or it touches an object of a group that another owner has leased, it completes DENIED without any other effect. Where
the power manager sleeps and the command needs a sleeping domain it waits for the exit instead (R403). That the row of a
command is applied at the boundary of the Fix in progress is the model's (log entry 13). -/
def Obligations.LeasesAndTenantsAreJudgedAtTheBoundary : Prop :=
  (∀ i op p s bufs q, ringOp i = some (op, p) → checkCmd op p (promise p.src s) = (.now bufs, q) →
    needsExit q op.code = false → (op.tenant q p = false ∨ leaseBlocks q (ownerOf p.src) (op.touch q p) = true) →
    Goes i s (answer op p bufs (ended op stDENIED) q))
  ∧ (∀ i op p s bufs q, ringOp i = some (op, p) → checkCmd op p (promise p.src s) = (.now bufs, q) →
    needsExit q op.code = true →
    let c : Sched := { code := op.code, p := setPriv q p, target := q.clock.fix, bufs := bufs, ord := q.ctl.serial }
    Goes i s (orderExit { q with ctl.serial := q.ctl.serial + 1, pwr.held := q.pwr.held ++ [c] }))

/-- R69: for the completions that a ring has gathered, the entries are written first, in their order and at consecutive places
of the completion ring, then the new tail at the shadow address, then the interrupt where one of them asks for it. -/
def Obligations.CompletionsAreWrittenInOrder : Prop :=
  ∀ n s, n < 4 → s.host.rings.length = 4 →
    let r := ringOf s n
    let cs := (s.ctl.cpls.filter (fun e => e.1 == n)).map (fun e => e.2)
    let size := ringSize r.cqSize
    cs ≠ [] → r.cqTail < size → cs.length ≤ r.promised →
    let entries := cs.zipIdx.map (fun c =>
      let i := (r.cqTail + c.2) % size
      HostWrite.cpl (Fin.ofNat 4 n) i (r.cqBase + BitVec.ofNat 64 (16 * i)) (cplBytes c.1))
    let tail := (r.cqTail + cs.length) % size
    let shadow := if r.shadow = 0 then [] else [HostWrite.mem r.shadow (leBytes 4 tail)]
    let masked := (kget (2 ^ 96 : BitVec 128) s.host.msix r.irq.toNat).getLsbD 96
    let irq := if cs.any (fun c => c.irq) = true ∧ masked = false then [HostWrite.msix r.irq] else []
    (flushRing n s).out.host = s.out.host ++ entries ++ shadow ++ irq
    ∧ (ringOf (flushRing n s) n).cqTail = tail
    ∧ (ringOf (flushRing n s) n).promised = r.promised - cs.length
    ∧ ∀ m, m ≠ n → ringOf (flushRing n s) m = ringOf s m

/-- Frame of the read commands: whether the command is carried out, refused or held, it leaves everything as it was but for
its own answer; no byte of the HBM, no table, no counter of a block and no port changes. -/
def Obligations.ReadCommandsChangeNothing : Prop :=
  ∀ i op p, ringOp i = some (op, p) →
    op.code ∈ [0x0001, 0x0013, 0x0030, 0x0100, 0x0202, 0x0204, 0x0311, 0x0301, 0x0321, 0x0340, 0x0402, 0x0405,
      0x0500, 0x0501, 0x0505, 0x0511, 0x0512, 0x0600, 0x0601, 0x0602, 0x0700, 0x0701, 0x0702, 0x0703, 0x0800, 0x0804, 0x0900, 0x0901,
      0x0902, 0x0903, 0x0A00, 0x0A01, 0x0A04, 0x0B02, 0x0B04, 0x0C02, 0x0C05, 0x0D00, 0x0E02, 0x0E08,
      0x0F02] →
    ∀ s, ∃ t, exec i s = .next t ∧ onlyPresented s t

/-- The bytes of the HBM: what has been written into a region is read back, every other byte of every region is as before, and
the list of bytes keeps its canonical form. What an unlisted byte reads as is the model's choice (log entry 9) and no clause
rests on it. -/
def Obligations.HbmReadsBackWhatWasWritten : Prop :=
  ∀ s region a bs, a + bs.length ≤ 2 ^ 40 → memWf s.hbm.mem = true →
    memWf (hbmWrite region a bs s).hbm.mem = true
    ∧ hbmRead (hbmWrite region a bs s) region a bs.length = bs
    ∧ (∀ region' a' n, a' + n ≤ 2 ^ 40 → (region' ≠ region ∨ a' + n ≤ a ∨ a + bs.length ≤ a') →
        hbmRead (hbmWrite region a bs s) region' a' n = hbmRead s region' a' n)

/-- R201 to R206: no operation of a Skipper but ATOM writes memory before the routine commits. A lock, a read of an extension
line, a buffered write and the answers change no byte of the HBM, no cached record, no packet, no queue, no buffer and no other
engine; an operation that reads its bucket leaves every byte outside that bucket as it was, where a damaged empty slot that the
read finds is made good (R170). -/
def Obligations.SkipperWritesAreBuffered : Prop :=
  ∀ (eng : Fin 512) (tag : Fin 8) (s : State),
    (∀ i, (∃ b, i = .lock eng tag b) ∨ (∃ b u l m, i = .bwrite eng tag b u l m) ∨ (∃ a w l, i = .xread eng tag a w l)
        ∨ (∃ a l m c, i = .xwrite eng tag a l m c) ∨ (∃ l, i = .place eng tag l) ∨ (∃ r, i = .skPoolFree eng tag r)
        ∨ (∃ l, i = .telem eng tag l) ∨ i = .timeread eng tag →
      ∃ t, exec i s = .next t ∧ t.hbm.mem = s.hbm.mem ∧ t.sw = s.sw ∧ t.pools = s.pools ∧ t.met = s.met ∧ t.pair = s.pair
        ∧ t.flow = { s.flow with slices := t.flow.slices }
        ∧ (∀ id, id ≠ eng.val → engOf t id = engOf s id))
    ∧ (∀ i bucket, (∃ l, i = .lockr eng tag bucket l) ∨ (∃ l, i = .bread eng tag bucket l) → memWf s.hbm.mem = true →
      ∃ t, exec i s = .next t ∧ t.sw = s.sw ∧ t.pools = s.pools ∧ t.met = s.met ∧ t.pair = s.pair
        ∧ t.flow = { s.flow with slices := t.flow.slices, refuse := t.flow.refuse, exFixed := t.flow.exFixed }
        ∧ (∀ id, id ≠ eng.val → engOf t id = engOf s id)
        ∧ (∀ region a n, a + n ≤ 2 ^ 40 →
            (region ≠ 0 ∨ a + n ≤ BitVec.toNat bucket * 128 ∨ bucket.toNat * 128 + 128 ≤ a) →
            hbmRead t region a n = hbmRead s region a n))

/-- Table 9.5: the results of the ALU on two 64-bit operands. The carry that the table leaves open is a free value (log entry
44) and no clause speaks of it. -/
def Obligations.AluComputesTable95 : Prop :=
  ∀ (s : State) (id : Nat) (a b : U64) (z : Bool),
    alu s id 0 a.toNat b.toNat z = (b.toNat, none)
    ∧ alu s id 1 a.toNat b.toNat z = ((a + b).toNat, some (decide (2 ^ 64 ≤ a.toNat + b.toNat)))
    ∧ alu s id 2 a.toNat b.toNat z = ((a - b).toNat, some (decide (a.toNat < b.toNat)))
    ∧ alu s id 3 a.toNat b.toNat z = ((a &&& b).toNat, none)
    ∧ alu s id 4 a.toNat b.toNat z = ((a ||| b).toNat, none)
    ∧ alu s id 5 a.toNat b.toNat z = ((a ^^^ b).toNat, none)
    ∧ alu s id 6 a.toNat b.toNat z = ((a <<< (b.toNat % 64)).toNat, none)
    ∧ alu s id 7 a.toNat b.toNat z = ((a >>> (b.toNat % 64)).toNat, none)
    ∧ alu s id 8 a.toNat b.toNat z = ((a.sshiftRight (b.toNat % 64)).toNat, none)
    ∧ alu s id 9 a.toNat b.toNat z = (if a.toNat ≤ b.toNat then a.toNat else b.toNat, none)
    ∧ alu s id 10 a.toNat b.toNat z = (if a.toNat ≤ b.toNat then b.toNat else a.toNat, none)
    ∧ alu s id 11 a.toNat b.toNat z = (if z = true then a.toNat else b.toNat, none)
    ∧ alu s id 12 a.toNat b.toNat z
        = (a.toNat / 2 ^ (b.toNat % 64) % 2 ^ (b.toNat / 64 % 64 + 1), none)
    ∧ alu s id 15 a.toNat b.toNat z = ((a * b).toNat, none)
    ∧ (∃ n, alu s id 14 a.toNat b.toNat z = (n, none) ∧ n ≤ 64 ∧ a.toNat < 2 ^ (64 - n) ∧ (n < 64 → 2 ^ (63 - n) ≤ a.toNat))

/-- Frame of the control events: doorbells and rings, direct registers, the PCI Express link, port training and hold times,
pause timers, Meridian's pins and servo, clock gates and the JTAG port change no packet, queue, table, record, engine, buffer
pool or byte of the HBM, in any state. -/
def Obligations.ControlEventsLeaveTheDataPath : Prop :=
  ∀ i, (∃ n v, i = .cmdDoorbell n v) ∨ (∃ n v, i = .cqHeadWrite n v) ∨ (∃ n, i = .dberrRead n) ∨ (∃ n, i = .ringEnable n)
      ∨ (∃ n, i = .ringDisable n) ∨ i = .cmdFetch ∨ (∃ v, i = .faultHeadWrite v) ∨ (∃ l v, i = .macStickyClear l v)
      ∨ i = .stepCountRead ∨ i = .wrapTaiLoRead ∨ (∃ c, i = .perfValLoRead c) ∨ (∃ g w, i = .pcieLinkUp g w)
      ∨ i = .perstNRelease ∨ (∃ p n, i = .downHoldExpire p n) ∨ (∃ p n, i = .upHoldExpire p n) ∨ (∃ p, i = .negotiateDone p)
      ∨ (∃ p, i = .trainDone p) ∨ (∃ p, i = .trainFail p) ∨ (∃ p n, i = .alignmentAcquired p n)
      ∨ (∃ p q n, i = .pauseTimerExpire p q n) ∨ i = .anchorRewrite ∨ (∃ n, i = .ppsOutRise n) ∨ (∃ n, i = .ppsOutFall n)
      ∨ (∃ c r n, i = .timeCapEdge c r n) ∨ i = .syncTimeout ∨ i = .holdoverLimitExpire ∨ i = .ppsInMissing
      ∨ i = .bypass ∨ i = .idcode ∨ i = .extest ∨ i = .clamp ∨ i = .highz →
    ∀ s, ∃ t, exec i s = .next t ∧ DataPathSame s t

/-- R49, R50: CFG_STAGE stages every entry of the command or none. A request for a field whose staged copy belongs to another
owner is BUSY, one that does not fit in the 16,384 entries is NOBUF, and both leave the store as it was; otherwise each field
of the request has one staged copy, the owner's, with the value that the command gives it last, every other copy is kept, and
a field never gets a second copy. -/
def Obligations.StagingIsAllOrNothing : Prop :=
  ∀ p s bufs q, Admitted opCfgStage p s bufs q →
    (∀ e ∈ stageEntries_ p, portFieldOk q e.1 = true) →
    let es := stageEntries_ p
    let o := ownerOf p.src
    let new := dedupN ((es.map (fun e => e.1)).filter (fun x => !(q.ctl.staging.any (fun y => y.obj == x))))
    ∃ st t, Goes (.cfgStage p) s (answer opCfgStage p bufs st t)
      ∧ ((∃ e ∈ es, ∃ y ∈ q.ctl.staging, y.obj = e.1 ∧ y.owner ≠ o) → st = outErr stBUSY ∧ t = q)
      ∧ ((∀ e ∈ es, ∀ y ∈ q.ctl.staging, y.obj = e.1 → y.owner = o) → 16384 < q.ctl.staging.length + new.length →
          st = outErr stNOBUF ∧ t = q)
      ∧ ((∀ e ∈ es, ∀ y ∈ q.ctl.staging, y.obj = e.1 → y.owner = o) → q.ctl.staging.length + new.length ≤ 16384 →
          st = outOk es.length ∧ t = { q with ctl.staging := t.ctl.staging }
          ∧ (∀ e ∈ es, ∃ y ∈ t.ctl.staging, y.obj = e.1 ∧ y.owner = o)
          ∧ (∀ y ∈ q.ctl.staging, (∀ e ∈ es, e.1 ≠ y.obj) → y ∈ t.ctl.staging)
          ∧ (∀ pre e post, es = pre ++ e :: post → (∀ x ∈ post, x.1 ≠ e.1) → ∀ y ∈ t.ctl.staging, y.obj = e.1 →
              y.value = BitVec.ofNat 64 e.2))
      ∧ ((q.ctl.staging.map (fun y => y.obj)).Nodup → (t.ctl.staging.map (fun y => y.obj)).Nodup)
      ∧ (q.ctl.staging.length ≤ 16384 → t.ctl.staging.length ≤ 16384)

/-- The state right after reset (R59, R78, R413, R445, R457; Tables 3.4, 4.3, 5.1): nothing is configured, staged or leased, ring 1
may address no tenant, the rings are disabled and idle, every lane number is a disabled port, the chip is in Flight with every
domain powered, the two fault pins are released, the time outputs are low, every counter is 0, and no byte of memory is
listed. That no byte of memory is listed rests on the model's choice of log entry 9. -/
def Obligations.ResetHoldsTheSpecsValues : Prop :=
  State.reset.ctl.cfg = [] ∧ State.reset.ctl.staging = [] ∧ State.reset.ctl.leases = [] ∧ State.reset.ctl.tenants = []
  ∧ (∀ n, n < 4 → (ringOf State.reset n).enable = false ∧ (ringOf State.reset n).state = .idle
      ∧ (ringOf State.reset n).head = 0 ∧ (ringOf State.reset n).tail = 0 ∧ (ringOf State.reset n).promised = 0)
  ∧ (∀ p, (portOf State.reset p).st = .disabled)
  ∧ State.reset.pwr.st = .flight ∧ State.reset.pwr.transit = none
  ∧ State.reset.lod.isoFault = false ∧ State.reset.lod.errN = false ∧ State.reset.lod.grave = false
  ∧ State.reset.mer.ppsOut = false ∧ State.reset.mer.stepCount = 0
  ∧ State.reset.perf.counters = [] ∧ State.reset.hbm.mem = [] ∧ State.reset.pending = []

/-- The reset state meets the invariants that the other statements speak of: the fault pins agree with the fault states, the
memory is in its canonical form, the claims are apart, no completion ring is overrun, there are four rings, and no field has
two staged copies. -/
def Obligations.ResetMeetsTheInvariants : Prop :=
  Settled State.reset ∧ memWf State.reset.hbm.mem = true ∧ Apart (State.reset.ctl.claimed)
  ∧ State.reset.host.rings.length = 4
  ∧ (∀ n, n < 4 → cqTaken (ringOf State.reset n) ≤ ringSize (ringOf State.reset n).cqSize - 1)
  ∧ State.reset.host.fetchedThisFix ≤ 8
  ∧ (State.reset.ctl.staging.map (fun y => y.obj)).Nodup ∧ State.reset.ctl.staging.length ≤ 16384
end

