-- ==== Sys2Proof/Laws/Command.lean ====
section
/-! SUPPORT. What a command packet does, said once: the checks pass and its body's reply decides what follows. -/

namespace Sys2Proof.Machine

open Sys2Proof

@[simp] theorem promise_ctl (c : CmdSrc) (s : State) : (promise c s).ctl = s.ctl := by cases c <;> rfl
@[simp] theorem promise_lod (c : CmdSrc) (s : State) : (promise c s).lod = s.lod := by cases c <;> rfl
@[simp] theorem authOf_promise (c d : CmdSrc) (s : State) : authOf (promise c s) d = authOf s d := by
  cases c <;> rfl

theorem earlyCheck_none {op : Op} {p : CmdPkt} {s : State}
    (h1 : s.ctl.ready = true) (h2 : s.ctl.restarting = false) (h3 : op.rings.contains (authOf s p.src) = true)
    (h4 : op.tenant s p = true) (h5 : formOk op p = true) (h6 : s.lod.grave = true → op.isRead = true ∨ op.code = 0x0E01)
    (h7 : hasPayloadIn op p = true → p.payload.isSome = true) : earlyCheck op p s = none := by
  have h6' : (s.lod.grave && !op.isRead && op.code != 0x0E01) = false := by
    cases hg : s.lod.grave
    · rfl
    · rcases h6 hg with h | h <;> simp [h]
  have h7' : (hasPayloadIn op p && p.payload.isNone) = false := by
    cases hp : hasPayloadIn op p
    · rfl
    · have := h7 hp
      cases hq : p.payload <;> simp_all
  unfold earlyCheck
  simp only [h1, h2, h3, h4, h5, h6', h7']
  simp

theorem lateCheck_none {op : Op} {p : CmdPkt} {s : State} (h1 : p.target = 0)
    (h2 : op.isMulti = true → multiTaken s < 16) (h3 : op.arg s p = 0) : lateCheck op p s = none := by
  have h2' : ¬((op.isMulti && decide (16 ≤ multiTaken s)) = true) := by
    cases hm : op.isMulti
    · simp
    · have := h2 hm
      simp; omega
  unfold lateCheck missesSample
  simp only [h1, h3, if_neg h2']
  simp

/-- The checks of an admitted command pass: it goes on with its payload buffers. -/
theorem checkCmd_admitted {op : Op} {p : CmdPkt} {s q : State} {bufs : List Nat} (h : Admitted op p s bufs q) :
    checkCmd op p (promise p.src s) = (.now bufs, q) := by
  obtain ⟨h1, h2, h3, h4, h5, h6, h7, h8, h9, h10, h11, -⟩ := h
  have he : earlyCheck op p (promise p.src s) = none :=
    earlyCheck_none (by simpa using h1) (by simpa using h2) (by simpa using h3) h4 h5 (by simpa using h6) h7
  unfold checkCmd
  simp only [he, h8, lateCheck_none h9 h10 h11, h9, if_true]

/-- What a command that its boundary accepts leaves, by its body's reply. -/
def bodyLeft (op : Op) (p : CmdPkt) (bufs : List Nat) (q : State) : State :=
  match op.body p bufs q with
  | (t, .done o) =>
    if p.paramLen.toNat < o.data.length then finishCmd op p bufs (ended op stBADARG) q else finishCmd op p bufs o t
  | (t, .multi m) => { t with ctl.multi := t.ctl.multi ++ [{ m with ord := t.ctl.serial }] }
  | (t, .wait) => t

theorem applyCmd_accepted {op : Op} {p : CmdPkt} {bufs : List Nat} {q : State} (h1 : op.tenant q p = true)
    (h2 : leaseBlocks q (ownerOf p.src) (op.touch q p) = false) : applyCmd op p bufs q = bodyLeft op p bufs q := by
  unfold applyCmd bodyLeft
  rw [h1, h2]
  rfl

/-- An admitted command takes effect through its body alone. -/
theorem runCommand_admitted {op : Op} {p : CmdPkt} {s q : State} {bufs : List Nat} (h : Admitted op p s bufs q) :
    runCommand op p s = flushCpls (bodyLeft op p bufs q) := by
  have hc := checkCmd_admitted h
  obtain ⟨-, -, -, -, -, -, -, -, -, -, -, h12, h13, h14⟩ := h
  rw [← applyCmd_accepted h13 h14]
  unfold runCommand
  simp only [hc, h12, Bool.false_eq_true, if_false]

/-- An admitted command whose body is done answers. -/
theorem goes_answer {i : Instr} {op : Op} {p : CmdPkt} {s q t : State} {bufs : List Nat} {o : CmdOut}
    (he : exec i s = finish (runCommand op p s)) (h : Admitted op p s bufs q) (hb : op.body p bufs q = (t, .done o))
    (hf : Fits p o) : Goes i s (answer op p bufs o t) := by
  have hf' : ¬ p.paramLen.toNat < o.data.length := Nat.not_lt.mpr hf
  simp only [Goes, he, runCommand_admitted h, bodyLeft, hb, hf', if_false, finish, answer]

/-- An admitted command whose body starts a multi-Fix command is under way. -/
theorem goes_underWay {i : Instr} {op : Op} {p : CmdPkt} {s q t : State} {bufs : List Nat} {m : Multi}
    (he : exec i s = finish (runCommand op p s)) (h : Admitted op p s bufs q) (hb : op.body p bufs q = (t, .multi m)) :
    Goes i s (underWay m t) := by
  simp only [Goes, he, runCommand_admitted h, bodyLeft, hb, finish]; rfl

/-- An admitted command that completes later leaves what its body left. -/
theorem goes_waits {i : Instr} {op : Op} {p : CmdPkt} {s q t : State} {bufs : List Nat}
    (he : exec i s = finish (runCommand op p s)) (h : Admitted op p s bufs q) (hb : op.body p bufs q = (t, .wait)) :
    Goes i s (flushCpls t) := by
  simp only [Goes, he, runCommand_admitted h, bodyLeft, hb, finish]

end Sys2Proof.Machine
end

