-- ==== Sys2Proof/Laws/Exec.lean ====
section
/-! SUPPORT. Each arm of the dispatch, once: what the command or event does, ended by `finish`. -/

namespace Sys2Proof.Machine

open Sys2Proof

@[simp] theorem exec_fixBoundary (env : BoundaryEnv) (s : State) :
    exec (.fixBoundary env) s = finish (doFixBoundary env s) := rfl
@[simp] theorem exec_sampleClose (s : State) :
    exec .sampleClose s = finish (doSampleClose s) := rfl
@[simp] theorem exec_leaseExpired (s : State) :
    exec .leaseExpired s = finish (doLeaseExpired s) := rfl
@[simp] theorem exec_multiFixTimeout (s : State) :
    exec .multiFixTimeout s = finish (doMultiFixTimeout s) := rfl
@[simp] theorem exec_genDrainStuck (s : State) :
    exec .genDrainStuck s = finish (doGenDrainStuck s) := rfl
@[simp] theorem exec_quietPeriodEnd (src : Fin 23) (cls : Fin 4) (s : State) :
    exec (.quietPeriodEnd src cls) s = finish (doQuietPeriodEnd src cls s) := rfl
@[simp] theorem exec_tenantDrainEnd (tenant : BitVec 24) (s : State) :
    exec (.tenantDrainEnd tenant) s = finish (doTenantDrainEnd tenant s) := rfl
@[simp] theorem exec_sysInfo (p : CmdPkt) (s : State) :
    exec (.sysInfo p) s = finish (runCommand opSysInfo p s) := rfl
@[simp] theorem exec_cfgStage (p : CmdPkt) (s : State) :
    exec (.cfgStage p) s = finish (runCommand opCfgStage p s) := rfl
@[simp] theorem exec_cfgCommit (p : CmdPkt) (s : State) :
    exec (.cfgCommit p) s = finish (runCommand opCfgCommit p s) := rfl
@[simp] theorem exec_cfgAbort (p : CmdPkt) (s : State) :
    exec (.cfgAbort p) s = finish (runCommand opCfgAbort p s) := rfl
@[simp] theorem exec_cfgRead (p : CmdPkt) (s : State) :
    exec (.cfgRead p) s = finish (runCommand opCfgRead p s) := rfl
@[simp] theorem exec_leaseTake (p : CmdPkt) (s : State) :
    exec (.leaseTake p) s = finish (runCommand opLeaseTake p s) := rfl
@[simp] theorem exec_leaseRelease (p : CmdPkt) (s : State) :
    exec (.leaseRelease p) s = finish (runCommand opLeaseRelease p s) := rfl
@[simp] theorem exec_apJournalRead (p : CmdPkt) (s : State) :
    exec (.apJournalRead p) s = finish (runCommand opApJournalRead p s) := rfl
@[simp] theorem exec_ringTenantSet (p : CmdPkt) (s : State) :
    exec (.ringTenantSet p) s = finish (runCommand opRingTenantSet p s) := rfl
@[simp] theorem exec_inbandKeySet (p : CmdPkt) (s : State) :
    exec (.inbandKeySet p) s = finish (runCommand opInbandKeySet p s) := rfl
@[simp] theorem exec_inbandConfig (p : CmdPkt) (s : State) :
    exec (.inbandConfig p) s = finish (runCommand opInbandConfig p s) := rfl
@[simp] theorem exec_portRead (p : CmdPkt) (s : State) :
    exec (.portRead p) s = finish (runCommand opPortRead p s) := rfl
@[simp] theorem exec_timedArm (p : CmdPkt) (s : State) :
    exec (.timedArm p) s = finish (runCommand opTimedArm p s) := rfl
@[simp] theorem exec_timedCancel (p : CmdPkt) (s : State) :
    exec (.timedCancel p) s = finish (runCommand opTimedCancel p s) := rfl
@[simp] theorem exec_timedRead (p : CmdPkt) (s : State) :
    exec (.timedRead p) s = finish (runCommand opTimedRead p s) := rfl
@[simp] theorem exec_timeCapRead (p : CmdPkt) (s : State) :
    exec (.timeCapRead p) s = finish (runCommand opTimeCapRead p s) := rfl
@[simp] theorem exec_timeStatus (p : CmdPkt) (s : State) :
    exec (.timeStatus p) s = finish (runCommand opTimeStatus p s) := rfl
@[simp] theorem exec_timeSet (p : CmdPkt) (s : State) :
    exec (.timeSet p) s = finish (runCommand opTimeSet p s) := rfl
@[simp] theorem exec_parseNodeWrite (p : CmdPkt) (s : State) :
    exec (.parseNodeWrite p) s = finish (runCommand opParseNodeWrite p s) := rfl
@[simp] theorem exec_parseNodeRead (p : CmdPkt) (s : State) :
    exec (.parseNodeRead p) s = finish (runCommand opParseNodeRead p s) := rfl
@[simp] theorem exec_rulesetSwap (p : CmdPkt) (s : State) :
    exec (.rulesetSwap p) s = finish (runCommand opRulesetSwap p s) := rfl
@[simp] theorem exec_rulesetStatus (p : CmdPkt) (s : State) :
    exec (.rulesetStatus p) s = finish (runCommand opRulesetStatus p s) := rfl
@[simp] theorem exec_clsEntryWrite (p : CmdPkt) (s : State) :
    exec (.clsEntryWrite p) s = finish (runCommand opClsEntryWrite p s) := rfl
@[simp] theorem exec_clsEntryRead (p : CmdPkt) (s : State) :
    exec (.clsEntryRead p) s = finish (runCommand opClsEntryRead p s) := rfl
@[simp] theorem exec_pmPatternWrite (p : CmdPkt) (s : State) :
    exec (.pmPatternWrite p) s = finish (runCommand opPmPatternWrite p s) := rfl
@[simp] theorem exec_pmBuild (p : CmdPkt) (s : State) :
    exec (.pmBuild p) s = finish (runCommand opPmBuild p s) := rfl
@[simp] theorem exec_pmCopy (p : CmdPkt) (s : State) :
    exec (.pmCopy p) s = finish (runCommand opPmCopy p s) := rfl
@[simp] theorem exec_pipeStatsRead (p : CmdPkt) (s : State) :
    exec (.pipeStatsRead p) s = finish (runCommand opPipeStatsRead p s) := rfl
@[simp] theorem exec_flowInsert (p : CmdPkt) (s : State) :
    exec (.flowInsert p) s = finish (runCommand opFlowInsert p s) := rfl
@[simp] theorem exec_flowDelete (p : CmdPkt) (s : State) :
    exec (.flowDelete p) s = finish (runCommand opFlowDelete p s) := rfl
@[simp] theorem exec_flowRead (p : CmdPkt) (s : State) :
    exec (.flowRead p) s = finish (runCommand opFlowRead p s) := rfl
@[simp] theorem exec_flowModify (p : CmdPkt) (s : State) :
    exec (.flowModify p) s = finish (runCommand opFlowModify p s) := rfl
@[simp] theorem exec_flowPurgeTenant (p : CmdPkt) (s : State) :
    exec (.flowPurgeTenant p) s = finish (runCommand opFlowPurgeTenant p s) := rfl
@[simp] theorem exec_flowStatsRead (p : CmdPkt) (s : State) :
    exec (.flowStatsRead p) s = finish (runCommand opFlowStatsRead p s) := rfl
@[simp] theorem exec_flowEventRead (p : CmdPkt) (s : State) :
    exec (.flowEventRead p) s = finish (runCommand opFlowEventRead p s) := rfl
@[simp] theorem exec_flowFind (p : CmdPkt) (s : State) :
    exec (.flowFind p) s = finish (runCommand opFlowFind p s) := rfl
@[simp] theorem exec_skipStatusRead (p : CmdPkt) (s : State) :
    exec (.skipStatusRead p) s = finish (runCommand opSkipStatusRead p s) := rfl
@[simp] theorem exec_skipStatsRead (p : CmdPkt) (s : State) :
    exec (.skipStatsRead p) s = finish (runCommand opSkipStatsRead p s) := rfl
@[simp] theorem exec_skipRun (p : CmdPkt) (s : State) :
    exec (.skipRun p) s = finish (runCommand opSkipRun p s) := rfl
@[simp] theorem exec_skipReset (p : CmdPkt) (s : State) :
    exec (.skipReset p) s = finish (runCommand opSkipReset p s) := rfl
@[simp] theorem exec_skipTelemRead (p : CmdPkt) (s : State) :
    exec (.skipTelemRead p) s = finish (runCommand opSkipTelemRead p s) := rfl
@[simp] theorem exec_lbRead (p : CmdPkt) (s : State) :
    exec (.lbRead p) s = finish (runCommand opLbRead p s) := rfl
@[simp] theorem exec_ucodeLoad (p : CmdPkt) (s : State) :
    exec (.ucodeLoad p) s = finish (runCommand opUcodeLoad p s) := rfl
@[simp] theorem exec_ucodeInfo (p : CmdPkt) (s : State) :
    exec (.ucodeInfo p) s = finish (runCommand opUcodeInfo p s) := rfl
@[simp] theorem exec_ucodeRead (p : CmdPkt) (s : State) :
    exec (.ucodeRead p) s = finish (runCommand opUcodeRead p s) := rfl
@[simp] theorem exec_scStatusRead (p : CmdPkt) (s : State) :
    exec (.scStatusRead p) s = finish (runCommand opScStatusRead p s) := rfl
@[simp] theorem exec_scStatsRead (p : CmdPkt) (s : State) :
    exec (.scStatsRead p) s = finish (runCommand opScStatsRead p s) := rfl
@[simp] theorem exec_scPortStatsRead (p : CmdPkt) (s : State) :
    exec (.scPortStatsRead p) s = finish (runCommand opScPortStatsRead p s) := rfl
@[simp] theorem exec_captureRingSet (p : CmdPkt) (s : State) :
    exec (.captureRingSet p) s = finish (runCommand opCaptureRingSet p s) := rfl
@[simp] theorem exec_tmSampleRead (p : CmdPkt) (s : State) :
    exec (.tmSampleRead p) s = finish (runCommand opTmSampleRead p s) := rfl
@[simp] theorem exec_tmQstatsRead (p : CmdPkt) (s : State) :
    exec (.tmQstatsRead p) s = finish (runCommand opTmQstatsRead p s) := rfl
@[simp] theorem exec_tmPolRead (p : CmdPkt) (s : State) :
    exec (.tmPolRead p) s = finish (runCommand opTmPolRead p s) := rfl
@[simp] theorem exec_tmStatsRead (p : CmdPkt) (s : State) :
    exec (.tmStatsRead p) s = finish (runCommand opTmStatsRead p s) := rfl
@[simp] theorem exec_poolStatsRead (p : CmdPkt) (s : State) :
    exec (.poolStatsRead p) s = finish (runCommand opPoolStatsRead p s) := rfl
@[simp] theorem exec_poolAcctRead (p : CmdPkt) (s : State) :
    exec (.poolAcctRead p) s = finish (runCommand opPoolAcctRead p s) := rfl
@[simp] theorem exec_poolAlloc (p : CmdPkt) (s : State) :
    exec (.poolAlloc p) s = finish (runCommand opPoolAlloc p s) := rfl
@[simp] theorem exec_poolFree (p : CmdPkt) (s : State) :
    exec (.poolFree p) s = finish (runCommand opPoolFree p s) := rfl
@[simp] theorem exec_poolOwnerRead (p : CmdPkt) (s : State) :
    exec (.poolOwnerRead p) s = finish (runCommand opPoolOwnerRead p s) := rfl
@[simp] theorem exec_hbmStatusRead (p : CmdPkt) (s : State) :
    exec (.hbmStatusRead p) s = finish (runCommand opHbmStatusRead p s) := rfl
@[simp] theorem exec_hbmStatsRead (p : CmdPkt) (s : State) :
    exec (.hbmStatsRead p) s = finish (runCommand opHbmStatsRead p s) := rfl
@[simp] theorem exec_arbStatsRead (p : CmdPkt) (s : State) :
    exec (.arbStatsRead p) s = finish (runCommand opArbStatsRead p s) := rfl
@[simp] theorem exec_hbmRegionInfo (p : CmdPkt) (s : State) :
    exec (.hbmRegionInfo p) s = finish (runCommand opHbmRegionInfo p s) := rfl
@[simp] theorem exec_hbmRetrain (p : CmdPkt) (s : State) :
    exec (.hbmRetrain p) s = finish (runCommand opHbmRetrain p s) := rfl
@[simp] theorem exec_meterStatsRead (p : CmdPkt) (s : State) :
    exec (.meterStatsRead p) s = finish (runCommand opMeterStatsRead p s) := rfl
@[simp] theorem exec_meterCloseInfo (p : CmdPkt) (s : State) :
    exec (.meterCloseInfo p) s = finish (runCommand opMeterCloseInfo p s) := rfl
@[simp] theorem exec_billingSign (p : CmdPkt) (s : State) :
    exec (.billingSign p) s = finish (runCommand opBillingSign p s) := rfl
@[simp] theorem exec_billRingSet (p : CmdPkt) (s : State) :
    exec (.billRingSet p) s = finish (runCommand opBillRingSet p s) := rfl
@[simp] theorem exec_billBlockRead (p : CmdPkt) (s : State) :
    exec (.billBlockRead p) s = finish (runCommand opBillBlockRead p s) := rfl
@[simp] theorem exec_pairStatusRead (p : CmdPkt) (s : State) :
    exec (.pairStatusRead p) s = finish (runCommand opPairStatusRead p s) := rfl
@[simp] theorem exec_pairRole (p : CmdPkt) (s : State) :
    exec (.pairRole p) s = finish (runCommand opPairRole p s) := rfl
@[simp] theorem exec_pairStatsRead (p : CmdPkt) (s : State) :
    exec (.pairStatsRead p) s = finish (runCommand opPairStatsRead p s) := rfl
@[simp] theorem exec_pairResync (p : CmdPkt) (s : State) :
    exec (.pairResync p) s = finish (runCommand opPairResync p s) := rfl
@[simp] theorem exec_pairHeadRead (p : CmdPkt) (s : State) :
    exec (.pairHeadRead p) s = finish (runCommand opPairHeadRead p s) := rfl
@[simp] theorem exec_faultLogRead (p : CmdPkt) (s : State) :
    exec (.faultLogRead p) s = finish (runCommand opFaultLogRead p s) := rfl
@[simp] theorem exec_faultRelease (p : CmdPkt) (s : State) :
    exec (.faultRelease p) s = finish (runCommand opFaultRelease p s) := rfl
@[simp] theorem exec_faultStatusRead (p : CmdPkt) (s : State) :
    exec (.faultStatusRead p) s = finish (runCommand opFaultStatusRead p s) := rfl
@[simp] theorem exec_faultInjectUnlock (p : CmdPkt) (s : State) :
    exec (.faultInjectUnlock p) s = finish (runCommand opFaultInjectUnlock p s) := rfl
@[simp] theorem exec_faultInject (p : CmdPkt) (s : State) :
    exec (.faultInject p) s = finish (runCommand opFaultInject p s) := rfl
@[simp] theorem exec_isoTenantRead (p : CmdPkt) (s : State) :
    exec (.isoTenantRead p) s = finish (runCommand opIsoTenantRead p s) := rfl
@[simp] theorem exec_powerStatusRead (p : CmdPkt) (s : State) :
    exec (.powerStatusRead p) s = finish (runCommand opPowerStatusRead p s) := rfl
@[simp] theorem exec_powerPolicy (p : CmdPkt) (s : State) :
    exec (.powerPolicy p) s = finish (runCommand opPowerPolicy p s) := rfl
@[simp] theorem exec_attest (p : CmdPkt) (s : State) :
    exec (.attest p) s = finish (runCommand opAttest p s) := rfl
@[simp] theorem exec_imageInfo (p : CmdPkt) (s : State) :
    exec (.imageInfo p) s = finish (runCommand opImageInfo p s) := rfl
@[simp] theorem exec_imageStage (p : CmdPkt) (s : State) :
    exec (.imageStage p) s = finish (runCommand opImageStage p s) := rfl
@[simp] theorem exec_imageAccept (p : CmdPkt) (s : State) :
    exec (.imageAccept p) s = finish (runCommand opImageAccept p s) := rfl
@[simp] theorem exec_imageFlash (p : CmdPkt) (s : State) :
    exec (.imageFlash p) s = finish (runCommand opImageFlash p s) := rfl
@[simp] theorem exec_chipReset (p : CmdPkt) (s : State) :
    exec (.chipReset p) s = finish (runCommand opChipReset p s) := rfl
@[simp] theorem exec_imageFuse (p : CmdPkt) (s : State) :
    exec (.imageFuse p) s = finish (runCommand opImageFuse p s) := rfl
@[simp] theorem exec_certRead (p : CmdPkt) (s : State) :
    exec (.certRead p) s = finish (runCommand opCertRead p s) := rfl
@[simp] theorem exec_perfRead (p : CmdPkt) (s : State) :
    exec (.perfRead p) s = finish (runCommand opPerfRead p s) := rfl
@[simp] theorem exec_monRingSet (p : CmdPkt) (s : State) :
    exec (.monRingSet p) s = finish (runCommand opMonRingSet p s) := rfl
@[simp] theorem exec_monStatsRead (p : CmdPkt) (s : State) :
    exec (.monStatsRead p) s = finish (runCommand opMonStatsRead p s) := rfl
@[simp] theorem exec_cmdDoorbell (ring : Fin 4) (value : U32) (s : State) :
    exec (.cmdDoorbell ring value) s = finish (doCmdDoorbell ring value s) := rfl
@[simp] theorem exec_cqHeadWrite (ring : Fin 4) (value : U32) (s : State) :
    exec (.cqHeadWrite ring value) s = finish (doCqHeadWrite ring value s) := rfl
@[simp] theorem exec_ringEnable (ring : Fin 4) (s : State) :
    exec (.ringEnable ring) s = finish (doRingEnable ring s) := rfl
@[simp] theorem exec_ringDisable (ring : Fin 4) (s : State) :
    exec (.ringDisable ring) s = finish (doRingDisable ring s) := rfl
@[simp] theorem exec_dberrRead (ring : Fin 4) (s : State) :
    exec (.dberrRead ring) s = finish (doDberrRead ring s) := rfl
@[simp] theorem exec_cmdFetch (s : State) :
    exec .cmdFetch s = finish (doCmdFetch s) := rfl
@[simp] theorem exec_cmdFetchDone (ring : Fin 4) (res : FetchResult) (s : State) :
    exec (.cmdFetchDone ring res) s = finish (doCmdFetchDone ring res s) := rfl
@[simp] theorem exec_functionLevelReset (s : State) :
    exec .functionLevelReset s = finish (doFunctionLevelReset s) := rfl
@[simp] theorem exec_pcieLinkReset (kind : Fin 4) (s : State) :
    exec (.pcieLinkReset kind) s = finish (doPcieLinkReset kind s) := rfl
@[simp] theorem exec_perstNRelease (s : State) :
    exec .perstNRelease s = finish (doPerstNRelease s) := rfl
@[simp] theorem exec_registerWrite (bar2 : Bool) (off : BitVec 26) (wide : Bool) (full : Bool) (data : U64) (s : State) :
    exec (.registerWrite bar2 off wide full data) s = finish (doRegisterWrite bar2 off wide full data s) := rfl
@[simp] theorem exec_faultHeadWrite (value : U32) (s : State) :
    exec (.faultHeadWrite value) s = finish (doFaultHeadWrite value s) := rfl
@[simp] theorem exec_macStickyClear (lane : Fin 128) (value : U32) (s : State) :
    exec (.macStickyClear lane value) s = finish (doMacStickyClear lane value s) := rfl
@[simp] theorem exec_stepCountRead (s : State) :
    exec .stepCountRead s = finish (doStepCountRead s) := rfl
@[simp] theorem exec_wrapTaiLoRead (s : State) :
    exec .wrapTaiLoRead s = finish (doWrapTaiLoRead s) := rfl
@[simp] theorem exec_perfValLoRead (counter : BitVec 8) (s : State) :
    exec (.perfValLoRead counter) s = finish (doPerfValLoRead counter s) := rfl
@[simp] theorem exec_bootGo (s : State) :
    exec .bootGo s = finish (doBootGo s) := rfl
@[simp] theorem exec_powerOn (s : State) :
    exec .powerOn s = finish (doPowerOn s) := rfl
@[simp] theorem exec_vddAonLoss (s : State) :
    exec .vddAonLoss s = finish (doVddAonLoss s) := rfl
@[simp] theorem exec_sysRstAssert (s : State) :
    exec .sysRstAssert s = finish (doSysRstAssert s) := rfl
@[simp] theorem exec_sysRstRelease (bootSrc : BitVec 2) (ftest : Bool) (pairPresent : Bool) (s : State) :
    exec (.sysRstRelease bootSrc ftest pairPresent) s = finish (doSysRstRelease bootSrc ftest pairPresent s) := rfl
@[simp] theorem exec_bootRomTestDone (otpBad : Option (BitVec 12)) (keyOk : Bool) (rngBad : Option (BitVec 4)) (s : State) :
    exec (.bootRomTestDone otpBad keyOk rngBad) s = finish (doBootRomTestDone otpBad keyOk rngBad s) := rfl
@[simp] theorem exec_imageHeadersRead (a : Option Bytes) (b : Option Bytes) (s : State) :
    exec (.imageHeadersRead a b) s = finish (doImageHeadersRead a b s) := rfl
@[simp] theorem exec_imageBodyReadDone (body : Option Bytes) (s : State) :
    exec (.imageBodyReadDone body) s = finish (doImageBodyReadDone body s) := rfl
@[simp] theorem exec_binnacleStarted (s : State) :
    exec .binnacleStarted s = finish (doBinnacleStarted s) := rfl
@[simp] theorem exec_startupHbmDone (dead : List (Fin 192)) (s : State) :
    exec (.startupHbmDone dead) s = finish (doStartupHbmDone dead s) := rfl
@[simp] theorem exec_startupUcodeDone (s : State) :
    exec .startupUcodeDone s = finish (doStartupUcodeDone s) := rfl
@[simp] theorem exec_binnacleReady (s : State) :
    exec .binnacleReady s = finish (doBinnacleReady s) := rfl
@[simp] theorem exec_binnacleRestartDone (s : State) :
    exec .binnacleRestartDone s = finish (doBinnacleRestartDone s) := rfl
@[simp] theorem exec_frameReceiveStart (port : Fin 128) (t16 : BitVec 14) (frame : Bytes) (fifoFull : Bool) (s : State) :
    exec (.frameReceiveStart port t16 frame fifoFull) s = finish (doFrameReceiveStart port t16 frame fifoFull s) := rfl
@[simp] theorem exec_frameCellArrive (port : Fin 128) (s : State) :
    exec (.frameCellArrive port) s = finish (doFrameCellArrive port s) := rfl
@[simp] theorem exec_frameReceiveEnd (port : Fin 128) (pcs : PcsReport) (s : State) :
    exec (.frameReceiveEnd port pcs) s = finish (doFrameReceiveEnd port pcs s) := rfl
@[simp] theorem exec_parseStart (pk : Nat) (bad : Option (Fin 12)) (laneFree : Bool) (s : State) :
    exec (.parseStart pk bad laneFree) s = finish (doParseStart pk bad laneFree s) := rfl
@[simp] theorem exec_recircPassStart (pipe : Fin 4) (bad : Option (Fin 12)) (laneFree : Bool) (s : State) :
    exec (.recircPassStart pipe bad laneFree) s = finish (doRecircPassStart pipe bad laneFree s) := rfl
@[simp] theorem exec_flowLookup (pk : Nat) (lane : Bool) (s : State) :
    exec (.flowLookup pk lane) s = finish (doFlowLookup pk lane s) := rfl
@[simp] theorem exec_flowBucketReturn (pk : Nat) (bad : BitVec 2) (lane : Bool) (s : State) :
    exec (.flowBucketReturn pk bad lane) s = finish (doFlowBucketReturn pk bad lane s) := rfl
@[simp] theorem exec_lookupAnswer (pk : Nat) (bad : Option (Fin 12)) (s : State) :
    exec (.lookupAnswer pk bad) s = finish (doLookupAnswer pk bad s) := rfl
@[simp] theorem exec_decideReenter (pk : Nat) (bad : Option (Fin 12)) (s : State) :
    exec (.decideReenter pk bad) s = finish (doDecideReenter pk bad s) := rfl
@[simp] theorem exec_stage12Exit (pk : Nat) (ns : BitVec 10) (s : State) :
    exec (.stage12Exit pk ns) s = finish (doStage12Exit pk ns s) := rfl
@[simp] theorem exec_mcReplicate (pipe : Fin 4) (s : State) :
    exec (.mcReplicate pipe) s = finish (doMcReplicate pipe s) := rfl
@[simp] theorem exec_egressSelect (port : Fin 128) (t16 : BitVec 14) (halfBad : Bool) (s : State) :
    exec (.egressSelect port t16 halfBad) s = finish (doEgressSelect port t16 halfBad s) := rfl
@[simp] theorem exec_egressCellSend (port : Fin 128) (cell : BitVec 19) (trailerBad : Bool) (halfBad : Bool) (s : State) :
    exec (.egressCellSend port cell trailerBad halfBad) s = finish (doEgressCellSend port cell trailerBad halfBad s) := rfl
@[simp] theorem exec_copyTxDone (port : Fin 128) (ns : BitVec 10) (s : State) :
    exec (.copyTxDone port ns) s = finish (doCopyTxDone port ns s) := rfl
@[simp] theorem exec_pfcFrameSend (port : Fin 128) (s : State) :
    exec (.pfcFrameSend port) s = finish (doPfcFrameSend port s) := rfl
@[simp] theorem exec_pauseRefresh (port : Fin 128) (s : State) :
    exec (.pauseRefresh port) s = finish (doPauseRefresh port s) := rfl
@[simp] theorem exec_pauseFrameReceived (port : Fin 128) (ns : BitVec 10) (pfc : Bool) (vec : Byte) (times : List U16) (s : State) :
    exec (.pauseFrameReceived port ns pfc vec times) s = finish (doPauseFrameReceived port ns pfc vec times s) := rfl
@[simp] theorem exec_pauseTimerExpire (port : Fin 128) (prio : Fin 8) (ns : BitVec 10) (s : State) :
    exec (.pauseTimerExpire port prio ns) s = finish (doPauseTimerExpire port prio ns s) := rfl
@[simp] theorem exec_flushRelease (port : Fin 128) (cells : BitVec 13) (s : State) :
    exec (.flushRelease port cells) s = finish (doFlushRelease port cells s) := rfl
@[simp] theorem exec_flushStuck (port : Fin 128) (s : State) :
    exec (.flushStuck port) s = finish (doFlushStuck port s) := rfl
@[simp] theorem exec_linkLoss (port : Fin 128) (ns : BitVec 10) (kind : Fin 3) (s : State) :
    exec (.linkLoss port ns kind) s = finish (doLinkLoss port ns kind s) := rfl
@[simp] theorem exec_downHoldExpire (port : Fin 128) (ns : BitVec 10) (s : State) :
    exec (.downHoldExpire port ns) s = finish (doDownHoldExpire port ns s) := rfl
@[simp] theorem exec_upHoldExpire (port : Fin 128) (ns : BitVec 10) (s : State) :
    exec (.upHoldExpire port ns) s = finish (doUpHoldExpire port ns s) := rfl
@[simp] theorem exec_negotiateDone (port : Fin 128) (s : State) :
    exec (.negotiateDone port) s = finish (doNegotiateDone port s) := rfl
@[simp] theorem exec_trainDone (port : Fin 128) (s : State) :
    exec (.trainDone port) s = finish (doTrainDone port s) := rfl
@[simp] theorem exec_trainFail (port : Fin 128) (s : State) :
    exec (.trainFail port) s = finish (doTrainFail port s) := rfl
@[simp] theorem exec_alignLost (port : Fin 128) (ns : BitVec 10) (kind : Fin 3) (s : State) :
    exec (.alignLost port ns kind) s = finish (doAlignLost port ns kind s) := rfl
@[simp] theorem exec_ptpMessageReceived (port : Fin 128) (pk : Nat) (servo : Option ServoIn) (s : State) :
    exec (.ptpMessageReceived port pk servo) s = finish (doPtpMessageReceived port pk servo s) := rfl
@[simp] theorem exec_ptpMessageSend (port : Fin 128) (dst : BitVec 48) (hdr : Bytes) (msg : Bytes) (s : State) :
    exec (.ptpMessageSend port dst hdr msg) s = finish (doPtpMessageSend port dst hdr msg s) := rfl
@[simp] theorem exec_followUpSend (port : Fin 128) (dst : BitVec 48) (hdr : Bytes) (msg : Bytes) (s : State) :
    exec (.followUpSend port dst hdr msg) s = finish (doFollowUpSend port dst hdr msg s) := rfl
@[simp] theorem exec_syncTimeout (s : State) :
    exec .syncTimeout s = finish (doSyncTimeout s) := rfl
@[simp] theorem exec_holdoverLimitExpire (s : State) :
    exec .holdoverLimitExpire s = finish (doHoldoverLimitExpire s) := rfl
@[simp] theorem exec_anchorRewrite (s : State) :
    exec .anchorRewrite s = finish (doAnchorRewrite s) := rfl
@[simp] theorem exec_ppsOutRise (ns : BitVec 10) (s : State) :
    exec (.ppsOutRise ns) s = finish (doPpsOutRise ns s) := rfl
@[simp] theorem exec_ppsOutFall (ns : BitVec 10) (s : State) :
    exec (.ppsOutFall ns) s = finish (doPpsOutFall ns s) := rfl
@[simp] theorem exec_timeCapEdge (ch : Fin 2) (rising : Bool) (ns : BitVec 10) (s : State) :
    exec (.timeCapEdge ch rising ns) s = finish (doTimeCapEdge ch rising ns s) := rfl
@[simp] theorem exec_ppsInEdge (ns : BitVec 10) (addend : U64) (s : State) :
    exec (.ppsInEdge ns addend) s = finish (doPpsInEdge ns addend s) := rfl
@[simp] theorem exec_ppsInMissing (s : State) :
    exec .ppsInMissing s = finish (doPpsInMissing s) := rfl
@[simp] theorem exec_timedActionFire (slot : Fin 64) (ns : BitVec 10) (s : State) :
    exec (.timedActionFire slot ns) s = finish (doTimedActionFire slot ns s) := rfl
@[simp] theorem exec_timedPulseFall (slot : Fin 64) (ns : BitVec 10) (s : State) :
    exec (.timedPulseFall slot ns) s = finish (doTimedPulseFall slot ns s) := rfl
@[simp] theorem exec_minuteArm (s : State) :
    exec .minuteArm s = finish (doMinuteArm s) := rfl
@[simp] theorem exec_meterSeal (s : State) :
    exec .meterSeal s = finish (doMeterSeal s) := rfl
@[simp] theorem exec_billingHashDone (s : State) :
    exec .billingHashDone s = finish (doBillingHashDone s) := rfl
@[simp] theorem exec_ckptWriteDone (s : State) :
    exec .ckptWriteDone s = finish (doCkptWriteDone s) := rfl
@[simp] theorem exec_ckptLate (s : State) :
    exec .ckptLate s = finish (doCkptLate s) := rfl
@[simp] theorem exec_billRingDeliver (s : State) :
    exec .billRingDeliver s = finish (doBillRingDeliver s) := rfl
@[simp] theorem exec_loglineDeliver (s : State) :
    exec .loglineDeliver s = finish (doLoglineDeliver s) := rfl
@[simp] theorem exec_soundDeliver (s : State) :
    exec .soundDeliver s = finish (doSoundDeliver s) := rfl
@[simp] theorem exec_monRecordDeliver (s : State) :
    exec .monRecordDeliver s = finish (doMonRecordDeliver s) := rfl
@[simp] theorem exec_cacheCleanerWriteback (slice : Fin 4) (s : State) :
    exec (.cacheCleanerWriteback slice) s = finish (doCacheCleanerWriteback slice s) := rfl
@[simp] theorem exec_moverAttempt (slice : Fin 4) (s : State) :
    exec (.moverAttempt slice) s = finish (doMoverAttempt slice s) := rfl
@[simp] theorem exec_ageScan (slice : Fin 4) (s : State) :
    exec (.ageScan slice) s = finish (doAgeScan slice s) := rfl
@[simp] theorem exec_exiledUpdate (slice : Fin 4) (s : State) :
    exec (.exiledUpdate slice) s = finish (doExiledUpdate slice s) := rfl
@[simp] theorem exec_microwordExecute (eng : Fin 512) (gap : U32) (s : State) :
    exec (.microwordExecute eng gap) s = finish (doMicrowordExecute eng gap s) := rfl
@[simp] theorem exec_lock (eng : Fin 512) (tag : Fin 8) (bucket : U32) (s : State) :
    exec (.lock eng tag bucket) s = finish (doLock eng tag bucket s) := rfl
@[simp] theorem exec_lockr (eng : Fin 512) (tag : Fin 8) (bucket : U32) (loc : BitVec 10) (s : State) :
    exec (.lockr eng tag bucket loc) s = finish (doLockr eng tag bucket loc s) := rfl
@[simp] theorem exec_lockset (eng : Fin 512) (tag : Fin 8) (loc : BitVec 10) (s : State) :
    exec (.lockset eng tag loc) s = finish (doLockset eng tag loc s) := rfl
@[simp] theorem exec_bread (eng : Fin 512) (tag : Fin 8) (bucket : U32) (loc : BitVec 10) (s : State) :
    exec (.bread eng tag bucket loc) s = finish (doBread eng tag bucket loc s) := rfl
@[simp] theorem exec_bwrite (eng : Fin 512) (tag : Fin 8) (bucket : U32) (unit : Fin 2) (loc : BitVec 10) (mask : U64) (s : State) :
    exec (.bwrite eng tag bucket unit loc mask) s = finish (doBwrite eng tag bucket unit loc mask s) := rfl
@[simp] theorem exec_xread (eng : Fin 512) (tag : Fin 8) (addr : U64) (two : Bool) (loc : BitVec 10) (s : State) :
    exec (.xread eng tag addr two loc) s = finish (doXread eng tag addr two loc s) := rfl
@[simp] theorem exec_xwrite (eng : Fin 512) (tag : Fin 8) (addr : U64) (loc : BitVec 10) (mask : U64) (cover : U32) (s : State) :
    exec (.xwrite eng tag addr loc mask cover) s = finish (doXwrite eng tag addr loc mask cover s) := rfl
@[simp] theorem exec_atom (eng : Fin 512) (tag : Fin 8) (kind : Fin 3) (addr : U64) (operand : U64) (s : State) :
    exec (.atom eng tag kind addr operand) s = finish (doAtom eng tag kind addr operand s) := rfl
@[simp] theorem exec_place (eng : Fin 512) (tag : Fin 8) (loc : BitVec 10) (s : State) :
    exec (.place eng tag loc) s = finish (doPlace eng tag loc s) := rfl
@[simp] theorem exec_skPoolAlloc (eng : Fin 512) (tag : Fin 8) (pool : Fin 8) (owner : BitVec 12) (s : State) :
    exec (.skPoolAlloc eng tag pool owner) s = finish (doSkPoolAlloc eng tag pool owner s) := rfl
@[simp] theorem exec_skPoolFree (eng : Fin 512) (tag : Fin 8) (ref : U32) (s : State) :
    exec (.skPoolFree eng tag ref) s = finish (doSkPoolFree eng tag ref s) := rfl
@[simp] theorem exec_pktNext (eng : Fin 512) (tag : Fin 8) (loc : BitVec 10) (s : State) :
    exec (.pktNext eng tag loc) s = finish (doPktNext eng tag loc s) := rfl
@[simp] theorem exec_lbpick (eng : Fin 512) (tag : Fin 8) (pool : U32) (hash : U32) (loc : U32) (s : State) :
    exec (.lbpick eng tag pool hash loc) s = finish (doLbpick eng tag pool hash loc s) := rfl
@[simp] theorem exec_telem (eng : Fin 512) (tag : Fin 8) (loc : BitVec 10) (s : State) :
    exec (.telem eng tag loc) s = finish (doTelem eng tag loc s) := rfl
@[simp] theorem exec_timeread (eng : Fin 512) (tag : Fin 8) (s : State) :
    exec (.timeread eng tag) s = finish (doTimeread eng tag s) := rfl
@[simp] theorem exec_commit (eng : Fin 512) (s : State) :
    exec (.commit eng) s = finish (doCommit eng s) := rfl
@[simp] theorem exec_commitHandover (eng : Fin 512) (s : State) :
    exec (.commitHandover eng) s = finish (doCommitHandover eng s) := rfl
@[simp] theorem exec_fail (eng : Fin 512) (s : State) :
    exec (.fail eng) s = finish (doFail eng s) := rfl
@[simp] theorem exec_memOpComplete (eng : Fin 512) (tag : Fin 8) (bad : Bool) (s : State) :
    exec (.memOpComplete eng tag bad) s = finish (doMemOpComplete eng tag bad s) := rfl
@[simp] theorem exec_lockGrant (bucket : BitVec 28) (cycles : U32) (s : State) :
    exec (.lockGrant bucket cycles) s = finish (doLockGrant bucket cycles s) := rfl
@[simp] theorem exec_lockTimeout (eng : Fin 512) (tag : Fin 8) (cycles : U32) (s : State) :
    exec (.lockTimeout eng tag cycles) s = finish (doLockTimeout eng tag cycles s) := rfl
@[simp] theorem exec_unpark (eng : Fin 512) (s : State) :
    exec (.unpark eng) s = finish (doUnpark eng s) := rfl
@[simp] theorem exec_skWatchdog (eng : Fin 512) (s : State) :
    exec (.skWatchdog eng) s = finish (doSkWatchdog eng s) := rfl
@[simp] theorem exec_ucodeReload (cluster : Fin 32) (s : State) :
    exec (.ucodeReload cluster) s = finish (doUcodeReload cluster s) := rfl
@[simp] theorem exec_ucodeScrub (cluster : Fin 32) (store : Fin 3) (word : BitVec 14) (s : State) :
    exec (.ucodeScrub cluster store word) s = finish (doUcodeScrub cluster store word s) := rfl
@[simp] theorem exec_poolRequest (start : Fin 46) (reqs : List PoolReq) (s : State) :
    exec (.poolRequest start reqs) s = finish (doPoolRequest start reqs s) := rfl
@[simp] theorem exec_bufferFree (owner : BitVec 12) (ref : U32) (s : State) :
    exec (.bufferFree owner ref) s = finish (doBufferFree owner ref s) := rfl
@[simp] theorem exec_cellAuditVisit (lost : List (BitVec 19)) (s : State) :
    exec (.cellAuditVisit lost) s = finish (doCellAuditVisit lost s) := rfl
@[simp] theorem exec_hbmRequest (port : Fin 43) (req : HbmReq) (s : State) :
    exec (.hbmRequest port req) s = finish (doHbmRequest port req s) := rfl
@[simp] theorem exec_hbmGrant (stack : Fin 6) (s : State) :
    exec (.hbmGrant stack) s = finish (doHbmGrant stack s) := rfl
@[simp] theorem exec_hbmCommandIssue (pc : Fin 192) (ready : List (Fin 16)) (s : State) :
    exec (.hbmCommandIssue pc ready) s = finish (doHbmCommandIssue pc ready s) := rfl
@[simp] theorem exec_hbmReadReturn (pc : Fin 192) (s : State) :
    exec (.hbmReadReturn pc) s = finish (doHbmReadReturn pc s) := rfl
@[simp] theorem exec_rowHoldExpire (pc : Fin 192) (bank : Fin 16) (s : State) :
    exec (.rowHoldExpire pc bank) s = finish (doRowHoldExpire pc bank s) := rfl
@[simp] theorem exec_pageIdleClose (pc : Fin 192) (bank : Fin 16) (s : State) :
    exec (.pageIdleClose pc bank) s = finish (doPageIdleClose pc bank s) := rfl
@[simp] theorem exec_writeAgeExpire (pc : Fin 192) (s : State) :
    exec (.writeAgeExpire pc) s = finish (doWriteAgeExpire pc s) := rfl
@[simp] theorem exec_refreshDue (pc : Fin 192) (bank : Fin 16) (s : State) :
    exec (.refreshDue pc bank) s = finish (doRefreshDue pc bank s) := rfl
@[simp] theorem exec_pdIdleEnter (pc : Fin 192) (s : State) :
    exec (.pdIdleEnter pc) s = finish (doPdIdleEnter pc s) := rfl
@[simp] theorem exec_srIdleEnter (pc : Fin 192) (s : State) :
    exec (.srIdleEnter pc) s = finish (doSrIdleEnter pc s) := rfl
@[simp] theorem exec_patrolScrub (pc : Fin 192) (line : BitVec 23) (s : State) :
    exec (.patrolScrub pc line) s = finish (doPatrolScrub pc line s) := rfl
@[simp] theorem exec_faultMessage (m : Option FaultMsg) (s : State) :
    exec (.faultMessage m) s = finish (doFaultMessage m s) := rfl
@[simp] theorem exec_inbandFrameReceived (port : Fin 128) (pk : Nat) (s : State) :
    exec (.inbandFrameReceived port pk) s = finish (doInbandFrameReceived port pk s) := rfl
@[simp] theorem exec_rhDataReceived (frame : Bytes) (s : State) :
    exec (.rhDataReceived frame) s = finish (doRhDataReceived frame s) := rfl
@[simp] theorem exec_rhAckReceived (frame : Bytes) (s : State) :
    exec (.rhAckReceived frame) s = finish (doRhAckReceived frame s) := rfl
@[simp] theorem exec_rhHeartbeatReceived (frame : Bytes) (beat : RhBeat) (s : State) :
    exec (.rhHeartbeatReceived frame beat) s = finish (doRhHeartbeatReceived frame beat s) := rfl
@[simp] theorem exec_rhHelloReceived (frame : Bytes) (hello : RhHello) (s : State) :
    exec (.rhHelloReceived frame hello) s = finish (doRhHelloReceived frame hello s) := rfl
@[simp] theorem exec_rhClaimReceived (frame : Bytes) (home : Fin 2) (epoch : U32) (s : State) :
    exec (.rhClaimReceived frame home epoch) s = finish (doRhClaimReceived frame home epoch s) := rfl
@[simp] theorem exec_rhClaimAckReceived (frame : Bytes) (home : Fin 2) (epoch : U32) (status : Byte) (s : State) :
    exec (.rhClaimAckReceived frame home epoch status) s = finish (doRhClaimAckReceived frame home epoch status s) := rfl
@[simp] theorem exec_rhDataSend (s : State) :
    exec .rhDataSend s = finish (doRhDataSend s) := rfl
@[simp] theorem exec_rhAckSend (s : State) :
    exec .rhAckSend s = finish (doRhAckSend s) := rfl
@[simp] theorem exec_rhRetransmitTimeout (s : State) :
    exec .rhRetransmitTimeout s = finish (doRhRetransmitTimeout s) := rfl
@[simp] theorem exec_peerLost (s : State) :
    exec .peerLost s = finish (doPeerLost s) := rfl
@[simp] theorem exec_pairLanesAligned (s : State) :
    exec .pairLanesAligned s = finish (doPairLanesAligned s) := rfl
@[simp] theorem exec_rhAlignLost (s : State) :
    exec .rhAlignLost s = finish (doRhAlignLost s) := rfl
@[simp] theorem exec_resyncSweep (s : State) :
    exec .resyncSweep s = finish (doResyncSweep s) := rfl
@[simp] theorem exec_powerEntryDone (s : State) :
    exec .powerEntryDone s = finish (doPowerEntryDone s) := rfl
@[simp] theorem exec_powerExitDone (s : State) :
    exec .powerExitDone s = finish (doPowerExitDone s) := rfl
@[simp] theorem exec_domainPowerFail (d : Fin 64) (s : State) :
    exec (.domainPowerFail d) s = finish (doDomainPowerFail d s) := rfl
@[simp] theorem exec_clockGate (d : Fin 64) (s : State) :
    exec (.clockGate d) s = finish (doClockGate d s) := rfl
@[simp] theorem exec_clockUngate (d : Fin 64) (s : State) :
    exec (.clockUngate d) s = finish (doClockUngate d s) := rfl
@[simp] theorem exec_refclkSdsLoss (clk : Fin 2) (ns : BitVec 10) (s : State) :
    exec (.refclkSdsLoss clk ns) s = finish (doRefclkSdsLoss clk ns s) := rfl
@[simp] theorem exec_bypass (s : State) :
    exec .bypass s = finish (doBypass s) := rfl
@[simp] theorem exec_idcode (s : State) :
    exec .idcode s = finish (doIdcode s) := rfl
@[simp] theorem exec_samplePreload (bits : Bytes) (s : State) :
    exec (.samplePreload bits) s = finish (doSamplePreload bits s) := rfl
@[simp] theorem exec_extest (s : State) :
    exec .extest s = finish (doExtest s) := rfl
@[simp] theorem exec_clamp (s : State) :
    exec .clamp s = finish (doClamp s) := rfl
@[simp] theorem exec_highz (s : State) :
    exec .highz s = finish (doHighz s) := rfl
@[simp] theorem exec_alignmentAcquired (port : Fin 128) (ns : BitVec 10) (s : State) :
    exec (.alignmentAcquired port ns) s = finish (doAlignmentAcquired port ns s) := rfl
@[simp] theorem exec_refclkSdsRestored (clk : Fin 2) (s : State) :
    exec (.refclkSdsRestored clk) s = finish (doRefclkSdsRestored clk s) := rfl
@[simp] theorem exec_pcieLinkUp (gen : Fin 4) (width : Fin 4) (s : State) :
    exec (.pcieLinkUp gen width) s = finish (doPcieLinkUp gen width s) := rfl

end Sys2Proof.Machine
end

