-- ==== Sys2Proof/Laws/Lists.lean ====
section
/-! SUPPORT. Lists at a place, maps by key, and the bytes of a memory: what a write leaves where. -/

namespace Sys2Proof.Machine

open Sys2Proof

/-! ### Lists -/

/-- A change at a place depends only on the element there. -/
theorem modAt_at {α : Type} (d : α) (f : α → α) (l : List α) (n : Nat) :
    modAt l n f = modAt l n (fun _ => f (l.getD n d)) := by
  induction l generalizing n with
  | nil => rfl
  | cons x xs ih =>
    cases n with
    | zero => rfl
    | succ n => simp only [modAt]; rw [ih n]; rfl

theorem modAt_congr {α : Type} (d : α) {f g : α → α} (l : List α) (n : Nat) (h : f (l.getD n d) = g (l.getD n d)) :
    modAt l n f = modAt l n g := by
  rw [modAt_at d f, modAt_at d g, h]

@[simp] theorem length_modAt {α : Type} (l : List α) (n : Nat) (f : α → α) : (modAt l n f).length = l.length := by
  induction l generalizing n with
  | nil => rfl
  | cons x xs ih => cases n <;> simp [modAt, ih]

theorem getD_modAt {α : Type} (d : α) (l : List α) (n k : Nat) (f : α → α) :
    (modAt l n f).getD k d = if k = n ∧ n < l.length then f (l.getD n d) else l.getD k d := by
  induction l generalizing n k with
  | nil => simp [modAt]
  | cons x xs ih =>
    cases n with
    | zero => cases k <;> simp [modAt]
    | succ n =>
      cases k with
      | zero => simp [modAt]
      | succ k => simpa [modAt, List.getD_cons_succ] using ih n k

/-! ### Maps by key -/

theorem kfind_kput {α : Type} (m : KMap α) (x y : Nat) (v : α) :
    kfind (kput m x v) y = if x = y then some v else kfind m y := by
  induction m with
  | nil => rfl
  | cons e m ih =>
    obtain ⟨k, w⟩ := e
    unfold kput
    by_cases h1 : x < k
    · simp [h1, kfind]
    · by_cases h2 : k = x
      · subst h2
        simp only [Nat.lt_irrefl, if_false, if_true, kfind]
        by_cases h : k = y <;> simp [h]
      · simp only [h1, h2, if_false, kfind, ih]
        by_cases h : k = y
        · subst h; simp [Ne.symm h2]
        · simp [h]

/-! ### The bytes of a memory -/

theorem memSorted_le {m : List Host.Cell} {lo k : Nat} (h : memSorted lo m = true) (hk : k ≤ lo) : memSorted k m = true := by
  cases m with
  | nil => rfl
  | cons c m =>
    simp only [memSorted, Bool.and_eq_true, decide_eq_true_eq] at h ⊢
    exact ⟨Nat.le_trans hk h.1, h.2⟩

/-- Below the first address a memory lists nothing. -/
theorem kfind_of_sorted {m : List Host.Cell} {lo a : Nat} (h : memSorted lo m = true) (ha : a < lo) :
    kfind m a = none := by
  induction m generalizing lo with
  | nil => rfl
  | cons c m ih =>
    simp only [memSorted, Bool.and_eq_true, decide_eq_true_eq] at h
    have hn : c.1 ≠ a := by omega
    simp only [kfind, hn, if_false]
    exact ih h.2 (by omega)

theorem kfind_kdel {m : List Host.Cell} {lo : Nat} (h : memSorted lo m = true) (x y : Nat) :
    kfind (kdel m x) y = if x = y then none else kfind m y := by
  induction m generalizing lo with
  | nil => simp [kdel, kfind]
  | cons c m ih =>
    simp only [memSorted, Bool.and_eq_true, decide_eq_true_eq] at h
    by_cases hx : c.1 = x
    · simp only [kdel, hx, if_true, kfind]
      by_cases hy : x = y
      · subst hy
        simp only [if_true]
        exact kfind_of_sorted h.2 (by omega)
      · simp [hy]
    · simp only [kdel, hx, if_false, kfind, ih h.2]
      by_cases hy : c.1 = y
      · have : x ≠ y := fun e => hx (hy.trans e.symm)
        simp [hy, this]
      · simp [hy]

theorem kdel_sorted {m : List Host.Cell} {lo : Nat} (h : memSorted lo m = true) (x : Nat) : memSorted lo (kdel m x) = true := by
  induction m generalizing lo with
  | nil => rfl
  | cons c m ih =>
    simp only [memSorted, Bool.and_eq_true, decide_eq_true_eq] at h
    by_cases hx : c.1 = x
    · simp only [kdel, hx, if_true]
      exact memSorted_le h.2 (by omega)
    · simp only [kdel, hx, if_false, memSorted, Bool.and_eq_true, decide_eq_true_eq]
      exact ⟨h.1, ih h.2⟩

theorem kput_sorted {m : List Host.Cell} {lo : Nat} (h : memSorted lo m = true) (x : Nat) (v : Byte) (hx : lo ≤ x) :
    memSorted lo (kput m x v) = true := by
  induction m generalizing lo with
  | nil => simp [kput, memSorted, hx]
  | cons c m ih =>
    simp only [memSorted, Bool.and_eq_true, decide_eq_true_eq] at h
    unfold kput
    by_cases h1 : x < c.1
    · simp only [h1, if_true, memSorted, Bool.and_eq_true, decide_eq_true_eq]
      exact ⟨hx, by omega, h.2⟩
    · by_cases h2 : c.1 = x
      · subst h2
        simp only [Nat.lt_irrefl, if_false, if_true, memSorted, Bool.and_eq_true, decide_eq_true_eq]
        exact ⟨hx, h.2⟩
      · simp only [h1, h2, if_false, memSorted, Bool.and_eq_true, decide_eq_true_eq]
        exact ⟨h.1, ih h.2 (by omega)⟩

theorem kdel_all {m : List Host.Cell} {q : Host.Cell → Bool} (h : m.all q = true) (x : Nat) : (kdel m x).all q = true := by
  induction m with
  | nil => rfl
  | cons c m ih =>
    simp only [List.all_cons, Bool.and_eq_true] at h
    unfold kdel
    by_cases hx : c.1 = x
    · simp only [hx, if_true]; exact h.2
    · simp only [hx, if_false, List.all_cons, Bool.and_eq_true]; exact ⟨h.1, ih h.2⟩

theorem kput_all {m : List Host.Cell} {q : Host.Cell → Bool} (h : m.all q = true) (x : Nat) (v : Byte) (hv : q (x, v) = true) :
    (kput m x v).all q = true := by
  induction m with
  | nil => simp [kput, hv]
  | cons c m ih =>
    have h' := h
    simp only [List.all_cons, Bool.and_eq_true] at h
    unfold kput
    by_cases h1 : x < c.1
    · simp only [h1, if_true, List.all_cons, hv, h.1, h.2, Bool.and_self]
    · by_cases h2 : c.1 = x
      · subst h2
        simp only [Nat.lt_irrefl, if_false, if_true, List.all_cons, hv, h.2, Bool.and_self]
      · simp only [h1, h2, if_false, List.all_cons, h.1, ih h.2, Bool.and_self]

/-- Writing one byte keeps the canonical form. -/
theorem memPut_wf {m : List Host.Cell} (h : memWf m = true) (a : Nat) (b : Byte) : memWf (memPut m a b) = true := by
  simp only [memWf, Bool.and_eq_true] at h ⊢
  unfold memPut kset
  by_cases hb : b = 0
  · simp only [hb, if_true]
    exact ⟨kdel_sorted h.1 a, kdel_all h.2 a⟩
  · simp only [hb, if_false]
    exact ⟨kput_sorted h.1 a b (Nat.zero_le a), kput_all h.2 a b (by simpa using hb)⟩

/-- Writing bytes keeps the canonical form. -/
theorem memWriteN_wf {m : List Host.Cell} (h : memWf m = true) (a : Nat) (bs : Bytes) : memWf (memWriteN m a bs) = true := by
  induction bs generalizing m a with
  | nil => exact h
  | cons b bs ih => exact ih (memPut_wf h a b) (a + 1)

/-- A byte reads as written, and every other byte as before. -/
theorem memByte_memPut {m : List Host.Cell} (h : memWf m = true) (a c : Nat) (b : Byte) :
    memByte (memPut m a b) c = if a = c then b else memByte m c := by
  simp only [memWf, Bool.and_eq_true] at h
  unfold memByte memPut kset kget
  by_cases hb : b = 0
  · simp only [hb, if_true, kfind_kdel h.1]
    by_cases hc : a = c <;> simp [hc]
  · simp only [hb, if_false, kfind_kput]
    by_cases hc : a = c <;> simp [hc]

/-- Bytes outside a write read as before. -/
theorem memByte_memWriteN_other {m : List Host.Cell} (h : memWf m = true) (a c : Nat) (bs : Bytes)
    (hc : c < a ∨ a + bs.length ≤ c) : memByte (memWriteN m a bs) c = memByte m c := by
  induction bs generalizing m a with
  | nil => rfl
  | cons b bs ih =>
    simp only [List.length_cons] at hc
    have hn : a ≠ c := by omega
    show memByte (memWriteN (memPut m a b) (a + 1) bs) c = _
    rw [ih (memPut_wf h a b) (a + 1) (by omega), memByte_memPut h, if_neg hn]

/-- Bytes that were written read back. -/
theorem memReadN_memWriteN {m : List Host.Cell} (h : memWf m = true) (a : Nat) (bs : Bytes) :
    memReadN (memWriteN m a bs) a bs.length = bs := by
  induction bs generalizing m a with
  | nil => rfl
  | cons b bs ih =>
    show memByte (memWriteN (memPut m a b) (a + 1) bs) a :: memReadN (memWriteN (memPut m a b) (a + 1) bs) (a + 1) bs.length = _
    rw [ih (memPut_wf h a b) (a + 1), memByte_memWriteN_other (memPut_wf h a b) (a + 1) a bs (by omega), memByte_memPut h, if_pos rfl]

end Sys2Proof.Machine
end

