-- ==== Sys2Proof/Laws/State.lean ====
section
/-! SUPPORT. What each named update changes and what it leaves: one lemma for each field of State, true by definition; the fault
pins after an update; the canonical form of memory. -/

namespace Sys2Proof.Machine

open Sys2Proof

@[simp] theorem advanceDraws_clock (n : Nat) (s : State) : (advanceDraws n s).clock = s.clock := rfl
@[simp] theorem advanceDraws_host (n : Nat) (s : State) : (advanceDraws n s).host = s.host := rfl
@[simp] theorem advanceDraws_ctl (n : Nat) (s : State) : (advanceDraws n s).ctl = s.ctl := rfl
@[simp] theorem advanceDraws_lod (n : Nat) (s : State) : (advanceDraws n s).lod = s.lod := rfl
@[simp] theorem advanceDraws_ports (n : Nat) (s : State) : (advanceDraws n s).ports = s.ports := rfl
@[simp] theorem advanceDraws_mer (n : Nat) (s : State) : (advanceDraws n s).mer = s.mer := rfl
@[simp] theorem advanceDraws_perf (n : Nat) (s : State) : (advanceDraws n s).perf = s.perf := rfl
@[simp] theorem advanceDraws_pools (n : Nat) (s : State) : (advanceDraws n s).pools = s.pools := rfl
@[simp] theorem advanceDraws_sw (n : Nat) (s : State) : (advanceDraws n s).sw = s.sw := rfl
@[simp] theorem advanceDraws_cls (n : Nat) (s : State) : (advanceDraws n s).cls = s.cls := rfl
@[simp] theorem advanceDraws_hbm (n : Nat) (s : State) : (advanceDraws n s).hbm = s.hbm := rfl
@[simp] theorem advanceDraws_met (n : Nat) (s : State) : (advanceDraws n s).met = s.met := rfl
@[simp] theorem advanceDraws_flow (n : Nat) (s : State) : (advanceDraws n s).flow = s.flow := rfl
@[simp] theorem advanceDraws_skip (n : Nat) (s : State) : (advanceDraws n s).skip = s.skip := rfl
@[simp] theorem advanceDraws_pair (n : Nat) (s : State) : (advanceDraws n s).pair = s.pair := rfl
@[simp] theorem advanceDraws_pwr (n : Nat) (s : State) : (advanceDraws n s).pwr = s.pwr := rfl
@[simp] theorem advanceDraws_boot (n : Nat) (s : State) : (advanceDraws n s).boot = s.boot := rfl
@[simp] theorem advanceDraws_out (n : Nat) (s : State) : (advanceDraws n s).out = s.out := rfl
@[simp] theorem advanceDraws_draws (n : Nat) (s : State) : (advanceDraws n s).draws = s.draws + n := rfl
@[simp] theorem advanceDraws_small (n : Nat) (s : State) : (advanceDraws n s).small = s.small := rfl
@[simp] theorem advanceDraws_pending (n : Nat) (s : State) : (advanceDraws n s).pending = s.pending := rfl

@[simp] theorem modPort_clock (p : Nat) (f : Port → Port) (s : State) : (modPort p f s).clock = s.clock := rfl
@[simp] theorem modPort_host (p : Nat) (f : Port → Port) (s : State) : (modPort p f s).host = s.host := rfl
@[simp] theorem modPort_ctl (p : Nat) (f : Port → Port) (s : State) : (modPort p f s).ctl = s.ctl := rfl
@[simp] theorem modPort_lod (p : Nat) (f : Port → Port) (s : State) : (modPort p f s).lod = s.lod := rfl
@[simp] theorem modPort_ports (p : Nat) (f : Port → Port) (s : State) :
    (modPort p f s).ports = kset portReset s.ports p (f (portOf s p)) := rfl
@[simp] theorem modPort_mer (p : Nat) (f : Port → Port) (s : State) : (modPort p f s).mer = s.mer := rfl
@[simp] theorem modPort_perf (p : Nat) (f : Port → Port) (s : State) : (modPort p f s).perf = s.perf := rfl
@[simp] theorem modPort_pools (p : Nat) (f : Port → Port) (s : State) : (modPort p f s).pools = s.pools := rfl
@[simp] theorem modPort_sw (p : Nat) (f : Port → Port) (s : State) : (modPort p f s).sw = s.sw := rfl
@[simp] theorem modPort_cls (p : Nat) (f : Port → Port) (s : State) : (modPort p f s).cls = s.cls := rfl
@[simp] theorem modPort_hbm (p : Nat) (f : Port → Port) (s : State) : (modPort p f s).hbm = s.hbm := rfl
@[simp] theorem modPort_met (p : Nat) (f : Port → Port) (s : State) : (modPort p f s).met = s.met := rfl
@[simp] theorem modPort_flow (p : Nat) (f : Port → Port) (s : State) : (modPort p f s).flow = s.flow := rfl
@[simp] theorem modPort_skip (p : Nat) (f : Port → Port) (s : State) : (modPort p f s).skip = s.skip := rfl
@[simp] theorem modPort_pair (p : Nat) (f : Port → Port) (s : State) : (modPort p f s).pair = s.pair := rfl
@[simp] theorem modPort_pwr (p : Nat) (f : Port → Port) (s : State) : (modPort p f s).pwr = s.pwr := rfl
@[simp] theorem modPort_boot (p : Nat) (f : Port → Port) (s : State) : (modPort p f s).boot = s.boot := rfl
@[simp] theorem modPort_out (p : Nat) (f : Port → Port) (s : State) : (modPort p f s).out = s.out := rfl
@[simp] theorem modPort_draws (p : Nat) (f : Port → Port) (s : State) : (modPort p f s).draws = s.draws := rfl
@[simp] theorem modPort_small (p : Nat) (f : Port → Port) (s : State) : (modPort p f s).small = s.small := rfl
@[simp] theorem modPort_pending (p : Nat) (f : Port → Port) (s : State) : (modPort p f s).pending = s.pending := rfl

@[simp] theorem hostOut_clock (w : HostWrite) (s : State) : (hostOut w s).clock = s.clock := rfl
@[simp] theorem hostOut_host (w : HostWrite) (s : State) : (hostOut w s).host = s.host := rfl
@[simp] theorem hostOut_ctl (w : HostWrite) (s : State) : (hostOut w s).ctl = s.ctl := rfl
@[simp] theorem hostOut_lod (w : HostWrite) (s : State) : (hostOut w s).lod = s.lod := rfl
@[simp] theorem hostOut_ports (w : HostWrite) (s : State) : (hostOut w s).ports = s.ports := rfl
@[simp] theorem hostOut_mer (w : HostWrite) (s : State) : (hostOut w s).mer = s.mer := rfl
@[simp] theorem hostOut_perf (w : HostWrite) (s : State) : (hostOut w s).perf = s.perf := rfl
@[simp] theorem hostOut_pools (w : HostWrite) (s : State) : (hostOut w s).pools = s.pools := rfl
@[simp] theorem hostOut_sw (w : HostWrite) (s : State) : (hostOut w s).sw = s.sw := rfl
@[simp] theorem hostOut_cls (w : HostWrite) (s : State) : (hostOut w s).cls = s.cls := rfl
@[simp] theorem hostOut_hbm (w : HostWrite) (s : State) : (hostOut w s).hbm = s.hbm := rfl
@[simp] theorem hostOut_met (w : HostWrite) (s : State) : (hostOut w s).met = s.met := rfl
@[simp] theorem hostOut_flow (w : HostWrite) (s : State) : (hostOut w s).flow = s.flow := rfl
@[simp] theorem hostOut_skip (w : HostWrite) (s : State) : (hostOut w s).skip = s.skip := rfl
@[simp] theorem hostOut_pair (w : HostWrite) (s : State) : (hostOut w s).pair = s.pair := rfl
@[simp] theorem hostOut_pwr (w : HostWrite) (s : State) : (hostOut w s).pwr = s.pwr := rfl
@[simp] theorem hostOut_boot (w : HostWrite) (s : State) : (hostOut w s).boot = s.boot := rfl
@[simp] theorem hostOut_out (w : HostWrite) (s : State) :
    (hostOut w s).out = { s.out with host := s.out.host ++ [w] } := rfl
@[simp] theorem hostOut_draws (w : HostWrite) (s : State) : (hostOut w s).draws = s.draws := rfl
@[simp] theorem hostOut_small (w : HostWrite) (s : State) : (hostOut w s).small = s.small := rfl
@[simp] theorem hostOut_pending (w : HostWrite) (s : State) : (hostOut w s).pending = s.pending := rfl

@[simp] theorem raiseScoped_clock (k : FaultKind) (addr : Nat) (ports endpoints : List Nat) (s : State) :
    (raiseScoped k addr ports endpoints s).clock = s.clock := rfl
@[simp] theorem raiseScoped_host (k : FaultKind) (addr : Nat) (ports endpoints : List Nat) (s : State) :
    (raiseScoped k addr ports endpoints s).host = s.host := rfl
@[simp] theorem raiseScoped_ctl (k : FaultKind) (addr : Nat) (ports endpoints : List Nat) (s : State) :
    (raiseScoped k addr ports endpoints s).ctl = s.ctl := rfl
@[simp] theorem raiseScoped_lod (k : FaultKind) (addr : Nat) (ports endpoints : List Nat) (s : State) :
    (raiseScoped k addr ports endpoints s).lod = { s.lod with wire := s.lod.wire ++ [mkFault k addr ports endpoints] } := rfl
@[simp] theorem raiseScoped_ports (k : FaultKind) (addr : Nat) (ports endpoints : List Nat) (s : State) :
    (raiseScoped k addr ports endpoints s).ports = s.ports := rfl
@[simp] theorem raiseScoped_mer (k : FaultKind) (addr : Nat) (ports endpoints : List Nat) (s : State) :
    (raiseScoped k addr ports endpoints s).mer = s.mer := rfl
@[simp] theorem raiseScoped_perf (k : FaultKind) (addr : Nat) (ports endpoints : List Nat) (s : State) :
    (raiseScoped k addr ports endpoints s).perf = s.perf := rfl
@[simp] theorem raiseScoped_pools (k : FaultKind) (addr : Nat) (ports endpoints : List Nat) (s : State) :
    (raiseScoped k addr ports endpoints s).pools = s.pools := rfl
@[simp] theorem raiseScoped_sw (k : FaultKind) (addr : Nat) (ports endpoints : List Nat) (s : State) :
    (raiseScoped k addr ports endpoints s).sw = s.sw := rfl
@[simp] theorem raiseScoped_cls (k : FaultKind) (addr : Nat) (ports endpoints : List Nat) (s : State) :
    (raiseScoped k addr ports endpoints s).cls = s.cls := rfl
@[simp] theorem raiseScoped_hbm (k : FaultKind) (addr : Nat) (ports endpoints : List Nat) (s : State) :
    (raiseScoped k addr ports endpoints s).hbm = s.hbm := rfl
@[simp] theorem raiseScoped_met (k : FaultKind) (addr : Nat) (ports endpoints : List Nat) (s : State) :
    (raiseScoped k addr ports endpoints s).met = s.met := rfl
@[simp] theorem raiseScoped_flow (k : FaultKind) (addr : Nat) (ports endpoints : List Nat) (s : State) :
    (raiseScoped k addr ports endpoints s).flow = s.flow := rfl
@[simp] theorem raiseScoped_skip (k : FaultKind) (addr : Nat) (ports endpoints : List Nat) (s : State) :
    (raiseScoped k addr ports endpoints s).skip = s.skip := rfl
@[simp] theorem raiseScoped_pair (k : FaultKind) (addr : Nat) (ports endpoints : List Nat) (s : State) :
    (raiseScoped k addr ports endpoints s).pair = s.pair := rfl
@[simp] theorem raiseScoped_pwr (k : FaultKind) (addr : Nat) (ports endpoints : List Nat) (s : State) :
    (raiseScoped k addr ports endpoints s).pwr = s.pwr := rfl
@[simp] theorem raiseScoped_boot (k : FaultKind) (addr : Nat) (ports endpoints : List Nat) (s : State) :
    (raiseScoped k addr ports endpoints s).boot = s.boot := rfl
@[simp] theorem raiseScoped_out (k : FaultKind) (addr : Nat) (ports endpoints : List Nat) (s : State) :
    (raiseScoped k addr ports endpoints s).out = s.out := rfl
@[simp] theorem raiseScoped_draws (k : FaultKind) (addr : Nat) (ports endpoints : List Nat) (s : State) :
    (raiseScoped k addr ports endpoints s).draws = s.draws := rfl
@[simp] theorem raiseScoped_small (k : FaultKind) (addr : Nat) (ports endpoints : List Nat) (s : State) :
    (raiseScoped k addr ports endpoints s).small = s.small := rfl
@[simp] theorem raiseScoped_pending (k : FaultKind) (addr : Nat) (ports endpoints : List Nat) (s : State) :
    (raiseScoped k addr ports endpoints s).pending = s.pending := rfl

@[simp] theorem raiseInjected_clock (k : FaultKind) (addr : Nat) (ports endpoints : List Nat) (s : State) :
    (raiseInjected k addr ports endpoints s).clock = s.clock := rfl
@[simp] theorem raiseInjected_host (k : FaultKind) (addr : Nat) (ports endpoints : List Nat) (s : State) :
    (raiseInjected k addr ports endpoints s).host = s.host := rfl
@[simp] theorem raiseInjected_ctl (k : FaultKind) (addr : Nat) (ports endpoints : List Nat) (s : State) :
    (raiseInjected k addr ports endpoints s).ctl = s.ctl := rfl
@[simp] theorem raiseInjected_lod (k : FaultKind) (addr : Nat) (ports endpoints : List Nat) (s : State) :
    (raiseInjected k addr ports endpoints s).lod = { s.lod with wire := s.lod.wire ++ [{ mkFault k addr ports endpoints with injected := true }] } := rfl
@[simp] theorem raiseInjected_ports (k : FaultKind) (addr : Nat) (ports endpoints : List Nat) (s : State) :
    (raiseInjected k addr ports endpoints s).ports = s.ports := rfl
@[simp] theorem raiseInjected_mer (k : FaultKind) (addr : Nat) (ports endpoints : List Nat) (s : State) :
    (raiseInjected k addr ports endpoints s).mer = s.mer := rfl
@[simp] theorem raiseInjected_perf (k : FaultKind) (addr : Nat) (ports endpoints : List Nat) (s : State) :
    (raiseInjected k addr ports endpoints s).perf = s.perf := rfl
@[simp] theorem raiseInjected_pools (k : FaultKind) (addr : Nat) (ports endpoints : List Nat) (s : State) :
    (raiseInjected k addr ports endpoints s).pools = s.pools := rfl
@[simp] theorem raiseInjected_sw (k : FaultKind) (addr : Nat) (ports endpoints : List Nat) (s : State) :
    (raiseInjected k addr ports endpoints s).sw = s.sw := rfl
@[simp] theorem raiseInjected_cls (k : FaultKind) (addr : Nat) (ports endpoints : List Nat) (s : State) :
    (raiseInjected k addr ports endpoints s).cls = s.cls := rfl
@[simp] theorem raiseInjected_hbm (k : FaultKind) (addr : Nat) (ports endpoints : List Nat) (s : State) :
    (raiseInjected k addr ports endpoints s).hbm = s.hbm := rfl
@[simp] theorem raiseInjected_met (k : FaultKind) (addr : Nat) (ports endpoints : List Nat) (s : State) :
    (raiseInjected k addr ports endpoints s).met = s.met := rfl
@[simp] theorem raiseInjected_flow (k : FaultKind) (addr : Nat) (ports endpoints : List Nat) (s : State) :
    (raiseInjected k addr ports endpoints s).flow = s.flow := rfl
@[simp] theorem raiseInjected_skip (k : FaultKind) (addr : Nat) (ports endpoints : List Nat) (s : State) :
    (raiseInjected k addr ports endpoints s).skip = s.skip := rfl
@[simp] theorem raiseInjected_pair (k : FaultKind) (addr : Nat) (ports endpoints : List Nat) (s : State) :
    (raiseInjected k addr ports endpoints s).pair = s.pair := rfl
@[simp] theorem raiseInjected_pwr (k : FaultKind) (addr : Nat) (ports endpoints : List Nat) (s : State) :
    (raiseInjected k addr ports endpoints s).pwr = s.pwr := rfl
@[simp] theorem raiseInjected_boot (k : FaultKind) (addr : Nat) (ports endpoints : List Nat) (s : State) :
    (raiseInjected k addr ports endpoints s).boot = s.boot := rfl
@[simp] theorem raiseInjected_out (k : FaultKind) (addr : Nat) (ports endpoints : List Nat) (s : State) :
    (raiseInjected k addr ports endpoints s).out = s.out := rfl
@[simp] theorem raiseInjected_draws (k : FaultKind) (addr : Nat) (ports endpoints : List Nat) (s : State) :
    (raiseInjected k addr ports endpoints s).draws = s.draws := rfl
@[simp] theorem raiseInjected_small (k : FaultKind) (addr : Nat) (ports endpoints : List Nat) (s : State) :
    (raiseInjected k addr ports endpoints s).small = s.small := rfl
@[simp] theorem raiseInjected_pending (k : FaultKind) (addr : Nat) (ports endpoints : List Nat) (s : State) :
    (raiseInjected k addr ports endpoints s).pending = s.pending := rfl

@[simp] theorem modRing_clock (n : Nat) (f : Ring → Ring) (s : State) : (modRing n f s).clock = s.clock := rfl
@[simp] theorem modRing_host (n : Nat) (f : Ring → Ring) (s : State) :
    (modRing n f s).host = { s.host with rings := modAt s.host.rings n f } := rfl
@[simp] theorem modRing_ctl (n : Nat) (f : Ring → Ring) (s : State) : (modRing n f s).ctl = s.ctl := rfl
@[simp] theorem modRing_lod (n : Nat) (f : Ring → Ring) (s : State) : (modRing n f s).lod = s.lod := rfl
@[simp] theorem modRing_ports (n : Nat) (f : Ring → Ring) (s : State) : (modRing n f s).ports = s.ports := rfl
@[simp] theorem modRing_mer (n : Nat) (f : Ring → Ring) (s : State) : (modRing n f s).mer = s.mer := rfl
@[simp] theorem modRing_perf (n : Nat) (f : Ring → Ring) (s : State) : (modRing n f s).perf = s.perf := rfl
@[simp] theorem modRing_pools (n : Nat) (f : Ring → Ring) (s : State) : (modRing n f s).pools = s.pools := rfl
@[simp] theorem modRing_sw (n : Nat) (f : Ring → Ring) (s : State) : (modRing n f s).sw = s.sw := rfl
@[simp] theorem modRing_cls (n : Nat) (f : Ring → Ring) (s : State) : (modRing n f s).cls = s.cls := rfl
@[simp] theorem modRing_hbm (n : Nat) (f : Ring → Ring) (s : State) : (modRing n f s).hbm = s.hbm := rfl
@[simp] theorem modRing_met (n : Nat) (f : Ring → Ring) (s : State) : (modRing n f s).met = s.met := rfl
@[simp] theorem modRing_flow (n : Nat) (f : Ring → Ring) (s : State) : (modRing n f s).flow = s.flow := rfl
@[simp] theorem modRing_skip (n : Nat) (f : Ring → Ring) (s : State) : (modRing n f s).skip = s.skip := rfl
@[simp] theorem modRing_pair (n : Nat) (f : Ring → Ring) (s : State) : (modRing n f s).pair = s.pair := rfl
@[simp] theorem modRing_pwr (n : Nat) (f : Ring → Ring) (s : State) : (modRing n f s).pwr = s.pwr := rfl
@[simp] theorem modRing_boot (n : Nat) (f : Ring → Ring) (s : State) : (modRing n f s).boot = s.boot := rfl
@[simp] theorem modRing_out (n : Nat) (f : Ring → Ring) (s : State) : (modRing n f s).out = s.out := rfl
@[simp] theorem modRing_draws (n : Nat) (f : Ring → Ring) (s : State) : (modRing n f s).draws = s.draws := rfl
@[simp] theorem modRing_small (n : Nat) (f : Ring → Ring) (s : State) : (modRing n f s).small = s.small := rfl
@[simp] theorem modRing_pending (n : Nat) (f : Ring → Ring) (s : State) : (modRing n f s).pending = s.pending := rfl

@[simp] theorem originate_clock (p : Nat) (frame : Bytes) (s : State) : (originate p frame s).clock = s.clock := rfl
@[simp] theorem originate_host (p : Nat) (frame : Bytes) (s : State) : (originate p frame s).host = s.host := rfl
@[simp] theorem originate_ctl (p : Nat) (frame : Bytes) (s : State) :
    (originate p frame s).ctl = { s.ctl with origin := s.ctl.origin ++ [(p, frame)] } := rfl
@[simp] theorem originate_lod (p : Nat) (frame : Bytes) (s : State) : (originate p frame s).lod = s.lod := rfl
@[simp] theorem originate_ports (p : Nat) (frame : Bytes) (s : State) : (originate p frame s).ports = s.ports := rfl
@[simp] theorem originate_mer (p : Nat) (frame : Bytes) (s : State) : (originate p frame s).mer = s.mer := rfl
@[simp] theorem originate_perf (p : Nat) (frame : Bytes) (s : State) : (originate p frame s).perf = s.perf := rfl
@[simp] theorem originate_pools (p : Nat) (frame : Bytes) (s : State) : (originate p frame s).pools = s.pools := rfl
@[simp] theorem originate_sw (p : Nat) (frame : Bytes) (s : State) : (originate p frame s).sw = s.sw := rfl
@[simp] theorem originate_cls (p : Nat) (frame : Bytes) (s : State) : (originate p frame s).cls = s.cls := rfl
@[simp] theorem originate_hbm (p : Nat) (frame : Bytes) (s : State) : (originate p frame s).hbm = s.hbm := rfl
@[simp] theorem originate_met (p : Nat) (frame : Bytes) (s : State) : (originate p frame s).met = s.met := rfl
@[simp] theorem originate_flow (p : Nat) (frame : Bytes) (s : State) : (originate p frame s).flow = s.flow := rfl
@[simp] theorem originate_skip (p : Nat) (frame : Bytes) (s : State) : (originate p frame s).skip = s.skip := rfl
@[simp] theorem originate_pair (p : Nat) (frame : Bytes) (s : State) : (originate p frame s).pair = s.pair := rfl
@[simp] theorem originate_pwr (p : Nat) (frame : Bytes) (s : State) : (originate p frame s).pwr = s.pwr := rfl
@[simp] theorem originate_boot (p : Nat) (frame : Bytes) (s : State) : (originate p frame s).boot = s.boot := rfl
@[simp] theorem originate_out (p : Nat) (frame : Bytes) (s : State) : (originate p frame s).out = s.out := rfl
@[simp] theorem originate_draws (p : Nat) (frame : Bytes) (s : State) : (originate p frame s).draws = s.draws := rfl
@[simp] theorem originate_small (p : Nat) (frame : Bytes) (s : State) : (originate p frame s).small = s.small := rfl
@[simp] theorem originate_pending (p : Nat) (frame : Bytes) (s : State) :
    (originate p frame s).pending = s.pending := rfl

@[simp] theorem putPkt_clock (h : Nat) (k : Pkt) (s : State) : (putPkt h k s).clock = s.clock := rfl
@[simp] theorem putPkt_host (h : Nat) (k : Pkt) (s : State) : (putPkt h k s).host = s.host := rfl
@[simp] theorem putPkt_ctl (h : Nat) (k : Pkt) (s : State) : (putPkt h k s).ctl = s.ctl := rfl
@[simp] theorem putPkt_lod (h : Nat) (k : Pkt) (s : State) : (putPkt h k s).lod = s.lod := rfl
@[simp] theorem putPkt_ports (h : Nat) (k : Pkt) (s : State) : (putPkt h k s).ports = s.ports := rfl
@[simp] theorem putPkt_mer (h : Nat) (k : Pkt) (s : State) : (putPkt h k s).mer = s.mer := rfl
@[simp] theorem putPkt_perf (h : Nat) (k : Pkt) (s : State) : (putPkt h k s).perf = s.perf := rfl
@[simp] theorem putPkt_pools (h : Nat) (k : Pkt) (s : State) : (putPkt h k s).pools = s.pools := rfl
@[simp] theorem putPkt_sw (h : Nat) (k : Pkt) (s : State) :
    (putPkt h k s).sw = { s.sw with pkts := kput s.sw.pkts h k } := rfl
@[simp] theorem putPkt_cls (h : Nat) (k : Pkt) (s : State) : (putPkt h k s).cls = s.cls := rfl
@[simp] theorem putPkt_hbm (h : Nat) (k : Pkt) (s : State) : (putPkt h k s).hbm = s.hbm := rfl
@[simp] theorem putPkt_met (h : Nat) (k : Pkt) (s : State) : (putPkt h k s).met = s.met := rfl
@[simp] theorem putPkt_flow (h : Nat) (k : Pkt) (s : State) : (putPkt h k s).flow = s.flow := rfl
@[simp] theorem putPkt_skip (h : Nat) (k : Pkt) (s : State) : (putPkt h k s).skip = s.skip := rfl
@[simp] theorem putPkt_pair (h : Nat) (k : Pkt) (s : State) : (putPkt h k s).pair = s.pair := rfl
@[simp] theorem putPkt_pwr (h : Nat) (k : Pkt) (s : State) : (putPkt h k s).pwr = s.pwr := rfl
@[simp] theorem putPkt_boot (h : Nat) (k : Pkt) (s : State) : (putPkt h k s).boot = s.boot := rfl
@[simp] theorem putPkt_out (h : Nat) (k : Pkt) (s : State) : (putPkt h k s).out = s.out := rfl
@[simp] theorem putPkt_draws (h : Nat) (k : Pkt) (s : State) : (putPkt h k s).draws = s.draws := rfl
@[simp] theorem putPkt_small (h : Nat) (k : Pkt) (s : State) : (putPkt h k s).small = s.small := rfl
@[simp] theorem putPkt_pending (h : Nat) (k : Pkt) (s : State) : (putPkt h k s).pending = s.pending := rfl

@[simp] theorem dropPkt_clock (h : Nat) (s : State) : (dropPkt h s).clock = s.clock := rfl
@[simp] theorem dropPkt_host (h : Nat) (s : State) : (dropPkt h s).host = s.host := rfl
@[simp] theorem dropPkt_ctl (h : Nat) (s : State) : (dropPkt h s).ctl = s.ctl := rfl
@[simp] theorem dropPkt_lod (h : Nat) (s : State) : (dropPkt h s).lod = s.lod := rfl
@[simp] theorem dropPkt_ports (h : Nat) (s : State) : (dropPkt h s).ports = s.ports := rfl
@[simp] theorem dropPkt_mer (h : Nat) (s : State) : (dropPkt h s).mer = s.mer := rfl
@[simp] theorem dropPkt_perf (h : Nat) (s : State) : (dropPkt h s).perf = s.perf := rfl
@[simp] theorem dropPkt_pools (h : Nat) (s : State) : (dropPkt h s).pools = s.pools := rfl
@[simp] theorem dropPkt_sw (h : Nat) (s : State) : (dropPkt h s).sw = { s.sw with pkts := kdel s.sw.pkts h } := rfl
@[simp] theorem dropPkt_cls (h : Nat) (s : State) : (dropPkt h s).cls = s.cls := rfl
@[simp] theorem dropPkt_hbm (h : Nat) (s : State) : (dropPkt h s).hbm = s.hbm := rfl
@[simp] theorem dropPkt_met (h : Nat) (s : State) : (dropPkt h s).met = s.met := rfl
@[simp] theorem dropPkt_flow (h : Nat) (s : State) : (dropPkt h s).flow = s.flow := rfl
@[simp] theorem dropPkt_skip (h : Nat) (s : State) : (dropPkt h s).skip = s.skip := rfl
@[simp] theorem dropPkt_pair (h : Nat) (s : State) : (dropPkt h s).pair = s.pair := rfl
@[simp] theorem dropPkt_pwr (h : Nat) (s : State) : (dropPkt h s).pwr = s.pwr := rfl
@[simp] theorem dropPkt_boot (h : Nat) (s : State) : (dropPkt h s).boot = s.boot := rfl
@[simp] theorem dropPkt_out (h : Nat) (s : State) : (dropPkt h s).out = s.out := rfl
@[simp] theorem dropPkt_draws (h : Nat) (s : State) : (dropPkt h s).draws = s.draws := rfl
@[simp] theorem dropPkt_small (h : Nat) (s : State) : (dropPkt h s).small = s.small := rfl
@[simp] theorem dropPkt_pending (h : Nat) (s : State) : (dropPkt h s).pending = s.pending := rfl

@[simp] theorem modPipe_clock (i : Nat) (f : ScPipe → ScPipe) (s : State) : (modPipe i f s).clock = s.clock := rfl
@[simp] theorem modPipe_host (i : Nat) (f : ScPipe → ScPipe) (s : State) : (modPipe i f s).host = s.host := rfl
@[simp] theorem modPipe_ctl (i : Nat) (f : ScPipe → ScPipe) (s : State) : (modPipe i f s).ctl = s.ctl := rfl
@[simp] theorem modPipe_lod (i : Nat) (f : ScPipe → ScPipe) (s : State) : (modPipe i f s).lod = s.lod := rfl
@[simp] theorem modPipe_ports (i : Nat) (f : ScPipe → ScPipe) (s : State) : (modPipe i f s).ports = s.ports := rfl
@[simp] theorem modPipe_mer (i : Nat) (f : ScPipe → ScPipe) (s : State) : (modPipe i f s).mer = s.mer := rfl
@[simp] theorem modPipe_perf (i : Nat) (f : ScPipe → ScPipe) (s : State) : (modPipe i f s).perf = s.perf := rfl
@[simp] theorem modPipe_pools (i : Nat) (f : ScPipe → ScPipe) (s : State) : (modPipe i f s).pools = s.pools := rfl
@[simp] theorem modPipe_sw (i : Nat) (f : ScPipe → ScPipe) (s : State) :
    (modPipe i f s).sw = { s.sw with pipes := modAt s.sw.pipes i f } := rfl
@[simp] theorem modPipe_cls (i : Nat) (f : ScPipe → ScPipe) (s : State) : (modPipe i f s).cls = s.cls := rfl
@[simp] theorem modPipe_hbm (i : Nat) (f : ScPipe → ScPipe) (s : State) : (modPipe i f s).hbm = s.hbm := rfl
@[simp] theorem modPipe_met (i : Nat) (f : ScPipe → ScPipe) (s : State) : (modPipe i f s).met = s.met := rfl
@[simp] theorem modPipe_flow (i : Nat) (f : ScPipe → ScPipe) (s : State) : (modPipe i f s).flow = s.flow := rfl
@[simp] theorem modPipe_skip (i : Nat) (f : ScPipe → ScPipe) (s : State) : (modPipe i f s).skip = s.skip := rfl
@[simp] theorem modPipe_pair (i : Nat) (f : ScPipe → ScPipe) (s : State) : (modPipe i f s).pair = s.pair := rfl
@[simp] theorem modPipe_pwr (i : Nat) (f : ScPipe → ScPipe) (s : State) : (modPipe i f s).pwr = s.pwr := rfl
@[simp] theorem modPipe_boot (i : Nat) (f : ScPipe → ScPipe) (s : State) : (modPipe i f s).boot = s.boot := rfl
@[simp] theorem modPipe_out (i : Nat) (f : ScPipe → ScPipe) (s : State) : (modPipe i f s).out = s.out := rfl
@[simp] theorem modPipe_draws (i : Nat) (f : ScPipe → ScPipe) (s : State) : (modPipe i f s).draws = s.draws := rfl
@[simp] theorem modPipe_small (i : Nat) (f : ScPipe → ScPipe) (s : State) : (modPipe i f s).small = s.small := rfl
@[simp] theorem modPipe_pending (i : Nat) (f : ScPipe → ScPipe) (s : State) :
    (modPipe i f s).pending = s.pending := rfl

@[simp] theorem modPipeCnt_clock (i : Nat) (f : PipeCounts → PipeCounts) (s : State) :
    (modPipeCnt i f s).clock = s.clock := rfl
@[simp] theorem modPipeCnt_host (i : Nat) (f : PipeCounts → PipeCounts) (s : State) :
    (modPipeCnt i f s).host = s.host := rfl
@[simp] theorem modPipeCnt_ctl (i : Nat) (f : PipeCounts → PipeCounts) (s : State) :
    (modPipeCnt i f s).ctl = s.ctl := rfl
@[simp] theorem modPipeCnt_lod (i : Nat) (f : PipeCounts → PipeCounts) (s : State) :
    (modPipeCnt i f s).lod = s.lod := rfl
@[simp] theorem modPipeCnt_ports (i : Nat) (f : PipeCounts → PipeCounts) (s : State) :
    (modPipeCnt i f s).ports = s.ports := rfl
@[simp] theorem modPipeCnt_mer (i : Nat) (f : PipeCounts → PipeCounts) (s : State) :
    (modPipeCnt i f s).mer = s.mer := rfl
@[simp] theorem modPipeCnt_perf (i : Nat) (f : PipeCounts → PipeCounts) (s : State) :
    (modPipeCnt i f s).perf = s.perf := rfl
@[simp] theorem modPipeCnt_pools (i : Nat) (f : PipeCounts → PipeCounts) (s : State) :
    (modPipeCnt i f s).pools = s.pools := rfl
@[simp] theorem modPipeCnt_sw (i : Nat) (f : PipeCounts → PipeCounts) (s : State) :
    (modPipeCnt i f s).sw = s.sw := rfl
@[simp] theorem modPipeCnt_cls (i : Nat) (f : PipeCounts → PipeCounts) (s : State) :
    (modPipeCnt i f s).cls = { s.cls with cnt := modAt s.cls.cnt i f } := rfl
@[simp] theorem modPipeCnt_hbm (i : Nat) (f : PipeCounts → PipeCounts) (s : State) :
    (modPipeCnt i f s).hbm = s.hbm := rfl
@[simp] theorem modPipeCnt_met (i : Nat) (f : PipeCounts → PipeCounts) (s : State) :
    (modPipeCnt i f s).met = s.met := rfl
@[simp] theorem modPipeCnt_flow (i : Nat) (f : PipeCounts → PipeCounts) (s : State) :
    (modPipeCnt i f s).flow = s.flow := rfl
@[simp] theorem modPipeCnt_skip (i : Nat) (f : PipeCounts → PipeCounts) (s : State) :
    (modPipeCnt i f s).skip = s.skip := rfl
@[simp] theorem modPipeCnt_pair (i : Nat) (f : PipeCounts → PipeCounts) (s : State) :
    (modPipeCnt i f s).pair = s.pair := rfl
@[simp] theorem modPipeCnt_pwr (i : Nat) (f : PipeCounts → PipeCounts) (s : State) :
    (modPipeCnt i f s).pwr = s.pwr := rfl
@[simp] theorem modPipeCnt_boot (i : Nat) (f : PipeCounts → PipeCounts) (s : State) :
    (modPipeCnt i f s).boot = s.boot := rfl
@[simp] theorem modPipeCnt_out (i : Nat) (f : PipeCounts → PipeCounts) (s : State) :
    (modPipeCnt i f s).out = s.out := rfl
@[simp] theorem modPipeCnt_draws (i : Nat) (f : PipeCounts → PipeCounts) (s : State) :
    (modPipeCnt i f s).draws = s.draws := rfl
@[simp] theorem modPipeCnt_small (i : Nat) (f : PipeCounts → PipeCounts) (s : State) :
    (modPipeCnt i f s).small = s.small := rfl
@[simp] theorem modPipeCnt_pending (i : Nat) (f : PipeCounts → PipeCounts) (s : State) :
    (modPipeCnt i f s).pending = s.pending := rfl

@[simp] theorem modQueue_clock (q : Nat) (f : QueueState → QueueState) (s : State) :
    (modQueue q f s).clock = s.clock := rfl
@[simp] theorem modQueue_host (q : Nat) (f : QueueState → QueueState) (s : State) :
    (modQueue q f s).host = s.host := rfl
@[simp] theorem modQueue_ctl (q : Nat) (f : QueueState → QueueState) (s : State) : (modQueue q f s).ctl = s.ctl := rfl
@[simp] theorem modQueue_lod (q : Nat) (f : QueueState → QueueState) (s : State) : (modQueue q f s).lod = s.lod := rfl
@[simp] theorem modQueue_ports (q : Nat) (f : QueueState → QueueState) (s : State) :
    (modQueue q f s).ports = s.ports := rfl
@[simp] theorem modQueue_mer (q : Nat) (f : QueueState → QueueState) (s : State) : (modQueue q f s).mer = s.mer := rfl
@[simp] theorem modQueue_perf (q : Nat) (f : QueueState → QueueState) (s : State) :
    (modQueue q f s).perf = s.perf := rfl
@[simp] theorem modQueue_pools (q : Nat) (f : QueueState → QueueState) (s : State) :
    (modQueue q f s).pools = s.pools := rfl
@[simp] theorem modQueue_sw (q : Nat) (f : QueueState → QueueState) (s : State) :
    (modQueue q f s).sw = { s.sw with queues := kmod queueReset s.sw.queues q f } := rfl
@[simp] theorem modQueue_cls (q : Nat) (f : QueueState → QueueState) (s : State) : (modQueue q f s).cls = s.cls := rfl
@[simp] theorem modQueue_hbm (q : Nat) (f : QueueState → QueueState) (s : State) : (modQueue q f s).hbm = s.hbm := rfl
@[simp] theorem modQueue_met (q : Nat) (f : QueueState → QueueState) (s : State) : (modQueue q f s).met = s.met := rfl
@[simp] theorem modQueue_flow (q : Nat) (f : QueueState → QueueState) (s : State) :
    (modQueue q f s).flow = s.flow := rfl
@[simp] theorem modQueue_skip (q : Nat) (f : QueueState → QueueState) (s : State) :
    (modQueue q f s).skip = s.skip := rfl
@[simp] theorem modQueue_pair (q : Nat) (f : QueueState → QueueState) (s : State) :
    (modQueue q f s).pair = s.pair := rfl
@[simp] theorem modQueue_pwr (q : Nat) (f : QueueState → QueueState) (s : State) : (modQueue q f s).pwr = s.pwr := rfl
@[simp] theorem modQueue_boot (q : Nat) (f : QueueState → QueueState) (s : State) :
    (modQueue q f s).boot = s.boot := rfl
@[simp] theorem modQueue_out (q : Nat) (f : QueueState → QueueState) (s : State) : (modQueue q f s).out = s.out := rfl
@[simp] theorem modQueue_draws (q : Nat) (f : QueueState → QueueState) (s : State) :
    (modQueue q f s).draws = s.draws := rfl
@[simp] theorem modQueue_small (q : Nat) (f : QueueState → QueueState) (s : State) :
    (modQueue q f s).small = s.small := rfl
@[simp] theorem modQueue_pending (q : Nat) (f : QueueState → QueueState) (s : State) :
    (modQueue q f s).pending = s.pending := rfl

@[simp] theorem modScPort_clock (p : Nat) (f : ScPort → ScPort) (s : State) : (modScPort p f s).clock = s.clock := rfl
@[simp] theorem modScPort_host (p : Nat) (f : ScPort → ScPort) (s : State) : (modScPort p f s).host = s.host := rfl
@[simp] theorem modScPort_ctl (p : Nat) (f : ScPort → ScPort) (s : State) : (modScPort p f s).ctl = s.ctl := rfl
@[simp] theorem modScPort_lod (p : Nat) (f : ScPort → ScPort) (s : State) : (modScPort p f s).lod = s.lod := rfl
@[simp] theorem modScPort_ports (p : Nat) (f : ScPort → ScPort) (s : State) : (modScPort p f s).ports = s.ports := rfl
@[simp] theorem modScPort_mer (p : Nat) (f : ScPort → ScPort) (s : State) : (modScPort p f s).mer = s.mer := rfl
@[simp] theorem modScPort_perf (p : Nat) (f : ScPort → ScPort) (s : State) : (modScPort p f s).perf = s.perf := rfl
@[simp] theorem modScPort_pools (p : Nat) (f : ScPort → ScPort) (s : State) : (modScPort p f s).pools = s.pools := rfl
@[simp] theorem modScPort_sw (p : Nat) (f : ScPort → ScPort) (s : State) :
    (modScPort p f s).sw = { s.sw with portCnt := kmod scPortReset s.sw.portCnt p f } := rfl
@[simp] theorem modScPort_cls (p : Nat) (f : ScPort → ScPort) (s : State) : (modScPort p f s).cls = s.cls := rfl
@[simp] theorem modScPort_hbm (p : Nat) (f : ScPort → ScPort) (s : State) : (modScPort p f s).hbm = s.hbm := rfl
@[simp] theorem modScPort_met (p : Nat) (f : ScPort → ScPort) (s : State) : (modScPort p f s).met = s.met := rfl
@[simp] theorem modScPort_flow (p : Nat) (f : ScPort → ScPort) (s : State) : (modScPort p f s).flow = s.flow := rfl
@[simp] theorem modScPort_skip (p : Nat) (f : ScPort → ScPort) (s : State) : (modScPort p f s).skip = s.skip := rfl
@[simp] theorem modScPort_pair (p : Nat) (f : ScPort → ScPort) (s : State) : (modScPort p f s).pair = s.pair := rfl
@[simp] theorem modScPort_pwr (p : Nat) (f : ScPort → ScPort) (s : State) : (modScPort p f s).pwr = s.pwr := rfl
@[simp] theorem modScPort_boot (p : Nat) (f : ScPort → ScPort) (s : State) : (modScPort p f s).boot = s.boot := rfl
@[simp] theorem modScPort_out (p : Nat) (f : ScPort → ScPort) (s : State) : (modScPort p f s).out = s.out := rfl
@[simp] theorem modScPort_draws (p : Nat) (f : ScPort → ScPort) (s : State) : (modScPort p f s).draws = s.draws := rfl
@[simp] theorem modScPort_small (p : Nat) (f : ScPort → ScPort) (s : State) : (modScPort p f s).small = s.small := rfl
@[simp] theorem modScPort_pending (p : Nat) (f : ScPort → ScPort) (s : State) :
    (modScPort p f s).pending = s.pending := rfl

@[simp] theorem modCnt_clock (p : Nat) (f : PortCounts → PortCounts) (s : State) :
    (modCnt p f s).clock = s.clock := rfl
@[simp] theorem modCnt_host (p : Nat) (f : PortCounts → PortCounts) (s : State) : (modCnt p f s).host = s.host := rfl
@[simp] theorem modCnt_ctl (p : Nat) (f : PortCounts → PortCounts) (s : State) : (modCnt p f s).ctl = s.ctl := rfl
@[simp] theorem modCnt_lod (p : Nat) (f : PortCounts → PortCounts) (s : State) : (modCnt p f s).lod = s.lod := rfl
@[simp] theorem modCnt_ports (p : Nat) (f : PortCounts → PortCounts) (s : State) :
    (modCnt p f s).ports = kmod portReset s.ports p (fun k => { k with cnt := f k.cnt }) := rfl
@[simp] theorem modCnt_mer (p : Nat) (f : PortCounts → PortCounts) (s : State) : (modCnt p f s).mer = s.mer := rfl
@[simp] theorem modCnt_perf (p : Nat) (f : PortCounts → PortCounts) (s : State) : (modCnt p f s).perf = s.perf := rfl
@[simp] theorem modCnt_pools (p : Nat) (f : PortCounts → PortCounts) (s : State) :
    (modCnt p f s).pools = s.pools := rfl
@[simp] theorem modCnt_sw (p : Nat) (f : PortCounts → PortCounts) (s : State) : (modCnt p f s).sw = s.sw := rfl
@[simp] theorem modCnt_cls (p : Nat) (f : PortCounts → PortCounts) (s : State) : (modCnt p f s).cls = s.cls := rfl
@[simp] theorem modCnt_hbm (p : Nat) (f : PortCounts → PortCounts) (s : State) : (modCnt p f s).hbm = s.hbm := rfl
@[simp] theorem modCnt_met (p : Nat) (f : PortCounts → PortCounts) (s : State) : (modCnt p f s).met = s.met := rfl
@[simp] theorem modCnt_flow (p : Nat) (f : PortCounts → PortCounts) (s : State) : (modCnt p f s).flow = s.flow := rfl
@[simp] theorem modCnt_skip (p : Nat) (f : PortCounts → PortCounts) (s : State) : (modCnt p f s).skip = s.skip := rfl
@[simp] theorem modCnt_pair (p : Nat) (f : PortCounts → PortCounts) (s : State) : (modCnt p f s).pair = s.pair := rfl
@[simp] theorem modCnt_pwr (p : Nat) (f : PortCounts → PortCounts) (s : State) : (modCnt p f s).pwr = s.pwr := rfl
@[simp] theorem modCnt_boot (p : Nat) (f : PortCounts → PortCounts) (s : State) : (modCnt p f s).boot = s.boot := rfl
@[simp] theorem modCnt_out (p : Nat) (f : PortCounts → PortCounts) (s : State) : (modCnt p f s).out = s.out := rfl
@[simp] theorem modCnt_draws (p : Nat) (f : PortCounts → PortCounts) (s : State) :
    (modCnt p f s).draws = s.draws := rfl
@[simp] theorem modCnt_small (p : Nat) (f : PortCounts → PortCounts) (s : State) :
    (modCnt p f s).small = s.small := rfl
@[simp] theorem modCnt_pending (p : Nat) (f : PortCounts → PortCounts) (s : State) :
    (modCnt p f s).pending = s.pending := rfl

@[simp] theorem modSlice_clock (i : Nat) (f : Slice → Slice) (s : State) : (modSlice i f s).clock = s.clock := rfl
@[simp] theorem modSlice_host (i : Nat) (f : Slice → Slice) (s : State) : (modSlice i f s).host = s.host := rfl
@[simp] theorem modSlice_ctl (i : Nat) (f : Slice → Slice) (s : State) : (modSlice i f s).ctl = s.ctl := rfl
@[simp] theorem modSlice_lod (i : Nat) (f : Slice → Slice) (s : State) : (modSlice i f s).lod = s.lod := rfl
@[simp] theorem modSlice_ports (i : Nat) (f : Slice → Slice) (s : State) : (modSlice i f s).ports = s.ports := rfl
@[simp] theorem modSlice_mer (i : Nat) (f : Slice → Slice) (s : State) : (modSlice i f s).mer = s.mer := rfl
@[simp] theorem modSlice_perf (i : Nat) (f : Slice → Slice) (s : State) : (modSlice i f s).perf = s.perf := rfl
@[simp] theorem modSlice_pools (i : Nat) (f : Slice → Slice) (s : State) : (modSlice i f s).pools = s.pools := rfl
@[simp] theorem modSlice_sw (i : Nat) (f : Slice → Slice) (s : State) : (modSlice i f s).sw = s.sw := rfl
@[simp] theorem modSlice_cls (i : Nat) (f : Slice → Slice) (s : State) : (modSlice i f s).cls = s.cls := rfl
@[simp] theorem modSlice_hbm (i : Nat) (f : Slice → Slice) (s : State) : (modSlice i f s).hbm = s.hbm := rfl
@[simp] theorem modSlice_met (i : Nat) (f : Slice → Slice) (s : State) : (modSlice i f s).met = s.met := rfl
@[simp] theorem modSlice_flow (i : Nat) (f : Slice → Slice) (s : State) :
    (modSlice i f s).flow = { s.flow with slices := modAt s.flow.slices i f } := rfl
@[simp] theorem modSlice_skip (i : Nat) (f : Slice → Slice) (s : State) : (modSlice i f s).skip = s.skip := rfl
@[simp] theorem modSlice_pair (i : Nat) (f : Slice → Slice) (s : State) : (modSlice i f s).pair = s.pair := rfl
@[simp] theorem modSlice_pwr (i : Nat) (f : Slice → Slice) (s : State) : (modSlice i f s).pwr = s.pwr := rfl
@[simp] theorem modSlice_boot (i : Nat) (f : Slice → Slice) (s : State) : (modSlice i f s).boot = s.boot := rfl
@[simp] theorem modSlice_out (i : Nat) (f : Slice → Slice) (s : State) : (modSlice i f s).out = s.out := rfl
@[simp] theorem modSlice_draws (i : Nat) (f : Slice → Slice) (s : State) : (modSlice i f s).draws = s.draws := rfl
@[simp] theorem modSlice_small (i : Nat) (f : Slice → Slice) (s : State) : (modSlice i f s).small = s.small := rfl
@[simp] theorem modSlice_pending (i : Nat) (f : Slice → Slice) (s : State) :
    (modSlice i f s).pending = s.pending := rfl

@[simp] theorem nextStamp_clock (s : State) : (nextStamp s).clock = s.clock := rfl
@[simp] theorem nextStamp_host (s : State) : (nextStamp s).host = s.host := rfl
@[simp] theorem nextStamp_ctl (s : State) : (nextStamp s).ctl = s.ctl := rfl
@[simp] theorem nextStamp_lod (s : State) : (nextStamp s).lod = s.lod := rfl
@[simp] theorem nextStamp_ports (s : State) : (nextStamp s).ports = s.ports := rfl
@[simp] theorem nextStamp_mer (s : State) : (nextStamp s).mer = s.mer := rfl
@[simp] theorem nextStamp_perf (s : State) : (nextStamp s).perf = s.perf := rfl
@[simp] theorem nextStamp_pools (s : State) : (nextStamp s).pools = s.pools := rfl
@[simp] theorem nextStamp_sw (s : State) : (nextStamp s).sw = s.sw := rfl
@[simp] theorem nextStamp_cls (s : State) : (nextStamp s).cls = s.cls := rfl
@[simp] theorem nextStamp_hbm (s : State) : (nextStamp s).hbm = s.hbm := rfl
@[simp] theorem nextStamp_met (s : State) : (nextStamp s).met = s.met := rfl
@[simp] theorem nextStamp_flow (s : State) : (nextStamp s).flow = { s.flow with stamp := s.flow.stamp + 1 } := rfl
@[simp] theorem nextStamp_skip (s : State) : (nextStamp s).skip = s.skip := rfl
@[simp] theorem nextStamp_pair (s : State) : (nextStamp s).pair = s.pair := rfl
@[simp] theorem nextStamp_pwr (s : State) : (nextStamp s).pwr = s.pwr := rfl
@[simp] theorem nextStamp_boot (s : State) : (nextStamp s).boot = s.boot := rfl
@[simp] theorem nextStamp_out (s : State) : (nextStamp s).out = s.out := rfl
@[simp] theorem nextStamp_draws (s : State) : (nextStamp s).draws = s.draws := rfl
@[simp] theorem nextStamp_small (s : State) : (nextStamp s).small = s.small := rfl
@[simp] theorem nextStamp_pending (s : State) : (nextStamp s).pending = s.pending := rfl

@[simp] theorem uncache_clock (h : Nat) (s : State) : (uncache h s).clock = s.clock := rfl
@[simp] theorem uncache_host (h : Nat) (s : State) : (uncache h s).host = s.host := rfl
@[simp] theorem uncache_ctl (h : Nat) (s : State) : (uncache h s).ctl = s.ctl := rfl
@[simp] theorem uncache_lod (h : Nat) (s : State) : (uncache h s).lod = s.lod := rfl
@[simp] theorem uncache_ports (h : Nat) (s : State) : (uncache h s).ports = s.ports := rfl
@[simp] theorem uncache_mer (h : Nat) (s : State) : (uncache h s).mer = s.mer := rfl
@[simp] theorem uncache_perf (h : Nat) (s : State) : (uncache h s).perf = s.perf := rfl
@[simp] theorem uncache_pools (h : Nat) (s : State) : (uncache h s).pools = s.pools := rfl
@[simp] theorem uncache_sw (h : Nat) (s : State) : (uncache h s).sw = s.sw := rfl
@[simp] theorem uncache_cls (h : Nat) (s : State) : (uncache h s).cls = s.cls := rfl
@[simp] theorem uncache_hbm (h : Nat) (s : State) : (uncache h s).hbm = s.hbm := rfl
@[simp] theorem uncache_met (h : Nat) (s : State) : (uncache h s).met = s.met := rfl
@[simp] theorem uncache_flow (h : Nat) (s : State) :
    (uncache h s).flow = { s.flow with cache := kdel s.flow.cache h } := rfl
@[simp] theorem uncache_skip (h : Nat) (s : State) : (uncache h s).skip = s.skip := rfl
@[simp] theorem uncache_pair (h : Nat) (s : State) : (uncache h s).pair = s.pair := rfl
@[simp] theorem uncache_pwr (h : Nat) (s : State) : (uncache h s).pwr = s.pwr := rfl
@[simp] theorem uncache_boot (h : Nat) (s : State) : (uncache h s).boot = s.boot := rfl
@[simp] theorem uncache_out (h : Nat) (s : State) : (uncache h s).out = s.out := rfl
@[simp] theorem uncache_draws (h : Nat) (s : State) : (uncache h s).draws = s.draws := rfl
@[simp] theorem uncache_small (h : Nat) (s : State) : (uncache h s).small = s.small := rfl
@[simp] theorem uncache_pending (h : Nat) (s : State) : (uncache h s).pending = s.pending := rfl

@[simp] theorem hbmWrite_clock (region a : Nat) (bs : Bytes) (s : State) :
    (hbmWrite region a bs s).clock = s.clock := rfl
@[simp] theorem hbmWrite_host (region a : Nat) (bs : Bytes) (s : State) :
    (hbmWrite region a bs s).host = s.host := rfl
@[simp] theorem hbmWrite_ctl (region a : Nat) (bs : Bytes) (s : State) : (hbmWrite region a bs s).ctl = s.ctl := rfl
@[simp] theorem hbmWrite_lod (region a : Nat) (bs : Bytes) (s : State) : (hbmWrite region a bs s).lod = s.lod := rfl
@[simp] theorem hbmWrite_ports (region a : Nat) (bs : Bytes) (s : State) :
    (hbmWrite region a bs s).ports = s.ports := rfl
@[simp] theorem hbmWrite_mer (region a : Nat) (bs : Bytes) (s : State) : (hbmWrite region a bs s).mer = s.mer := rfl
@[simp] theorem hbmWrite_perf (region a : Nat) (bs : Bytes) (s : State) :
    (hbmWrite region a bs s).perf = s.perf := rfl
@[simp] theorem hbmWrite_pools (region a : Nat) (bs : Bytes) (s : State) :
    (hbmWrite region a bs s).pools = s.pools := rfl
@[simp] theorem hbmWrite_sw (region a : Nat) (bs : Bytes) (s : State) : (hbmWrite region a bs s).sw = s.sw := rfl
@[simp] theorem hbmWrite_cls (region a : Nat) (bs : Bytes) (s : State) : (hbmWrite region a bs s).cls = s.cls := rfl
@[simp] theorem hbmWrite_hbm (region a : Nat) (bs : Bytes) (s : State) :
    (hbmWrite region a bs s).hbm = { s.hbm with mem := memWriteN s.hbm.mem (hbmKey region a) bs } := rfl
@[simp] theorem hbmWrite_met (region a : Nat) (bs : Bytes) (s : State) : (hbmWrite region a bs s).met = s.met := rfl
@[simp] theorem hbmWrite_flow (region a : Nat) (bs : Bytes) (s : State) :
    (hbmWrite region a bs s).flow = s.flow := rfl
@[simp] theorem hbmWrite_skip (region a : Nat) (bs : Bytes) (s : State) :
    (hbmWrite region a bs s).skip = s.skip := rfl
@[simp] theorem hbmWrite_pair (region a : Nat) (bs : Bytes) (s : State) :
    (hbmWrite region a bs s).pair = s.pair := rfl
@[simp] theorem hbmWrite_pwr (region a : Nat) (bs : Bytes) (s : State) : (hbmWrite region a bs s).pwr = s.pwr := rfl
@[simp] theorem hbmWrite_boot (region a : Nat) (bs : Bytes) (s : State) :
    (hbmWrite region a bs s).boot = s.boot := rfl
@[simp] theorem hbmWrite_out (region a : Nat) (bs : Bytes) (s : State) : (hbmWrite region a bs s).out = s.out := rfl
@[simp] theorem hbmWrite_draws (region a : Nat) (bs : Bytes) (s : State) :
    (hbmWrite region a bs s).draws = s.draws := rfl
@[simp] theorem hbmWrite_small (region a : Nat) (bs : Bytes) (s : State) :
    (hbmWrite region a bs s).small = s.small := rfl
@[simp] theorem hbmWrite_pending (region a : Nat) (bs : Bytes) (s : State) :
    (hbmWrite region a bs s).pending = s.pending := rfl

@[simp] theorem modPc_clock (p : Nat) (f : HbmPc → HbmPc) (s : State) : (modPc p f s).clock = s.clock := rfl
@[simp] theorem modPc_host (p : Nat) (f : HbmPc → HbmPc) (s : State) : (modPc p f s).host = s.host := rfl
@[simp] theorem modPc_ctl (p : Nat) (f : HbmPc → HbmPc) (s : State) : (modPc p f s).ctl = s.ctl := rfl
@[simp] theorem modPc_lod (p : Nat) (f : HbmPc → HbmPc) (s : State) : (modPc p f s).lod = s.lod := rfl
@[simp] theorem modPc_ports (p : Nat) (f : HbmPc → HbmPc) (s : State) : (modPc p f s).ports = s.ports := rfl
@[simp] theorem modPc_mer (p : Nat) (f : HbmPc → HbmPc) (s : State) : (modPc p f s).mer = s.mer := rfl
@[simp] theorem modPc_perf (p : Nat) (f : HbmPc → HbmPc) (s : State) : (modPc p f s).perf = s.perf := rfl
@[simp] theorem modPc_pools (p : Nat) (f : HbmPc → HbmPc) (s : State) : (modPc p f s).pools = s.pools := rfl
@[simp] theorem modPc_sw (p : Nat) (f : HbmPc → HbmPc) (s : State) : (modPc p f s).sw = s.sw := rfl
@[simp] theorem modPc_cls (p : Nat) (f : HbmPc → HbmPc) (s : State) : (modPc p f s).cls = s.cls := rfl
@[simp] theorem modPc_hbm (p : Nat) (f : HbmPc → HbmPc) (s : State) :
    (modPc p f s).hbm = { s.hbm with pcs := kmod hbmPcReset s.hbm.pcs p f } := rfl
@[simp] theorem modPc_met (p : Nat) (f : HbmPc → HbmPc) (s : State) : (modPc p f s).met = s.met := rfl
@[simp] theorem modPc_flow (p : Nat) (f : HbmPc → HbmPc) (s : State) : (modPc p f s).flow = s.flow := rfl
@[simp] theorem modPc_skip (p : Nat) (f : HbmPc → HbmPc) (s : State) : (modPc p f s).skip = s.skip := rfl
@[simp] theorem modPc_pair (p : Nat) (f : HbmPc → HbmPc) (s : State) : (modPc p f s).pair = s.pair := rfl
@[simp] theorem modPc_pwr (p : Nat) (f : HbmPc → HbmPc) (s : State) : (modPc p f s).pwr = s.pwr := rfl
@[simp] theorem modPc_boot (p : Nat) (f : HbmPc → HbmPc) (s : State) : (modPc p f s).boot = s.boot := rfl
@[simp] theorem modPc_out (p : Nat) (f : HbmPc → HbmPc) (s : State) : (modPc p f s).out = s.out := rfl
@[simp] theorem modPc_draws (p : Nat) (f : HbmPc → HbmPc) (s : State) : (modPc p f s).draws = s.draws := rfl
@[simp] theorem modPc_small (p : Nat) (f : HbmPc → HbmPc) (s : State) : (modPc p f s).small = s.small := rfl
@[simp] theorem modPc_pending (p : Nat) (f : HbmPc → HbmPc) (s : State) : (modPc p f s).pending = s.pending := rfl

@[simp] theorem modStack_clock (k : Nat) (f : HbmStack → HbmStack) (s : State) :
    (modStack k f s).clock = s.clock := rfl
@[simp] theorem modStack_host (k : Nat) (f : HbmStack → HbmStack) (s : State) : (modStack k f s).host = s.host := rfl
@[simp] theorem modStack_ctl (k : Nat) (f : HbmStack → HbmStack) (s : State) : (modStack k f s).ctl = s.ctl := rfl
@[simp] theorem modStack_lod (k : Nat) (f : HbmStack → HbmStack) (s : State) : (modStack k f s).lod = s.lod := rfl
@[simp] theorem modStack_ports (k : Nat) (f : HbmStack → HbmStack) (s : State) :
    (modStack k f s).ports = s.ports := rfl
@[simp] theorem modStack_mer (k : Nat) (f : HbmStack → HbmStack) (s : State) : (modStack k f s).mer = s.mer := rfl
@[simp] theorem modStack_perf (k : Nat) (f : HbmStack → HbmStack) (s : State) : (modStack k f s).perf = s.perf := rfl
@[simp] theorem modStack_pools (k : Nat) (f : HbmStack → HbmStack) (s : State) :
    (modStack k f s).pools = s.pools := rfl
@[simp] theorem modStack_sw (k : Nat) (f : HbmStack → HbmStack) (s : State) : (modStack k f s).sw = s.sw := rfl
@[simp] theorem modStack_cls (k : Nat) (f : HbmStack → HbmStack) (s : State) : (modStack k f s).cls = s.cls := rfl
@[simp] theorem modStack_hbm (k : Nat) (f : HbmStack → HbmStack) (s : State) :
    (modStack k f s).hbm = { s.hbm with stk := modAt s.hbm.stk k f } := rfl
@[simp] theorem modStack_met (k : Nat) (f : HbmStack → HbmStack) (s : State) : (modStack k f s).met = s.met := rfl
@[simp] theorem modStack_flow (k : Nat) (f : HbmStack → HbmStack) (s : State) : (modStack k f s).flow = s.flow := rfl
@[simp] theorem modStack_skip (k : Nat) (f : HbmStack → HbmStack) (s : State) : (modStack k f s).skip = s.skip := rfl
@[simp] theorem modStack_pair (k : Nat) (f : HbmStack → HbmStack) (s : State) : (modStack k f s).pair = s.pair := rfl
@[simp] theorem modStack_pwr (k : Nat) (f : HbmStack → HbmStack) (s : State) : (modStack k f s).pwr = s.pwr := rfl
@[simp] theorem modStack_boot (k : Nat) (f : HbmStack → HbmStack) (s : State) : (modStack k f s).boot = s.boot := rfl
@[simp] theorem modStack_out (k : Nat) (f : HbmStack → HbmStack) (s : State) : (modStack k f s).out = s.out := rfl
@[simp] theorem modStack_draws (k : Nat) (f : HbmStack → HbmStack) (s : State) :
    (modStack k f s).draws = s.draws := rfl
@[simp] theorem modStack_small (k : Nat) (f : HbmStack → HbmStack) (s : State) :
    (modStack k f s).small = s.small := rfl
@[simp] theorem modStack_pending (k : Nat) (f : HbmStack → HbmStack) (s : State) :
    (modStack k f s).pending = s.pending := rfl

@[simp] theorem hbmUnmask_clock (id : Nat) (s : State) : (hbmUnmask id s).clock = s.clock := rfl
@[simp] theorem hbmUnmask_host (id : Nat) (s : State) : (hbmUnmask id s).host = s.host := rfl
@[simp] theorem hbmUnmask_ctl (id : Nat) (s : State) : (hbmUnmask id s).ctl = s.ctl := rfl
@[simp] theorem hbmUnmask_lod (id : Nat) (s : State) : (hbmUnmask id s).lod = s.lod := rfl
@[simp] theorem hbmUnmask_ports (id : Nat) (s : State) : (hbmUnmask id s).ports = s.ports := rfl
@[simp] theorem hbmUnmask_mer (id : Nat) (s : State) : (hbmUnmask id s).mer = s.mer := rfl
@[simp] theorem hbmUnmask_perf (id : Nat) (s : State) : (hbmUnmask id s).perf = s.perf := rfl
@[simp] theorem hbmUnmask_pools (id : Nat) (s : State) : (hbmUnmask id s).pools = s.pools := rfl
@[simp] theorem hbmUnmask_sw (id : Nat) (s : State) : (hbmUnmask id s).sw = s.sw := rfl
@[simp] theorem hbmUnmask_cls (id : Nat) (s : State) : (hbmUnmask id s).cls = s.cls := rfl
@[simp] theorem hbmUnmask_hbm (id : Nat) (s : State) :
    (hbmUnmask id s).hbm = { s.hbm with masked := s.hbm.masked.filter (fun i => i != id) } := rfl
@[simp] theorem hbmUnmask_met (id : Nat) (s : State) : (hbmUnmask id s).met = s.met := rfl
@[simp] theorem hbmUnmask_flow (id : Nat) (s : State) : (hbmUnmask id s).flow = s.flow := rfl
@[simp] theorem hbmUnmask_skip (id : Nat) (s : State) : (hbmUnmask id s).skip = s.skip := rfl
@[simp] theorem hbmUnmask_pair (id : Nat) (s : State) : (hbmUnmask id s).pair = s.pair := rfl
@[simp] theorem hbmUnmask_pwr (id : Nat) (s : State) : (hbmUnmask id s).pwr = s.pwr := rfl
@[simp] theorem hbmUnmask_boot (id : Nat) (s : State) : (hbmUnmask id s).boot = s.boot := rfl
@[simp] theorem hbmUnmask_out (id : Nat) (s : State) : (hbmUnmask id s).out = s.out := rfl
@[simp] theorem hbmUnmask_draws (id : Nat) (s : State) : (hbmUnmask id s).draws = s.draws := rfl
@[simp] theorem hbmUnmask_small (id : Nat) (s : State) : (hbmUnmask id s).small = s.small := rfl
@[simp] theorem hbmUnmask_pending (id : Nat) (s : State) : (hbmUnmask id s).pending = s.pending := rfl

@[simp] theorem modSrc_clock (src cls : Nat) (f : SrcState → SrcState) (s : State) :
    (modSrc src cls f s).clock = s.clock := rfl
@[simp] theorem modSrc_host (src cls : Nat) (f : SrcState → SrcState) (s : State) :
    (modSrc src cls f s).host = s.host := rfl
@[simp] theorem modSrc_ctl (src cls : Nat) (f : SrcState → SrcState) (s : State) :
    (modSrc src cls f s).ctl = s.ctl := rfl
@[simp] theorem modSrc_lod (src cls : Nat) (f : SrcState → SrcState) (s : State) :
    (modSrc src cls f s).lod = { s.lod with states := kset srcStateReset s.lod.states (src * 4 + cls) (f (srcState s src cls)) } := rfl
@[simp] theorem modSrc_ports (src cls : Nat) (f : SrcState → SrcState) (s : State) :
    (modSrc src cls f s).ports = s.ports := rfl
@[simp] theorem modSrc_mer (src cls : Nat) (f : SrcState → SrcState) (s : State) :
    (modSrc src cls f s).mer = s.mer := rfl
@[simp] theorem modSrc_perf (src cls : Nat) (f : SrcState → SrcState) (s : State) :
    (modSrc src cls f s).perf = s.perf := rfl
@[simp] theorem modSrc_pools (src cls : Nat) (f : SrcState → SrcState) (s : State) :
    (modSrc src cls f s).pools = s.pools := rfl
@[simp] theorem modSrc_sw (src cls : Nat) (f : SrcState → SrcState) (s : State) :
    (modSrc src cls f s).sw = s.sw := rfl
@[simp] theorem modSrc_cls (src cls : Nat) (f : SrcState → SrcState) (s : State) :
    (modSrc src cls f s).cls = s.cls := rfl
@[simp] theorem modSrc_hbm (src cls : Nat) (f : SrcState → SrcState) (s : State) :
    (modSrc src cls f s).hbm = s.hbm := rfl
@[simp] theorem modSrc_met (src cls : Nat) (f : SrcState → SrcState) (s : State) :
    (modSrc src cls f s).met = s.met := rfl
@[simp] theorem modSrc_flow (src cls : Nat) (f : SrcState → SrcState) (s : State) :
    (modSrc src cls f s).flow = s.flow := rfl
@[simp] theorem modSrc_skip (src cls : Nat) (f : SrcState → SrcState) (s : State) :
    (modSrc src cls f s).skip = s.skip := rfl
@[simp] theorem modSrc_pair (src cls : Nat) (f : SrcState → SrcState) (s : State) :
    (modSrc src cls f s).pair = s.pair := rfl
@[simp] theorem modSrc_pwr (src cls : Nat) (f : SrcState → SrcState) (s : State) :
    (modSrc src cls f s).pwr = s.pwr := rfl
@[simp] theorem modSrc_boot (src cls : Nat) (f : SrcState → SrcState) (s : State) :
    (modSrc src cls f s).boot = s.boot := rfl
@[simp] theorem modSrc_out (src cls : Nat) (f : SrcState → SrcState) (s : State) :
    (modSrc src cls f s).out = s.out := rfl
@[simp] theorem modSrc_draws (src cls : Nat) (f : SrcState → SrcState) (s : State) :
    (modSrc src cls f s).draws = s.draws := rfl
@[simp] theorem modSrc_small (src cls : Nat) (f : SrcState → SrcState) (s : State) :
    (modSrc src cls f s).small = s.small := rfl
@[simp] theorem modSrc_pending (src cls : Nat) (f : SrcState → SrcState) (s : State) :
    (modSrc src cls f s).pending = s.pending := rfl

@[simp] theorem dropRecords_clock (n : Nat) (s : State) : (dropRecords n s).clock = s.clock := rfl
@[simp] theorem dropRecords_host (n : Nat) (s : State) : (dropRecords n s).host = s.host := rfl
@[simp] theorem dropRecords_ctl (n : Nat) (s : State) : (dropRecords n s).ctl = s.ctl := rfl
@[simp] theorem dropRecords_lod (n : Nat) (s : State) :
    (dropRecords n s).lod = { s.lod with ring := s.lod.ring.drop n, headCount := s.lod.headCount + BitVec.ofNat 13 n } := rfl
@[simp] theorem dropRecords_ports (n : Nat) (s : State) : (dropRecords n s).ports = s.ports := rfl
@[simp] theorem dropRecords_mer (n : Nat) (s : State) : (dropRecords n s).mer = s.mer := rfl
@[simp] theorem dropRecords_perf (n : Nat) (s : State) : (dropRecords n s).perf = s.perf := rfl
@[simp] theorem dropRecords_pools (n : Nat) (s : State) : (dropRecords n s).pools = s.pools := rfl
@[simp] theorem dropRecords_sw (n : Nat) (s : State) : (dropRecords n s).sw = s.sw := rfl
@[simp] theorem dropRecords_cls (n : Nat) (s : State) : (dropRecords n s).cls = s.cls := rfl
@[simp] theorem dropRecords_hbm (n : Nat) (s : State) : (dropRecords n s).hbm = s.hbm := rfl
@[simp] theorem dropRecords_met (n : Nat) (s : State) : (dropRecords n s).met = s.met := rfl
@[simp] theorem dropRecords_flow (n : Nat) (s : State) : (dropRecords n s).flow = s.flow := rfl
@[simp] theorem dropRecords_skip (n : Nat) (s : State) : (dropRecords n s).skip = s.skip := rfl
@[simp] theorem dropRecords_pair (n : Nat) (s : State) : (dropRecords n s).pair = s.pair := rfl
@[simp] theorem dropRecords_pwr (n : Nat) (s : State) : (dropRecords n s).pwr = s.pwr := rfl
@[simp] theorem dropRecords_boot (n : Nat) (s : State) : (dropRecords n s).boot = s.boot := rfl
@[simp] theorem dropRecords_out (n : Nat) (s : State) : (dropRecords n s).out = s.out := rfl
@[simp] theorem dropRecords_draws (n : Nat) (s : State) : (dropRecords n s).draws = s.draws := rfl
@[simp] theorem dropRecords_small (n : Nat) (s : State) : (dropRecords n s).small = s.small := rfl
@[simp] theorem dropRecords_pending (n : Nat) (s : State) : (dropRecords n s).pending = s.pending := rfl

@[simp] theorem modSlot_clock (n : Nat) (f : TimedSlot → TimedSlot) (s : State) :
    (modSlot n f s).clock = s.clock := rfl
@[simp] theorem modSlot_host (n : Nat) (f : TimedSlot → TimedSlot) (s : State) : (modSlot n f s).host = s.host := rfl
@[simp] theorem modSlot_ctl (n : Nat) (f : TimedSlot → TimedSlot) (s : State) : (modSlot n f s).ctl = s.ctl := rfl
@[simp] theorem modSlot_lod (n : Nat) (f : TimedSlot → TimedSlot) (s : State) : (modSlot n f s).lod = s.lod := rfl
@[simp] theorem modSlot_ports (n : Nat) (f : TimedSlot → TimedSlot) (s : State) :
    (modSlot n f s).ports = s.ports := rfl
@[simp] theorem modSlot_mer (n : Nat) (f : TimedSlot → TimedSlot) (s : State) :
    (modSlot n f s).mer = { s.mer with slots := kset timedSlotReset s.mer.slots n (f (slotOf s n)) } := rfl
@[simp] theorem modSlot_perf (n : Nat) (f : TimedSlot → TimedSlot) (s : State) : (modSlot n f s).perf = s.perf := rfl
@[simp] theorem modSlot_pools (n : Nat) (f : TimedSlot → TimedSlot) (s : State) :
    (modSlot n f s).pools = s.pools := rfl
@[simp] theorem modSlot_sw (n : Nat) (f : TimedSlot → TimedSlot) (s : State) : (modSlot n f s).sw = s.sw := rfl
@[simp] theorem modSlot_cls (n : Nat) (f : TimedSlot → TimedSlot) (s : State) : (modSlot n f s).cls = s.cls := rfl
@[simp] theorem modSlot_hbm (n : Nat) (f : TimedSlot → TimedSlot) (s : State) : (modSlot n f s).hbm = s.hbm := rfl
@[simp] theorem modSlot_met (n : Nat) (f : TimedSlot → TimedSlot) (s : State) : (modSlot n f s).met = s.met := rfl
@[simp] theorem modSlot_flow (n : Nat) (f : TimedSlot → TimedSlot) (s : State) : (modSlot n f s).flow = s.flow := rfl
@[simp] theorem modSlot_skip (n : Nat) (f : TimedSlot → TimedSlot) (s : State) : (modSlot n f s).skip = s.skip := rfl
@[simp] theorem modSlot_pair (n : Nat) (f : TimedSlot → TimedSlot) (s : State) : (modSlot n f s).pair = s.pair := rfl
@[simp] theorem modSlot_pwr (n : Nat) (f : TimedSlot → TimedSlot) (s : State) : (modSlot n f s).pwr = s.pwr := rfl
@[simp] theorem modSlot_boot (n : Nat) (f : TimedSlot → TimedSlot) (s : State) : (modSlot n f s).boot = s.boot := rfl
@[simp] theorem modSlot_out (n : Nat) (f : TimedSlot → TimedSlot) (s : State) : (modSlot n f s).out = s.out := rfl
@[simp] theorem modSlot_draws (n : Nat) (f : TimedSlot → TimedSlot) (s : State) :
    (modSlot n f s).draws = s.draws := rfl
@[simp] theorem modSlot_small (n : Nat) (f : TimedSlot → TimedSlot) (s : State) :
    (modSlot n f s).small = s.small := rfl
@[simp] theorem modSlot_pending (n : Nat) (f : TimedSlot → TimedSlot) (s : State) :
    (modSlot n f s).pending = s.pending := rfl

@[simp] theorem modEp_clock (bank : Bool) (e : Nat) (f : EpBank → EpBank) (s : State) :
    (modEp bank e f s).clock = s.clock := rfl
@[simp] theorem modEp_host (bank : Bool) (e : Nat) (f : EpBank → EpBank) (s : State) :
    (modEp bank e f s).host = s.host := rfl
@[simp] theorem modEp_ctl (bank : Bool) (e : Nat) (f : EpBank → EpBank) (s : State) :
    (modEp bank e f s).ctl = s.ctl := rfl
@[simp] theorem modEp_lod (bank : Bool) (e : Nat) (f : EpBank → EpBank) (s : State) :
    (modEp bank e f s).lod = s.lod := rfl
@[simp] theorem modEp_ports (bank : Bool) (e : Nat) (f : EpBank → EpBank) (s : State) :
    (modEp bank e f s).ports = s.ports := rfl
@[simp] theorem modEp_mer (bank : Bool) (e : Nat) (f : EpBank → EpBank) (s : State) :
    (modEp bank e f s).mer = s.mer := rfl
@[simp] theorem modEp_perf (bank : Bool) (e : Nat) (f : EpBank → EpBank) (s : State) :
    (modEp bank e f s).perf = s.perf := rfl
@[simp] theorem modEp_pools (bank : Bool) (e : Nat) (f : EpBank → EpBank) (s : State) :
    (modEp bank e f s).pools = s.pools := rfl
@[simp] theorem modEp_sw (bank : Bool) (e : Nat) (f : EpBank → EpBank) (s : State) :
    (modEp bank e f s).sw = s.sw := rfl
@[simp] theorem modEp_cls (bank : Bool) (e : Nat) (f : EpBank → EpBank) (s : State) :
    (modEp bank e f s).cls = s.cls := rfl
@[simp] theorem modEp_hbm (bank : Bool) (e : Nat) (f : EpBank → EpBank) (s : State) :
    (modEp bank e f s).hbm = s.hbm := rfl
@[simp] theorem modEp_met (bank : Bool) (e : Nat) (f : EpBank → EpBank) (s : State) :
    (modEp bank e f s).met = { s.met with eps := kmod epBankReset s.met.eps (epKey bank e) f } := rfl
@[simp] theorem modEp_flow (bank : Bool) (e : Nat) (f : EpBank → EpBank) (s : State) :
    (modEp bank e f s).flow = s.flow := rfl
@[simp] theorem modEp_skip (bank : Bool) (e : Nat) (f : EpBank → EpBank) (s : State) :
    (modEp bank e f s).skip = s.skip := rfl
@[simp] theorem modEp_pair (bank : Bool) (e : Nat) (f : EpBank → EpBank) (s : State) :
    (modEp bank e f s).pair = s.pair := rfl
@[simp] theorem modEp_pwr (bank : Bool) (e : Nat) (f : EpBank → EpBank) (s : State) :
    (modEp bank e f s).pwr = s.pwr := rfl
@[simp] theorem modEp_boot (bank : Bool) (e : Nat) (f : EpBank → EpBank) (s : State) :
    (modEp bank e f s).boot = s.boot := rfl
@[simp] theorem modEp_out (bank : Bool) (e : Nat) (f : EpBank → EpBank) (s : State) :
    (modEp bank e f s).out = s.out := rfl
@[simp] theorem modEp_draws (bank : Bool) (e : Nat) (f : EpBank → EpBank) (s : State) :
    (modEp bank e f s).draws = s.draws := rfl
@[simp] theorem modEp_small (bank : Bool) (e : Nat) (f : EpBank → EpBank) (s : State) :
    (modEp bank e f s).small = s.small := rfl
@[simp] theorem modEp_pending (bank : Bool) (e : Nat) (f : EpBank → EpBank) (s : State) :
    (modEp bank e f s).pending = s.pending := rfl

@[simp] theorem updBlock_clock (minute : Nat) (f : Block → Block) (s : State) :
    (updBlock minute f s).clock = s.clock := rfl
@[simp] theorem updBlock_host (minute : Nat) (f : Block → Block) (s : State) :
    (updBlock minute f s).host = s.host := rfl
@[simp] theorem updBlock_ctl (minute : Nat) (f : Block → Block) (s : State) : (updBlock minute f s).ctl = s.ctl := rfl
@[simp] theorem updBlock_lod (minute : Nat) (f : Block → Block) (s : State) : (updBlock minute f s).lod = s.lod := rfl
@[simp] theorem updBlock_ports (minute : Nat) (f : Block → Block) (s : State) :
    (updBlock minute f s).ports = s.ports := rfl
@[simp] theorem updBlock_mer (minute : Nat) (f : Block → Block) (s : State) : (updBlock minute f s).mer = s.mer := rfl
@[simp] theorem updBlock_perf (minute : Nat) (f : Block → Block) (s : State) :
    (updBlock minute f s).perf = s.perf := rfl
@[simp] theorem updBlock_pools (minute : Nat) (f : Block → Block) (s : State) :
    (updBlock minute f s).pools = s.pools := rfl
@[simp] theorem updBlock_sw (minute : Nat) (f : Block → Block) (s : State) : (updBlock minute f s).sw = s.sw := rfl
@[simp] theorem updBlock_cls (minute : Nat) (f : Block → Block) (s : State) : (updBlock minute f s).cls = s.cls := rfl
@[simp] theorem updBlock_hbm (minute : Nat) (f : Block → Block) (s : State) : (updBlock minute f s).hbm = s.hbm := rfl
@[simp] theorem updBlock_met (minute : Nat) (f : Block → Block) (s : State) :
    (updBlock minute f s).met = { s.met with staged := s.met.staged.map (fun b => if b.minute = minute then f b else b) } := rfl
@[simp] theorem updBlock_flow (minute : Nat) (f : Block → Block) (s : State) :
    (updBlock minute f s).flow = s.flow := rfl
@[simp] theorem updBlock_skip (minute : Nat) (f : Block → Block) (s : State) :
    (updBlock minute f s).skip = s.skip := rfl
@[simp] theorem updBlock_pair (minute : Nat) (f : Block → Block) (s : State) :
    (updBlock minute f s).pair = s.pair := rfl
@[simp] theorem updBlock_pwr (minute : Nat) (f : Block → Block) (s : State) : (updBlock minute f s).pwr = s.pwr := rfl
@[simp] theorem updBlock_boot (minute : Nat) (f : Block → Block) (s : State) :
    (updBlock minute f s).boot = s.boot := rfl
@[simp] theorem updBlock_out (minute : Nat) (f : Block → Block) (s : State) : (updBlock minute f s).out = s.out := rfl
@[simp] theorem updBlock_draws (minute : Nat) (f : Block → Block) (s : State) :
    (updBlock minute f s).draws = s.draws := rfl
@[simp] theorem updBlock_small (minute : Nat) (f : Block → Block) (s : State) :
    (updBlock minute f s).small = s.small := rfl
@[simp] theorem updBlock_pending (minute : Nat) (f : Block → Block) (s : State) :
    (updBlock minute f s).pending = s.pending := rfl

@[simp] theorem wantPair_clock (st : PairState) (s : State) : (wantPair st s).clock = s.clock := rfl
@[simp] theorem wantPair_host (st : PairState) (s : State) : (wantPair st s).host = s.host := rfl
@[simp] theorem wantPair_ctl (st : PairState) (s : State) : (wantPair st s).ctl = s.ctl := rfl
@[simp] theorem wantPair_lod (st : PairState) (s : State) : (wantPair st s).lod = s.lod := rfl
@[simp] theorem wantPair_ports (st : PairState) (s : State) : (wantPair st s).ports = s.ports := rfl
@[simp] theorem wantPair_mer (st : PairState) (s : State) : (wantPair st s).mer = s.mer := rfl
@[simp] theorem wantPair_perf (st : PairState) (s : State) : (wantPair st s).perf = s.perf := rfl
@[simp] theorem wantPair_pools (st : PairState) (s : State) : (wantPair st s).pools = s.pools := rfl
@[simp] theorem wantPair_sw (st : PairState) (s : State) : (wantPair st s).sw = s.sw := rfl
@[simp] theorem wantPair_cls (st : PairState) (s : State) : (wantPair st s).cls = s.cls := rfl
@[simp] theorem wantPair_hbm (st : PairState) (s : State) : (wantPair st s).hbm = s.hbm := rfl
@[simp] theorem wantPair_met (st : PairState) (s : State) : (wantPair st s).met = s.met := rfl
@[simp] theorem wantPair_flow (st : PairState) (s : State) : (wantPair st s).flow = s.flow := rfl
@[simp] theorem wantPair_skip (st : PairState) (s : State) : (wantPair st s).skip = s.skip := rfl
@[simp] theorem wantPair_pair (st : PairState) (s : State) :
    (wantPair st s).pair = { s.pair with want := some st } := rfl
@[simp] theorem wantPair_pwr (st : PairState) (s : State) : (wantPair st s).pwr = s.pwr := rfl
@[simp] theorem wantPair_boot (st : PairState) (s : State) : (wantPair st s).boot = s.boot := rfl
@[simp] theorem wantPair_out (st : PairState) (s : State) : (wantPair st s).out = s.out := rfl
@[simp] theorem wantPair_draws (st : PairState) (s : State) : (wantPair st s).draws = s.draws := rfl
@[simp] theorem wantPair_small (st : PairState) (s : State) : (wantPair st s).small = s.small := rfl
@[simp] theorem wantPair_pending (st : PairState) (s : State) : (wantPair st s).pending = s.pending := rfl

@[simp] theorem pairCount_clock (i n : Nat) (s : State) : (pairCount i n s).clock = s.clock := rfl
@[simp] theorem pairCount_host (i n : Nat) (s : State) : (pairCount i n s).host = s.host := rfl
@[simp] theorem pairCount_ctl (i n : Nat) (s : State) : (pairCount i n s).ctl = s.ctl := rfl
@[simp] theorem pairCount_lod (i n : Nat) (s : State) : (pairCount i n s).lod = s.lod := rfl
@[simp] theorem pairCount_ports (i n : Nat) (s : State) : (pairCount i n s).ports = s.ports := rfl
@[simp] theorem pairCount_mer (i n : Nat) (s : State) : (pairCount i n s).mer = s.mer := rfl
@[simp] theorem pairCount_perf (i n : Nat) (s : State) : (pairCount i n s).perf = s.perf := rfl
@[simp] theorem pairCount_pools (i n : Nat) (s : State) : (pairCount i n s).pools = s.pools := rfl
@[simp] theorem pairCount_sw (i n : Nat) (s : State) : (pairCount i n s).sw = s.sw := rfl
@[simp] theorem pairCount_cls (i n : Nat) (s : State) : (pairCount i n s).cls = s.cls := rfl
@[simp] theorem pairCount_hbm (i n : Nat) (s : State) : (pairCount i n s).hbm = s.hbm := rfl
@[simp] theorem pairCount_met (i n : Nat) (s : State) : (pairCount i n s).met = s.met := rfl
@[simp] theorem pairCount_flow (i n : Nat) (s : State) : (pairCount i n s).flow = s.flow := rfl
@[simp] theorem pairCount_skip (i n : Nat) (s : State) : (pairCount i n s).skip = s.skip := rfl
@[simp] theorem pairCount_pair (i n : Nat) (s : State) :
    (pairCount i n s).pair = { s.pair with cnt := modAt s.pair.cnt i (fun c => inc64 c n) } := rfl
@[simp] theorem pairCount_pwr (i n : Nat) (s : State) : (pairCount i n s).pwr = s.pwr := rfl
@[simp] theorem pairCount_boot (i n : Nat) (s : State) : (pairCount i n s).boot = s.boot := rfl
@[simp] theorem pairCount_out (i n : Nat) (s : State) : (pairCount i n s).out = s.out := rfl
@[simp] theorem pairCount_draws (i n : Nat) (s : State) : (pairCount i n s).draws = s.draws := rfl
@[simp] theorem pairCount_small (i n : Nat) (s : State) : (pairCount i n s).small = s.small := rfl
@[simp] theorem pairCount_pending (i n : Nat) (s : State) : (pairCount i n s).pending = s.pending := rfl

@[simp] theorem modPoolCnt_clock (pool : Nat) (f : PoolCounts → PoolCounts) (s : State) :
    (modPoolCnt pool f s).clock = s.clock := rfl
@[simp] theorem modPoolCnt_host (pool : Nat) (f : PoolCounts → PoolCounts) (s : State) :
    (modPoolCnt pool f s).host = s.host := rfl
@[simp] theorem modPoolCnt_ctl (pool : Nat) (f : PoolCounts → PoolCounts) (s : State) :
    (modPoolCnt pool f s).ctl = s.ctl := rfl
@[simp] theorem modPoolCnt_lod (pool : Nat) (f : PoolCounts → PoolCounts) (s : State) :
    (modPoolCnt pool f s).lod = s.lod := rfl
@[simp] theorem modPoolCnt_ports (pool : Nat) (f : PoolCounts → PoolCounts) (s : State) :
    (modPoolCnt pool f s).ports = s.ports := rfl
@[simp] theorem modPoolCnt_mer (pool : Nat) (f : PoolCounts → PoolCounts) (s : State) :
    (modPoolCnt pool f s).mer = s.mer := rfl
@[simp] theorem modPoolCnt_perf (pool : Nat) (f : PoolCounts → PoolCounts) (s : State) :
    (modPoolCnt pool f s).perf = s.perf := rfl
@[simp] theorem modPoolCnt_pools (pool : Nat) (f : PoolCounts → PoolCounts) (s : State) :
    (modPoolCnt pool f s).pools = { s.pools with cnt := kmod poolCountsReset s.pools.cnt pool f } := rfl
@[simp] theorem modPoolCnt_sw (pool : Nat) (f : PoolCounts → PoolCounts) (s : State) :
    (modPoolCnt pool f s).sw = s.sw := rfl
@[simp] theorem modPoolCnt_cls (pool : Nat) (f : PoolCounts → PoolCounts) (s : State) :
    (modPoolCnt pool f s).cls = s.cls := rfl
@[simp] theorem modPoolCnt_hbm (pool : Nat) (f : PoolCounts → PoolCounts) (s : State) :
    (modPoolCnt pool f s).hbm = s.hbm := rfl
@[simp] theorem modPoolCnt_met (pool : Nat) (f : PoolCounts → PoolCounts) (s : State) :
    (modPoolCnt pool f s).met = s.met := rfl
@[simp] theorem modPoolCnt_flow (pool : Nat) (f : PoolCounts → PoolCounts) (s : State) :
    (modPoolCnt pool f s).flow = s.flow := rfl
@[simp] theorem modPoolCnt_skip (pool : Nat) (f : PoolCounts → PoolCounts) (s : State) :
    (modPoolCnt pool f s).skip = s.skip := rfl
@[simp] theorem modPoolCnt_pair (pool : Nat) (f : PoolCounts → PoolCounts) (s : State) :
    (modPoolCnt pool f s).pair = s.pair := rfl
@[simp] theorem modPoolCnt_pwr (pool : Nat) (f : PoolCounts → PoolCounts) (s : State) :
    (modPoolCnt pool f s).pwr = s.pwr := rfl
@[simp] theorem modPoolCnt_boot (pool : Nat) (f : PoolCounts → PoolCounts) (s : State) :
    (modPoolCnt pool f s).boot = s.boot := rfl
@[simp] theorem modPoolCnt_out (pool : Nat) (f : PoolCounts → PoolCounts) (s : State) :
    (modPoolCnt pool f s).out = s.out := rfl
@[simp] theorem modPoolCnt_draws (pool : Nat) (f : PoolCounts → PoolCounts) (s : State) :
    (modPoolCnt pool f s).draws = s.draws := rfl
@[simp] theorem modPoolCnt_small (pool : Nat) (f : PoolCounts → PoolCounts) (s : State) :
    (modPoolCnt pool f s).small = s.small := rfl
@[simp] theorem modPoolCnt_pending (pool : Nat) (f : PoolCounts → PoolCounts) (s : State) :
    (modPoolCnt pool f s).pending = s.pending := rfl

@[simp] theorem modAcct_clock (acct pool : Nat) (f : AcctUse → AcctUse) (s : State) :
    (modAcct acct pool f s).clock = s.clock := rfl
@[simp] theorem modAcct_host (acct pool : Nat) (f : AcctUse → AcctUse) (s : State) :
    (modAcct acct pool f s).host = s.host := rfl
@[simp] theorem modAcct_ctl (acct pool : Nat) (f : AcctUse → AcctUse) (s : State) :
    (modAcct acct pool f s).ctl = s.ctl := rfl
@[simp] theorem modAcct_lod (acct pool : Nat) (f : AcctUse → AcctUse) (s : State) :
    (modAcct acct pool f s).lod = s.lod := rfl
@[simp] theorem modAcct_ports (acct pool : Nat) (f : AcctUse → AcctUse) (s : State) :
    (modAcct acct pool f s).ports = s.ports := rfl
@[simp] theorem modAcct_mer (acct pool : Nat) (f : AcctUse → AcctUse) (s : State) :
    (modAcct acct pool f s).mer = s.mer := rfl
@[simp] theorem modAcct_perf (acct pool : Nat) (f : AcctUse → AcctUse) (s : State) :
    (modAcct acct pool f s).perf = s.perf := rfl
@[simp] theorem modAcct_pools (acct pool : Nat) (f : AcctUse → AcctUse) (s : State) :
    (modAcct acct pool f s).pools = { s.pools with acct := kmod acctUseReset s.pools.acct (acct * 8 + pool) f } := rfl
@[simp] theorem modAcct_sw (acct pool : Nat) (f : AcctUse → AcctUse) (s : State) :
    (modAcct acct pool f s).sw = s.sw := rfl
@[simp] theorem modAcct_cls (acct pool : Nat) (f : AcctUse → AcctUse) (s : State) :
    (modAcct acct pool f s).cls = s.cls := rfl
@[simp] theorem modAcct_hbm (acct pool : Nat) (f : AcctUse → AcctUse) (s : State) :
    (modAcct acct pool f s).hbm = s.hbm := rfl
@[simp] theorem modAcct_met (acct pool : Nat) (f : AcctUse → AcctUse) (s : State) :
    (modAcct acct pool f s).met = s.met := rfl
@[simp] theorem modAcct_flow (acct pool : Nat) (f : AcctUse → AcctUse) (s : State) :
    (modAcct acct pool f s).flow = s.flow := rfl
@[simp] theorem modAcct_skip (acct pool : Nat) (f : AcctUse → AcctUse) (s : State) :
    (modAcct acct pool f s).skip = s.skip := rfl
@[simp] theorem modAcct_pair (acct pool : Nat) (f : AcctUse → AcctUse) (s : State) :
    (modAcct acct pool f s).pair = s.pair := rfl
@[simp] theorem modAcct_pwr (acct pool : Nat) (f : AcctUse → AcctUse) (s : State) :
    (modAcct acct pool f s).pwr = s.pwr := rfl
@[simp] theorem modAcct_boot (acct pool : Nat) (f : AcctUse → AcctUse) (s : State) :
    (modAcct acct pool f s).boot = s.boot := rfl
@[simp] theorem modAcct_out (acct pool : Nat) (f : AcctUse → AcctUse) (s : State) :
    (modAcct acct pool f s).out = s.out := rfl
@[simp] theorem modAcct_draws (acct pool : Nat) (f : AcctUse → AcctUse) (s : State) :
    (modAcct acct pool f s).draws = s.draws := rfl
@[simp] theorem modAcct_small (acct pool : Nat) (f : AcctUse → AcctUse) (s : State) :
    (modAcct acct pool f s).small = s.small := rfl
@[simp] theorem modAcct_pending (acct pool : Nat) (f : AcctUse → AcctUse) (s : State) :
    (modAcct acct pool f s).pending = s.pending := rfl

@[simp] theorem settle_clock (s : State) : (settle s).clock = s.clock := rfl
@[simp] theorem settle_host (s : State) : (settle s).host = s.host := rfl
@[simp] theorem settle_ctl (s : State) : (settle s).ctl = s.ctl := rfl
@[simp] theorem settle_lod (s : State) :
    (settle s).lod = { s.lod with isoFault := (pinsNow s).1, errN := (pinsNow s).2 } := rfl
@[simp] theorem settle_ports (s : State) : (settle s).ports = s.ports := rfl
@[simp] theorem settle_mer (s : State) : (settle s).mer = s.mer := rfl
@[simp] theorem settle_perf (s : State) : (settle s).perf = s.perf := rfl
@[simp] theorem settle_pools (s : State) : (settle s).pools = s.pools := rfl
@[simp] theorem settle_sw (s : State) : (settle s).sw = s.sw := rfl
@[simp] theorem settle_cls (s : State) : (settle s).cls = s.cls := rfl
@[simp] theorem settle_hbm (s : State) : (settle s).hbm = s.hbm := rfl
@[simp] theorem settle_met (s : State) : (settle s).met = s.met := rfl
@[simp] theorem settle_flow (s : State) : (settle s).flow = s.flow := rfl
@[simp] theorem settle_skip (s : State) : (settle s).skip = s.skip := rfl
@[simp] theorem settle_pair (s : State) : (settle s).pair = s.pair := rfl
@[simp] theorem settle_pwr (s : State) : (settle s).pwr = s.pwr := rfl
@[simp] theorem settle_boot (s : State) : (settle s).boot = s.boot := rfl
@[simp] theorem settle_out (s : State) : (settle s).out = s.out := rfl
@[simp] theorem settle_draws (s : State) : (settle s).draws = s.draws := rfl
@[simp] theorem settle_small (s : State) : (settle s).small = s.small := rfl
@[simp] theorem settle_pending (s : State) : (settle s).pending = s.pending := rfl

@[simp] theorem modEng_clock (id : Nat) (f : Engine → Engine) (s : State) : (modEng id f s).clock = s.clock := rfl
@[simp] theorem modEng_host (id : Nat) (f : Engine → Engine) (s : State) : (modEng id f s).host = s.host := rfl
@[simp] theorem modEng_ctl (id : Nat) (f : Engine → Engine) (s : State) : (modEng id f s).ctl = s.ctl := rfl
@[simp] theorem modEng_lod (id : Nat) (f : Engine → Engine) (s : State) : (modEng id f s).lod = s.lod := rfl
@[simp] theorem modEng_ports (id : Nat) (f : Engine → Engine) (s : State) : (modEng id f s).ports = s.ports := rfl
@[simp] theorem modEng_mer (id : Nat) (f : Engine → Engine) (s : State) : (modEng id f s).mer = s.mer := rfl
@[simp] theorem modEng_perf (id : Nat) (f : Engine → Engine) (s : State) : (modEng id f s).perf = s.perf := rfl
@[simp] theorem modEng_pools (id : Nat) (f : Engine → Engine) (s : State) : (modEng id f s).pools = s.pools := rfl
@[simp] theorem modEng_sw (id : Nat) (f : Engine → Engine) (s : State) : (modEng id f s).sw = s.sw := rfl
@[simp] theorem modEng_cls (id : Nat) (f : Engine → Engine) (s : State) : (modEng id f s).cls = s.cls := rfl
@[simp] theorem modEng_hbm (id : Nat) (f : Engine → Engine) (s : State) : (modEng id f s).hbm = s.hbm := rfl
@[simp] theorem modEng_met (id : Nat) (f : Engine → Engine) (s : State) : (modEng id f s).met = s.met := rfl
@[simp] theorem modEng_flow (id : Nat) (f : Engine → Engine) (s : State) : (modEng id f s).flow = s.flow := rfl
@[simp] theorem modEng_skip (id : Nat) (f : Engine → Engine) (s : State) :
    (modEng id f s).skip = { s.skip with engines := kmod engineReset s.skip.engines id f } := rfl
@[simp] theorem modEng_pair (id : Nat) (f : Engine → Engine) (s : State) : (modEng id f s).pair = s.pair := rfl
@[simp] theorem modEng_pwr (id : Nat) (f : Engine → Engine) (s : State) : (modEng id f s).pwr = s.pwr := rfl
@[simp] theorem modEng_boot (id : Nat) (f : Engine → Engine) (s : State) : (modEng id f s).boot = s.boot := rfl
@[simp] theorem modEng_out (id : Nat) (f : Engine → Engine) (s : State) : (modEng id f s).out = s.out := rfl
@[simp] theorem modEng_draws (id : Nat) (f : Engine → Engine) (s : State) : (modEng id f s).draws = s.draws := rfl
@[simp] theorem modEng_small (id : Nat) (f : Engine → Engine) (s : State) : (modEng id f s).small = s.small := rfl
@[simp] theorem modEng_pending (id : Nat) (f : Engine → Engine) (s : State) :
    (modEng id f s).pending = s.pending := rfl

@[simp] theorem modCluster_clock (c : Nat) (f : Cluster → Cluster) (s : State) :
    (modCluster c f s).clock = s.clock := rfl
@[simp] theorem modCluster_host (c : Nat) (f : Cluster → Cluster) (s : State) :
    (modCluster c f s).host = s.host := rfl
@[simp] theorem modCluster_ctl (c : Nat) (f : Cluster → Cluster) (s : State) : (modCluster c f s).ctl = s.ctl := rfl
@[simp] theorem modCluster_lod (c : Nat) (f : Cluster → Cluster) (s : State) : (modCluster c f s).lod = s.lod := rfl
@[simp] theorem modCluster_ports (c : Nat) (f : Cluster → Cluster) (s : State) :
    (modCluster c f s).ports = s.ports := rfl
@[simp] theorem modCluster_mer (c : Nat) (f : Cluster → Cluster) (s : State) : (modCluster c f s).mer = s.mer := rfl
@[simp] theorem modCluster_perf (c : Nat) (f : Cluster → Cluster) (s : State) :
    (modCluster c f s).perf = s.perf := rfl
@[simp] theorem modCluster_pools (c : Nat) (f : Cluster → Cluster) (s : State) :
    (modCluster c f s).pools = s.pools := rfl
@[simp] theorem modCluster_sw (c : Nat) (f : Cluster → Cluster) (s : State) : (modCluster c f s).sw = s.sw := rfl
@[simp] theorem modCluster_cls (c : Nat) (f : Cluster → Cluster) (s : State) : (modCluster c f s).cls = s.cls := rfl
@[simp] theorem modCluster_hbm (c : Nat) (f : Cluster → Cluster) (s : State) : (modCluster c f s).hbm = s.hbm := rfl
@[simp] theorem modCluster_met (c : Nat) (f : Cluster → Cluster) (s : State) : (modCluster c f s).met = s.met := rfl
@[simp] theorem modCluster_flow (c : Nat) (f : Cluster → Cluster) (s : State) :
    (modCluster c f s).flow = s.flow := rfl
@[simp] theorem modCluster_skip (c : Nat) (f : Cluster → Cluster) (s : State) :
    (modCluster c f s).skip = { s.skip with clusters := kmod clusterReset s.skip.clusters c f } := rfl
@[simp] theorem modCluster_pair (c : Nat) (f : Cluster → Cluster) (s : State) :
    (modCluster c f s).pair = s.pair := rfl
@[simp] theorem modCluster_pwr (c : Nat) (f : Cluster → Cluster) (s : State) : (modCluster c f s).pwr = s.pwr := rfl
@[simp] theorem modCluster_boot (c : Nat) (f : Cluster → Cluster) (s : State) :
    (modCluster c f s).boot = s.boot := rfl
@[simp] theorem modCluster_out (c : Nat) (f : Cluster → Cluster) (s : State) : (modCluster c f s).out = s.out := rfl
@[simp] theorem modCluster_draws (c : Nat) (f : Cluster → Cluster) (s : State) :
    (modCluster c f s).draws = s.draws := rfl
@[simp] theorem modCluster_small (c : Nat) (f : Cluster → Cluster) (s : State) :
    (modCluster c f s).small = s.small := rfl
@[simp] theorem modCluster_pending (c : Nat) (f : Cluster → Cluster) (s : State) :
    (modCluster c f s).pending = s.pending := rfl

@[simp] theorem skipCount_clock (i n : Nat) (s : State) : (skipCount i n s).clock = s.clock := rfl
@[simp] theorem skipCount_host (i n : Nat) (s : State) : (skipCount i n s).host = s.host := rfl
@[simp] theorem skipCount_ctl (i n : Nat) (s : State) : (skipCount i n s).ctl = s.ctl := rfl
@[simp] theorem skipCount_lod (i n : Nat) (s : State) : (skipCount i n s).lod = s.lod := rfl
@[simp] theorem skipCount_ports (i n : Nat) (s : State) : (skipCount i n s).ports = s.ports := rfl
@[simp] theorem skipCount_mer (i n : Nat) (s : State) : (skipCount i n s).mer = s.mer := rfl
@[simp] theorem skipCount_perf (i n : Nat) (s : State) : (skipCount i n s).perf = s.perf := rfl
@[simp] theorem skipCount_pools (i n : Nat) (s : State) : (skipCount i n s).pools = s.pools := rfl
@[simp] theorem skipCount_sw (i n : Nat) (s : State) : (skipCount i n s).sw = s.sw := rfl
@[simp] theorem skipCount_cls (i n : Nat) (s : State) : (skipCount i n s).cls = s.cls := rfl
@[simp] theorem skipCount_hbm (i n : Nat) (s : State) : (skipCount i n s).hbm = s.hbm := rfl
@[simp] theorem skipCount_met (i n : Nat) (s : State) : (skipCount i n s).met = s.met := rfl
@[simp] theorem skipCount_flow (i n : Nat) (s : State) : (skipCount i n s).flow = s.flow := rfl
@[simp] theorem skipCount_skip (i n : Nat) (s : State) :
    (skipCount i n s).skip = { s.skip with cnt := modAt s.skip.cnt i (fun c => inc64 c n) } := rfl
@[simp] theorem skipCount_pair (i n : Nat) (s : State) : (skipCount i n s).pair = s.pair := rfl
@[simp] theorem skipCount_pwr (i n : Nat) (s : State) : (skipCount i n s).pwr = s.pwr := rfl
@[simp] theorem skipCount_boot (i n : Nat) (s : State) : (skipCount i n s).boot = s.boot := rfl
@[simp] theorem skipCount_out (i n : Nat) (s : State) : (skipCount i n s).out = s.out := rfl
@[simp] theorem skipCount_draws (i n : Nat) (s : State) : (skipCount i n s).draws = s.draws := rfl
@[simp] theorem skipCount_small (i n : Nat) (s : State) : (skipCount i n s).small = s.small := rfl
@[simp] theorem skipCount_pending (i n : Nat) (s : State) : (skipCount i n s).pending = s.pending := rfl

@[simp] theorem dropHold_clock (key : Bytes) (s : State) : (dropHold key s).clock = s.clock := rfl
@[simp] theorem dropHold_host (key : Bytes) (s : State) : (dropHold key s).host = s.host := rfl
@[simp] theorem dropHold_ctl (key : Bytes) (s : State) : (dropHold key s).ctl = s.ctl := rfl
@[simp] theorem dropHold_lod (key : Bytes) (s : State) : (dropHold key s).lod = s.lod := rfl
@[simp] theorem dropHold_ports (key : Bytes) (s : State) : (dropHold key s).ports = s.ports := rfl
@[simp] theorem dropHold_mer (key : Bytes) (s : State) : (dropHold key s).mer = s.mer := rfl
@[simp] theorem dropHold_perf (key : Bytes) (s : State) : (dropHold key s).perf = s.perf := rfl
@[simp] theorem dropHold_pools (key : Bytes) (s : State) : (dropHold key s).pools = s.pools := rfl
@[simp] theorem dropHold_sw (key : Bytes) (s : State) : (dropHold key s).sw = s.sw := rfl
@[simp] theorem dropHold_cls (key : Bytes) (s : State) : (dropHold key s).cls = s.cls := rfl
@[simp] theorem dropHold_hbm (key : Bytes) (s : State) : (dropHold key s).hbm = s.hbm := rfl
@[simp] theorem dropHold_met (key : Bytes) (s : State) : (dropHold key s).met = s.met := rfl
@[simp] theorem dropHold_flow (key : Bytes) (s : State) :
    (dropHold key s).flow = { s.flow with holds := s.flow.holds.filter (fun h => h.key != key) } := rfl
@[simp] theorem dropHold_skip (key : Bytes) (s : State) : (dropHold key s).skip = s.skip := rfl
@[simp] theorem dropHold_pair (key : Bytes) (s : State) : (dropHold key s).pair = s.pair := rfl
@[simp] theorem dropHold_pwr (key : Bytes) (s : State) : (dropHold key s).pwr = s.pwr := rfl
@[simp] theorem dropHold_boot (key : Bytes) (s : State) : (dropHold key s).boot = s.boot := rfl
@[simp] theorem dropHold_out (key : Bytes) (s : State) : (dropHold key s).out = s.out := rfl
@[simp] theorem dropHold_draws (key : Bytes) (s : State) : (dropHold key s).draws = s.draws := rfl
@[simp] theorem dropHold_small (key : Bytes) (s : State) : (dropHold key s).small = s.small := rfl
@[simp] theorem dropHold_pending (key : Bytes) (s : State) : (dropHold key s).pending = s.pending := rfl

@[simp] theorem modHold_clock (key : Bytes) (f : Hold → Hold) (s : State) : (modHold key f s).clock = s.clock := rfl
@[simp] theorem modHold_host (key : Bytes) (f : Hold → Hold) (s : State) : (modHold key f s).host = s.host := rfl
@[simp] theorem modHold_ctl (key : Bytes) (f : Hold → Hold) (s : State) : (modHold key f s).ctl = s.ctl := rfl
@[simp] theorem modHold_lod (key : Bytes) (f : Hold → Hold) (s : State) : (modHold key f s).lod = s.lod := rfl
@[simp] theorem modHold_ports (key : Bytes) (f : Hold → Hold) (s : State) : (modHold key f s).ports = s.ports := rfl
@[simp] theorem modHold_mer (key : Bytes) (f : Hold → Hold) (s : State) : (modHold key f s).mer = s.mer := rfl
@[simp] theorem modHold_perf (key : Bytes) (f : Hold → Hold) (s : State) : (modHold key f s).perf = s.perf := rfl
@[simp] theorem modHold_pools (key : Bytes) (f : Hold → Hold) (s : State) : (modHold key f s).pools = s.pools := rfl
@[simp] theorem modHold_sw (key : Bytes) (f : Hold → Hold) (s : State) : (modHold key f s).sw = s.sw := rfl
@[simp] theorem modHold_cls (key : Bytes) (f : Hold → Hold) (s : State) : (modHold key f s).cls = s.cls := rfl
@[simp] theorem modHold_hbm (key : Bytes) (f : Hold → Hold) (s : State) : (modHold key f s).hbm = s.hbm := rfl
@[simp] theorem modHold_met (key : Bytes) (f : Hold → Hold) (s : State) : (modHold key f s).met = s.met := rfl
@[simp] theorem modHold_flow (key : Bytes) (f : Hold → Hold) (s : State) :
    (modHold key f s).flow = { s.flow with holds := s.flow.holds.map (fun h => if h.key = key then f h else h) } := rfl
@[simp] theorem modHold_skip (key : Bytes) (f : Hold → Hold) (s : State) : (modHold key f s).skip = s.skip := rfl
@[simp] theorem modHold_pair (key : Bytes) (f : Hold → Hold) (s : State) : (modHold key f s).pair = s.pair := rfl
@[simp] theorem modHold_pwr (key : Bytes) (f : Hold → Hold) (s : State) : (modHold key f s).pwr = s.pwr := rfl
@[simp] theorem modHold_boot (key : Bytes) (f : Hold → Hold) (s : State) : (modHold key f s).boot = s.boot := rfl
@[simp] theorem modHold_out (key : Bytes) (f : Hold → Hold) (s : State) : (modHold key f s).out = s.out := rfl
@[simp] theorem modHold_draws (key : Bytes) (f : Hold → Hold) (s : State) : (modHold key f s).draws = s.draws := rfl
@[simp] theorem modHold_small (key : Bytes) (f : Hold → Hold) (s : State) : (modHold key f s).small = s.small := rfl
@[simp] theorem modHold_pending (key : Bytes) (f : Hold → Hold) (s : State) :
    (modHold key f s).pending = s.pending := rfl

@[simp] theorem dropEntries_clock (owner group : Nat) (s : State) : (dropEntries owner group s).clock = s.clock := rfl
@[simp] theorem dropEntries_host (owner group : Nat) (s : State) : (dropEntries owner group s).host = s.host := rfl
@[simp] theorem dropEntries_ctl (owner group : Nat) (s : State) :
    (dropEntries owner group s).ctl = { s.ctl with staging := s.ctl.staging.filter (fun e => !(e.owner == owner && inGroup s group e.obj)) } := rfl
@[simp] theorem dropEntries_lod (owner group : Nat) (s : State) : (dropEntries owner group s).lod = s.lod := rfl
@[simp] theorem dropEntries_ports (owner group : Nat) (s : State) : (dropEntries owner group s).ports = s.ports := rfl
@[simp] theorem dropEntries_mer (owner group : Nat) (s : State) : (dropEntries owner group s).mer = s.mer := rfl
@[simp] theorem dropEntries_perf (owner group : Nat) (s : State) : (dropEntries owner group s).perf = s.perf := rfl
@[simp] theorem dropEntries_pools (owner group : Nat) (s : State) : (dropEntries owner group s).pools = s.pools := rfl
@[simp] theorem dropEntries_sw (owner group : Nat) (s : State) : (dropEntries owner group s).sw = s.sw := rfl
@[simp] theorem dropEntries_cls (owner group : Nat) (s : State) : (dropEntries owner group s).cls = s.cls := rfl
@[simp] theorem dropEntries_hbm (owner group : Nat) (s : State) : (dropEntries owner group s).hbm = s.hbm := rfl
@[simp] theorem dropEntries_met (owner group : Nat) (s : State) : (dropEntries owner group s).met = s.met := rfl
@[simp] theorem dropEntries_flow (owner group : Nat) (s : State) : (dropEntries owner group s).flow = s.flow := rfl
@[simp] theorem dropEntries_skip (owner group : Nat) (s : State) : (dropEntries owner group s).skip = s.skip := rfl
@[simp] theorem dropEntries_pair (owner group : Nat) (s : State) : (dropEntries owner group s).pair = s.pair := rfl
@[simp] theorem dropEntries_pwr (owner group : Nat) (s : State) : (dropEntries owner group s).pwr = s.pwr := rfl
@[simp] theorem dropEntries_boot (owner group : Nat) (s : State) : (dropEntries owner group s).boot = s.boot := rfl
@[simp] theorem dropEntries_out (owner group : Nat) (s : State) : (dropEntries owner group s).out = s.out := rfl
@[simp] theorem dropEntries_draws (owner group : Nat) (s : State) : (dropEntries owner group s).draws = s.draws := rfl
@[simp] theorem dropEntries_small (owner group : Nat) (s : State) : (dropEntries owner group s).small = s.small := rfl
@[simp] theorem dropEntries_pending (owner group : Nat) (s : State) :
    (dropEntries owner group s).pending = s.pending := rfl

/-! ### Updates under a condition -/

theorem atNs_frame (ns : BitVec 10) (s : State) : atNs ns s = { s with clock.sub := (atNs ns s).clock.sub } := by
  unfold atNs
  split <;> rfl
theorem promise_frame (c : CmdSrc) (s : State) : promise c s = { s with host.rings := (promise c s).host.rings } := by
  cases c <;> rfl
theorem hostMem_frame (a : Nat) (bs : Bytes) (s : State) : hostMem a bs s = { s with out.host := (hostMem a bs s).out.host } := by
  unfold hostMem
  split <;> rfl
theorem sendMsix_frame (v : BitVec 6) (s : State) :
    sendMsix v s = { s with host.pba := (sendMsix v s).host.pba, out.host := (sendMsix v s).out.host } := by
  unfold sendMsix
  dsimp only
  split <;> rfl

/-! ### The fault pins (R457) -/

theorem settled_settle (s : State) : Settled (settle s) := ⟨rfl, rfl⟩
theorem settle_of_settled {s : State} (h : Settled s) : settle s = s := by
  obtain ⟨h1, h2⟩ := h
  unfold settle
  rw [← h1, ← h2]
theorem settle_settle (s : State) : settle (settle s) = settle s := settle_of_settled (settled_settle s)

/-! ### Memory keeps its canonical form -/

theorem hbmWrite_wf {s : State} (h : memWf s.hbm.mem = true) (region a : Nat) (bs : Bytes) :
    memWf (hbmWrite region a bs s).hbm.mem = true := memWriteN_wf h _ _
theorem memSorted_filter (q : Host.Cell → Bool) :
    ∀ (m : List Host.Cell) (lo : Nat), memSorted lo m = true → memSorted lo (m.filter q) = true
  | [], _, _ => rfl
  | c :: m, lo, h => by
    simp only [memSorted, Bool.and_eq_true, decide_eq_true_eq] at h
    cases hq : q c with
    | true =>
      simp only [List.filter, hq, memSorted, Bool.and_eq_true, decide_eq_true_eq]
      exact ⟨h.1, memSorted_filter q m _ h.2⟩
    | false =>
      simp only [List.filter, hq]
      exact memSorted_le (memSorted_filter q m _ h.2) (Nat.le_succ_of_le h.1)
theorem memWf_filter {m : List Host.Cell} (h : memWf m = true) (q : Host.Cell → Bool) : memWf (m.filter q) = true := by
  simp only [memWf, Bool.and_eq_true] at h ⊢
  exact ⟨memSorted_filter q m _ h.1, List.all_eq_true.mpr fun x hx =>
    List.all_eq_true.mp h.2 x (List.mem_filter.mp hx).1⟩
theorem reset_memWf : memWf State.reset.hbm.mem = true := rfl
theorem reset_settled : Settled State.reset := ⟨rfl, rfl⟩
theorem reset_pending : State.reset.pending = [] := rfl

end Sys2Proof.Machine
end

