-- ==== Sys2Proof/Laws/Operations.lean ====
section
/-! SUPPORT. What the shared operations do, said once: sorting, claims, the checks of a command, counters of events, the
completion of a command and the writing of its entry, ring and engine updates. -/

namespace Sys2Proof.Machine

open Sys2Proof

/-! ### Sorting and claims -/

theorem mem_insertBy {α} (k : α → Nat) (x y : α) (l : List α) : y ∈ insertBy k x l ↔ y = x ∨ y ∈ l := by
  induction l with
  | nil => simp [insertBy]
  | cons z zs ih =>
    unfold insertBy; split
    · simp
    · simp only [List.mem_cons, ih]; constructor <;> rintro (h | h | h) <;> simp [h]
theorem mem_sortBy {α} (k : α → Nat) (y : α) (l : List α) : y ∈ sortBy k l ↔ y ∈ l := by
  have h : ∀ (l acc : List α), y ∈ l.foldl (fun acc x => insertBy k x acc) acc ↔ y ∈ acc ∨ y ∈ l := by
    intro l
    induction l with
    | nil => intro acc; simp
    | cons z zs ih =>
      intro acc
      rw [List.foldl_cons, ih, mem_insertBy, List.mem_cons]
      constructor
      · rintro ((h | h) | h)
        · exact .inr (.inl h)
        · exact .inl h
        · exact .inr (.inr h)
      · rintro (h | h | h)
        · exact .inl (.inr h)
        · exact .inl (.inl h)
        · exact .inr h
  have := h l []
  simpa [sortBy] using this
theorem winner_none {cl : Claimed} {src : Nat} {objs : List Obj} (h : winner cl src objs = none) :
    ∀ c ∈ cl, ∀ o ∈ objs, c.2.2 ≠ src → objMeet c.1 o = true → False := by
  intro c hc o ho hs hm
  unfold winner at h
  rw [List.findSome?_eq_none_iff] at h
  have := h o ((mem_sortBy _ _ _).mpr ho)
  rw [Option.map_eq_none_iff, List.find?_eq_none] at this
  exact this c hc (by simp [hs, hm])

/-! ### Ring and in-band commands -/

theorem exec_ringOp {i op p} (h : ringOp i = some (op, p)) (s : State) : exec i s = finish (runCommand op p s) := by
  cases i <;> simp only [ringOp, Option.some.injEq, Prod.mk.injEq, reduceCtorEq] at h <;> obtain ⟨rfl, rfl⟩ := h <;> rfl
theorem firstFailed_eq (op : Op) (p : CmdPkt) (s : State) : earlyCheck op p s = firstFailed op p s := by
  unfold earlyCheck firstFailed
  simp only [Bool.or_eq_true, Bool.not_eq_true', Bool.and_eq_true, bne_iff_ne, ne_eq, and_assoc,
    Option.isNone_iff_eq_none, List.contains_eq_mem, decide_eq_false_iff_not]
theorem checkCmd_early {op p s st} (h : firstFailed op p s = some st) : checkCmd op p s = (.refused st, s) := by
  unfold checkCmd; rw [firstFailed_eq, h]

/-! ### Events that counters count, and completions -/

theorem perfEvent_frame (ev pr m ad c n : Nat) (s : State) :
    perfEvent ev pr m ad c n s = { s with perf.counters := (perfEvent ev pr m ad c n s).perf.counters } := by
  unfold perfEvent
  generalize perfSelected s = l
  induction l generalizing s with
  | nil => rfl
  | cons x xs ih =>
    rw [List.foldl_cons]
    split
    · rw [ih]
    · exact ih s
/-- Only what a completion writes differs: the rings and interrupt bits of the host attachment, what leaves the chip, the
counters, completions and frames that wait, and the draw counter. -/
@[irreducible] def AnswerOnly (s t : State) : Prop := t = { s with
  host.rings := t.host.rings, host.pba := t.host.pba, out.host := t.out.host, perf.counters := t.perf.counters
  draws := t.draws, ctl.cpls := t.ctl.cpls, ctl.origin := t.ctl.origin }
theorem AnswerOnly.trans {a b c} (h1 : AnswerOnly a b) (h2 : AnswerOnly b c) : AnswerOnly a c := by
  unfold AnswerOnly at *; rw [h2, h1]
theorem AnswerOnly.refl (a : State) : AnswerOnly a a := by unfold AnswerOnly; rfl
theorem answerOnly_perf (ev pr m ad c n : Nat) (s : State) : AnswerOnly s (perfEvent ev pr m ad c n s) := by
  unfold AnswerOnly; rw [perfEvent_frame]
theorem answerOnly_hostMem (a b) (s : State) : AnswerOnly s (hostMem a b s) := by unfold AnswerOnly hostMem; split <;> rfl
theorem answerOnly_msix (v) (s : State) : AnswerOnly s (sendMsix v s) := by unfold AnswerOnly sendMsix; dsimp only; split <;> rfl
theorem answerOnly_inband (a b c d e) (s : State) : AnswerOnly s (inbandResponse a b c d e s) := by unfold AnswerOnly; rfl
theorem answerOnly_modRing (n f) (s : State) : AnswerOnly s (modRing n f s) := by unfold AnswerOnly; rfl
theorem answerOnly_draws (n) (s : State) : AnswerOnly s (advanceDraws n s) := by unfold AnswerOnly; rfl
theorem answerOnly_cpls (l) (s : State) : AnswerOnly s { s with ctl.cpls := l } := by unfold AnswerOnly; rfl
theorem answerOnly_complete (code : Nat) (p o fix) (s : State) : AnswerOnly s (complete code p o fix s) := by
  unfold complete
  dsimp only
  generalize hv : (if o.free then (openDraw 24 s).toNat else o.result) = v
  refine AnswerOnly.trans (b := if o.free then advanceDraws 1 s else s) ?_ ?_
  · split
    · exact answerOnly_draws _ _
    · exact .refl _
  generalize (if o.free then advanceDraws 1 s else s) = s
  refine AnswerOnly.trans (answerOnly_perf 0x1003 (privOf p.src) 0 code (min 15 o.status) 1 s) ?_
  generalize perfEvent 0x1003 (privOf p.src) 0 code (min 15 o.status) 1 s = u
  cases p.src with
  | ring n =>
    dsimp only
    split
    · exact .refl _
    · exact (answerOnly_hostMem _ _ _).trans (answerOnly_cpls _ _)
  | inband => exact answerOnly_inband _ _ _ _ _ _
theorem answerOnly_foldl {α} (f : State → α → State) (h : ∀ s x, AnswerOnly s (f s x)) (l : List α) (s : State) : AnswerOnly s (l.foldl f s) := by
  induction l generalizing s with
  | nil => exact .refl _
  | cons x xs ih => exact (h s x).trans (ih _)
theorem answerOnly_writeCpl (n c) (s : State) : AnswerOnly s (writeCpl n c s) := by unfold AnswerOnly; rfl
theorem answerOnly_flushRing (n) (s : State) : AnswerOnly s (flushRing n s) := by
  unfold flushRing
  generalize ((s.ctl.cpls.filter (fun e => e.1 == n)).map (fun e => e.2)) = cs
  dsimp only
  split
  · exact .refl _
  · refine AnswerOnly.trans (answerOnly_foldl (fun s c => writeCpl n c s) (fun _ _ => answerOnly_writeCpl _ _ _) cs s) ?_
    generalize List.foldl (fun s c => writeCpl n c s) s cs = u
    refine AnswerOnly.trans (b := if (ringOf u n).shadow = 0 then u else hostMem (ringOf u n).shadow.toNat (leBytes 4 (ringOf u n).cqTail) u) ?_ ?_
    · split
      · exact .refl _
      · exact answerOnly_hostMem _ _ _
    · generalize (if (ringOf u n).shadow = 0 then u else hostMem (ringOf u n).shadow.toNat (leBytes 4 (ringOf u n).cqTail) u) = v
      split
      · exact (answerOnly_msix _ v).trans (answerOnly_modRing _ _ _)
      · exact answerOnly_modRing _ _ _
theorem answerOnly_flush (s : State) : AnswerOnly s (flushCpls s) :=
  ((((answerOnly_flushRing 0 s).trans (answerOnly_flushRing 1 _)).trans (answerOnly_flushRing 2 _)).trans (answerOnly_flushRing 3 _)).trans (answerOnly_cpls _ _)
theorem answerOnly_promise (c) (s : State) : AnswerOnly s (promise c s) := by
  cases c with
  | ring n => exact answerOnly_modRing _ _ _
  | inband => exact .refl _

theorem flushCpls_frame (s : State) : flushCpls s = { s with
    host.rings := (flushCpls s).host.rings, host.pba := (flushCpls s).host.pba, out.host := (flushCpls s).out.host
    draws := (flushCpls s).draws, perf.counters := (flushCpls s).perf.counters, ctl.cpls := (flushCpls s).ctl.cpls, ctl.origin := (flushCpls s).ctl.origin } := by
  have h := answerOnly_flush s
  unfold AnswerOnly at h
  exact h

/-! ### Rings and engines -/

theorem ringOf_modRing (n m : Nat) (f : Ring → Ring) (s : State) (hn : n < s.host.rings.length) :
    ringOf (modRing n f s) m = if m = n then f (ringOf s n) else ringOf s m := by
  show (modAt s.host.rings n f).getD m ringReset = _
  rw [getD_modAt]; simp only [hn, and_true]; rfl
theorem kfind_kdel_ne {α} (m : KMap α) (x y : Nat) (h : x ≠ y) : kfind (kdel m x) y = kfind m y := by
  induction m with
  | nil => rfl
  | cons e m ih =>
    obtain ⟨k, w⟩ := e
    unfold kdel
    split
    · next hk => subst hk; simp [kfind, h]
    · simp [kfind, ih]
theorem kget_kmod_ne {α} [DecidableEq α] (d : α) (m : KMap α) (x y : Nat) (f : α → α) (h : x ≠ y) : kget d (kmod d m x f) y = kget d m y := by
  unfold kget kmod kset
  split
  · rw [kfind_kdel_ne _ _ _ h]
  · rw [kfind_kput, if_neg h]

theorem engOf_modEng (id m : Nat) (f : Engine → Engine) (s : State) (h : id ≠ m) : engOf (modEng id f s) m = engOf s m :=
  kget_kmod_ne _ _ _ _ _ h

end Sys2Proof.Machine
end

