-- ==== Sys2Proof/WellFormed.lean ====
section
/-! DEFINITION. Which commands and events are well formed: the operands have the sizes that the spec's tables give them.
An ill-formed term stands for nothing that the outside can present. -/

namespace Sys2Proof

/-- A payload read for a command is its PARAM_LEN bytes, at most 1,048,576 (Table 3.5). -/
def pktOk (p : CmdPkt) : Bool :=
  match p.payload with
  | none => true
  | some b => b.isEmpty || (b.length == p.paramLen.toNat && decide (b.length ≤ 1048576))

/-- Six stacks, seven host rings (R268, R318). -/
def envOk (e : BoundaryEnv) : Bool := e.hbmTemp.length == 6 && e.heads.length == 7

/-- A burst is at most 8 entries of 64 bytes (R67, R70). -/
def fetchOk (r : FetchResult) : Bool :=
  match r with
  | .failed _ => true
  | .entries cs => decide (cs.length ≤ 8) && cs.all (fun c => c.entry.length == 64)

/-- A frame has bytes. -/
def frameOk (b : Bytes) : Bool := !b.isEmpty

/-- A write and a paired write carry their bytes; an ATOM carries 8 (R310, R322). -/
def reqOk (r : HbmReq) : Bool :=
  match r.kind with
  | .read => r.data.isEmpty && decide (0 < r.len)
  | .pairedRead => r.data.isEmpty && decide (0 < r.len)
  | .release => r.data.isEmpty
  | .write => r.data.length == r.len && decide (0 < r.len)
  | .pairedWrite => r.data.length == r.len && decide (0 < r.len)
  | .atom _ => r.data.length == 8 && r.len == 8

/-- A port presents at most one request in a cycle (R298). -/
def poolReqsOk (rs : List PoolReq) : Bool := decide ((rs.map (fun r => r.port)).Nodup)

/-- PFC carries eight times, PAUSE one (R99). -/
def pauseOk (pfc : Bool) (times : List U16) : Bool := times.length == if pfc then 8 else 1

/-- Accesses are aligned to their size (R62). -/
def writeOk (off : BitVec 26) (wide : Bool) : Bool := off.toNat % (if wide then 8 else 4) == 0

/-- An image header is 512 bytes (R423). -/
def headerOk (h : Option Bytes) : Bool :=
  match h with
  | none => true
  | some b => b.length == 512

/-- Sources are numbered 0x01 to 0x16, and kinds from 0x01 (R382). -/
def msgOk (m : Option FaultMsg) : Bool :=
  match m with
  | none => true
  | some x => decide (1 ≤ x.source.toNat) && decide (x.source.toNat ≤ 0x16) && decide (1 ≤ x.kind.toNat)

/-- A PTP message has its common header of 34 bytes (R107). -/
def msgBytesOk (_hdr msg : Bytes) : Bool := decide (34 ≤ msg.length)

def WellFormed (i : Instr) : Bool :=
  match i with
  | .fixBoundary env => envOk env
  | .sampleClose => true
  | .leaseExpired => true
  | .multiFixTimeout => true
  | .genDrainStuck => true
  | .quietPeriodEnd _ _ => true
  | .tenantDrainEnd _ => true
  | .sysInfo p => pktOk p
  | .cfgStage p => pktOk p
  | .cfgCommit p => pktOk p
  | .cfgAbort p => pktOk p
  | .cfgRead p => pktOk p
  | .leaseTake p => pktOk p
  | .leaseRelease p => pktOk p
  | .apJournalRead p => pktOk p
  | .ringTenantSet p => pktOk p
  | .inbandKeySet p => pktOk p
  | .inbandConfig p => pktOk p
  | .portRead p => pktOk p
  | .timedArm p => pktOk p
  | .timedCancel p => pktOk p
  | .timedRead p => pktOk p
  | .timeCapRead p => pktOk p
  | .timeStatus p => pktOk p
  | .timeSet p => pktOk p
  | .parseNodeWrite p => pktOk p
  | .parseNodeRead p => pktOk p
  | .rulesetSwap p => pktOk p
  | .rulesetStatus p => pktOk p
  | .clsEntryWrite p => pktOk p
  | .clsEntryRead p => pktOk p
  | .pmPatternWrite p => pktOk p
  | .pmBuild p => pktOk p
  | .pmCopy p => pktOk p
  | .pipeStatsRead p => pktOk p
  | .flowInsert p => pktOk p
  | .flowDelete p => pktOk p
  | .flowRead p => pktOk p
  | .flowModify p => pktOk p
  | .flowPurgeTenant p => pktOk p
  | .flowStatsRead p => pktOk p
  | .flowEventRead p => pktOk p
  | .flowFind p => pktOk p
  | .skipStatusRead p => pktOk p
  | .skipStatsRead p => pktOk p
  | .skipRun p => pktOk p
  | .skipReset p => pktOk p
  | .skipTelemRead p => pktOk p
  | .lbRead p => pktOk p
  | .ucodeLoad p => pktOk p
  | .ucodeInfo p => pktOk p
  | .ucodeRead p => pktOk p
  | .scStatusRead p => pktOk p
  | .scStatsRead p => pktOk p
  | .scPortStatsRead p => pktOk p
  | .captureRingSet p => pktOk p
  | .tmSampleRead p => pktOk p
  | .tmQstatsRead p => pktOk p
  | .tmPolRead p => pktOk p
  | .tmStatsRead p => pktOk p
  | .poolStatsRead p => pktOk p
  | .poolAcctRead p => pktOk p
  | .poolAlloc p => pktOk p
  | .poolFree p => pktOk p
  | .poolOwnerRead p => pktOk p
  | .hbmStatusRead p => pktOk p
  | .hbmStatsRead p => pktOk p
  | .arbStatsRead p => pktOk p
  | .hbmRegionInfo p => pktOk p
  | .hbmRetrain p => pktOk p
  | .meterStatsRead p => pktOk p
  | .meterCloseInfo p => pktOk p
  | .billingSign p => pktOk p
  | .billRingSet p => pktOk p
  | .billBlockRead p => pktOk p
  | .pairStatusRead p => pktOk p
  | .pairRole p => pktOk p
  | .pairStatsRead p => pktOk p
  | .pairResync p => pktOk p
  | .pairHeadRead p => pktOk p
  | .faultLogRead p => pktOk p
  | .faultRelease p => pktOk p
  | .faultStatusRead p => pktOk p
  | .faultInjectUnlock p => pktOk p
  | .faultInject p => pktOk p
  | .isoTenantRead p => pktOk p
  | .powerStatusRead p => pktOk p
  | .powerPolicy p => pktOk p
  | .attest p => pktOk p
  | .imageInfo p => pktOk p
  | .imageStage p => pktOk p
  | .imageAccept p => pktOk p
  | .imageFlash p => pktOk p
  | .chipReset p => pktOk p
  | .imageFuse p => pktOk p
  | .certRead p => pktOk p
  | .perfRead p => pktOk p
  | .monRingSet p => pktOk p
  | .monStatsRead p => pktOk p
  | .cmdDoorbell _ _ => true
  | .cqHeadWrite _ _ => true
  | .ringEnable _ => true
  | .ringDisable _ => true
  | .dberrRead _ => true
  | .cmdFetch => true
  | .cmdFetchDone _ res => fetchOk res
  | .functionLevelReset => true
  | .pcieLinkReset _ => true
  | .perstNRelease => true
  | .registerWrite _ off wide _ _ => writeOk off wide
  | .faultHeadWrite _ => true
  | .macStickyClear _ _ => true
  | .stepCountRead => true
  | .wrapTaiLoRead => true
  | .perfValLoRead _ => true
  | .bootGo => true
  | .powerOn => true
  | .vddAonLoss => true
  | .sysRstAssert => true
  | .sysRstRelease _ _ _ => true
  | .bootRomTestDone _ _ _ => true
  | .imageHeadersRead a b => headerOk a && headerOk b
  | .imageBodyReadDone _ => true
  | .binnacleStarted => true
  | .startupHbmDone _ => true
  | .startupUcodeDone => true
  | .binnacleReady => true
  | .binnacleRestartDone => true
  | .frameReceiveStart _ _ frame _ => frameOk frame
  | .frameCellArrive _ => true
  | .frameReceiveEnd _ _ => true
  | .parseStart _ _ _ => true
  | .recircPassStart _ _ _ => true
  | .flowLookup _ _ => true
  | .flowBucketReturn _ _ _ => true
  | .lookupAnswer _ _ => true
  | .decideReenter _ _ => true
  | .stage12Exit _ _ => true
  | .mcReplicate _ => true
  | .egressSelect _ _ _ => true
  | .egressCellSend _ _ _ _ => true
  | .copyTxDone _ _ => true
  | .pfcFrameSend _ => true
  | .pauseRefresh _ => true
  | .pauseFrameReceived _ _ pfc _ times => pauseOk pfc times
  | .pauseTimerExpire _ _ _ => true
  | .flushRelease _ _ => true
  | .flushStuck _ => true
  | .linkLoss _ _ _ => true
  | .downHoldExpire _ _ => true
  | .upHoldExpire _ _ => true
  | .negotiateDone _ => true
  | .trainDone _ => true
  | .trainFail _ => true
  | .alignLost _ _ _ => true
  | .ptpMessageReceived _ _ _ => true
  | .ptpMessageSend _ _ hdr msg => msgBytesOk hdr msg
  | .followUpSend _ _ hdr msg => msgBytesOk hdr msg
  | .syncTimeout => true
  | .holdoverLimitExpire => true
  | .anchorRewrite => true
  | .ppsOutRise _ => true
  | .ppsOutFall _ => true
  | .timeCapEdge _ _ _ => true
  | .ppsInEdge _ _ => true
  | .ppsInMissing => true
  | .timedActionFire _ _ => true
  | .timedPulseFall _ _ => true
  | .minuteArm => true
  | .meterSeal => true
  | .billingHashDone => true
  | .ckptWriteDone => true
  | .ckptLate => true
  | .billRingDeliver => true
  | .loglineDeliver => true
  | .soundDeliver => true
  | .monRecordDeliver => true
  | .cacheCleanerWriteback _ => true
  | .moverAttempt _ => true
  | .ageScan _ => true
  | .exiledUpdate _ => true
  | .microwordExecute _ _ => true
  | .lock _ _ _ => true
  | .lockr _ _ _ _ => true
  | .lockset _ _ _ => true
  | .bread _ _ _ _ => true
  | .bwrite _ _ _ _ _ _ => true
  | .xread _ _ _ _ _ => true
  | .xwrite _ _ _ _ _ _ => true
  | .atom _ _ _ _ _ => true
  | .place _ _ _ => true
  | .skPoolAlloc _ _ _ _ => true
  | .skPoolFree _ _ _ => true
  | .pktNext _ _ _ => true
  | .lbpick _ _ _ _ _ => true
  | .telem _ _ _ => true
  | .timeread _ _ => true
  | .commit _ => true
  | .commitHandover _ => true
  | .fail _ => true
  | .memOpComplete _ _ _ => true
  | .lockGrant _ _ => true
  | .lockTimeout _ _ _ => true
  | .unpark _ => true
  | .skWatchdog _ => true
  | .ucodeReload _ => true
  | .ucodeScrub _ _ _ => true
  | .poolRequest _ reqs => poolReqsOk reqs
  | .bufferFree _ _ => true
  | .cellAuditVisit _ => true
  | .hbmRequest _ req => reqOk req
  | .hbmGrant _ => true
  | .hbmCommandIssue _ _ => true
  | .hbmReadReturn _ => true
  | .rowHoldExpire _ _ => true
  | .pageIdleClose _ _ => true
  | .writeAgeExpire _ => true
  | .refreshDue _ _ => true
  | .pdIdleEnter _ => true
  | .srIdleEnter _ => true
  | .patrolScrub _ _ => true
  | .faultMessage m => msgOk m
  | .inbandFrameReceived _ _ => true
  | .rhDataReceived _ => true
  | .rhAckReceived _ => true
  | .rhHeartbeatReceived _ _ => true
  | .rhHelloReceived _ _ => true
  | .rhClaimReceived _ _ _ => true
  | .rhClaimAckReceived _ _ _ _ => true
  | .rhDataSend => true
  | .rhAckSend => true
  | .rhRetransmitTimeout => true
  | .peerLost => true
  | .pairLanesAligned => true
  | .rhAlignLost => true
  | .resyncSweep => true
  | .powerEntryDone => true
  | .powerExitDone => true
  | .domainPowerFail _ => true
  | .clockGate _ => true
  | .clockUngate _ => true
  | .refclkSdsLoss _ _ => true
  | .bypass => true
  | .idcode => true
  | .samplePreload _ => true
  | .extest => true
  | .clamp => true
  | .highz => true
  | .alignmentAcquired _ _ => true
  | .refclkSdsRestored _ => true
  | .pcieLinkUp _ _ => true

end Sys2Proof
end

