-- ==== Sys2Proof/Tests/Slice0.lean ====
section
/-! SUPPORT. The model's own tests: a state and operands that meet the hypotheses of every statement, clause by clause; the
spec's worked examples; one ill-formed term for each check of WellFormed. Expected values come from the spec. -/

set_option Elab.async false


namespace Sys2Proof.Tests

open Sys2Proof Sys2Proof.Machine

/-- The device right after Binnacle has reported ready. -/
def rdy : State :=
  { State.reset with boot.sysRst := true, boot.stage := 7, boot.ucDone := true, ctl.ready := true }

/-- A ring-0 command with PARAM_LEN n and inline fields at packet offsets. -/
def pk (n : Nat) (fs : List (Nat × Nat)) : CmdPkt :=
  { src := .ring 0, flags := 0, tag := 7, target := 0, paramLen := BitVec.ofNat 32 n,
    inl := BitVec.ofNat 256 (fs.foldl (fun a f => a + f.2 * 256 ^ (f.1 - 16)) 0),
    payloadAddr := if n = 0 then 0 else 0x1000, rsv := 0, payload := none }

/-- A ring-0 command with a payload. -/
def pkd (bs : Bytes) (fs : List (Nat × Nat)) : CmdPkt := { pk bs.length fs with payload := some bs }

/-- The payload buffers of a command, and the state on which it is carried out. -/
def taken (op : Op) (p : CmdPkt) (s : State) : Option (List Nat) × State :=
  takePayload (if hasPayloadIn op p then p.paramLen.toNat else 0) (promise p.src s)

/-- The conditions of `Admitted` as one test. -/
def admitted (op : Op) (p : CmdPkt) (s : State) : Bool :=
  let q := (taken op p s).2
  s.ctl.ready && !s.ctl.restarting && op.rings.contains (authOf s p.src) && op.tenant (promise p.src s) p && formOk op p
    && (!s.lod.grave || op.isRead || op.code == 0x0E01) && (!hasPayloadIn op p || p.payload.isSome)
    && (taken op p s).1.isSome && p.target == 0 && (!op.isMulti || decide (multiTaken q < 16)) && op.arg q p == 0
    && !needsExit q op.code && op.tenant q p && !leaseBlocks q (ownerOf p.src) (op.touch q p)

theorem adm {op : Op} {p : CmdPkt} {s : State} (h : admitted op p s = true) :
    Admitted op p s ((taken op p s).1.getD []) (taken op p s).2 := by
  simp only [admitted, Bool.and_eq_true, Bool.not_eq_true', Bool.or_eq_true, beq_iff_eq, decide_eq_true_eq] at h
  obtain ⟨⟨⟨⟨⟨⟨⟨⟨⟨⟨⟨⟨⟨h1, h2⟩, h3⟩, h4⟩, h5⟩, h6⟩, h7⟩, h8⟩, h9⟩, h10⟩, h11⟩, h12⟩, h13⟩, h14⟩ := h
  refine ⟨h1, h2, h3, h4, h5, ?_, ?_, ?_, h9, ?_, h11, h12, h13, h14⟩
  · intro hg
    rcases h6 with (h | h) | h
    · rw [hg] at h; cases h
    · exact .inl h
    · exact .inr h
  · intro hp
    rcases h7 with h | h
    · rw [hp] at h; cases h
    · exact h
  · have hs : (taken op p s).1 = some ((taken op p s).1.getD []) := by
      cases hq : (taken op p s).1 with
      | none => rw [hq] at h8; cases h8
      | some x => rfl
    exact Prod.ext hs rfl
  · intro hm
    rcases h10 with h | h
    · rw [hm] at h; cases h
    · exact h

theorem someIs {α : Type} {o : Option α} (h : o.isSome = true) : o = some (o.get h) := by
  cases o with
  | none => cases h
  | some x => rfl
theorem somePair {α β : Type} {o : Option (α × β)} (h : o.isSome = true) : o = some ((o.get h).1, (o.get h).2) := by
  cases o with
  | none => cases h
  | some x => rfl
theorem okIs {ε α : Type} {e : Except ε α} (h : e.toOption.isSome = true) : e = .ok (e.toOption.get h) := by
  cases e with
  | error x => cases h
  | ok x => rfl
def errOf {ε α : Type} : Except ε α → Option ε
  | .ok _ => none
  | .error x => some x
theorem errIs {ε α : Type} {e : Except ε α} (h : (errOf e).isSome = true) : e = .error ((errOf e).get h) := by
  cases e with
  | error x => rfl
  | ok x => cases h
theorem pairSome {α β : Type} {x : Option α × β} (h : x.1.isSome = true) : x = (some (x.1.get h), x.2) :=
  Prod.ext (someIs h) rfl
theorem pairNone {α β : Type} {x : Option α × β} (h : x.1.isNone = true) : x = (none, x.2) :=
  Prod.ext (by cases hx : x.1 <;> simp_all) rfl
theorem pairIs {α β : Type} {x : α × β} : x = (x.1, x.2) := rfl

/-- Ring 0 has staged a switch-core field. -/
def staged0 : State := stageOne 0 (oid 6 2 1, 3) rdy
/-- Ring 0 has staged a field of the pair, which a chip without a peer refuses. -/
def stagedPair : State := stageOne 0 (oid 13 7 0, 3) rdy
def leased (o g : Nat) : State := { rdy with ctl.leases := [{ owner := o, group := g, expiry := 100 }] }
/-- Meridian's PTP is off. -/
def ptpOff : State := { rdy with ctl.cfg := [(oid 11 1 0, 0)] }
/-- Stage 1 of pipeline 0 is a ternary stage with a block. -/
def tcamUp : State := { rdy with ctl.cfg := [(oid 2 3 0, 5), (oid 2 4 0, 1)] }
def manyPats : State :=
  let b : Bank := { pats := List.replicate 1025 { id := 1, group := 0, nocase := false, bytes := [97] }, compiled := [], built := true }
  { rdy with cls.banks := [b, b] }

/-- An IPv4 TCP flow key, and a flow specification for it. -/
def key1 : Bytes :=
  [0, 0, 0, 6] ++ zerosB 10 ++ [0xFF, 0xFF, 10, 0, 0, 1] ++ zerosB 10 ++ [0xFF, 0xFF, 10, 0, 0, 2] ++ [0, 80, 1, 187]
def spec1 : Bytes := key1 ++ zerosB 88
/-- Flow seeds that are known, so that places can be computed. -/
def flow0 : State := { rdy with ctl.cfg := [(oid 3 1 0, 1), (oid 3 2 0, 2)] }
/-- The flow has a record. -/
def flow1 : State := (insertBody (pkd spec1 []) flow0).1
def flowLocked : State := putLock (chosenBucket flow0 key1) 3 flow0
/-- Cluster 0 takes dispatches, and routine 5 has an entry. -/
def skip1 : State :=
  { rdy with skip.clusters := [(0, { clusterReset with state := 1 })], skip.entry := [(5, 0x4000)] }
/-- A microcode section whose map names no bundle, one that names a bundle which it does not hold, and idle clusters. -/
def secNone : Bytes := leBytes 4 1 ++ [1, 0, 0, 0] ++ List.replicate 32 0xFF ++ zerosB 24
def secBad : Bytes := zerosB 8 ++ List.replicate 32 0 ++ zerosB 24
def uc (sec : Bytes) : State := { rdy with ctl.cfg := [(oid 4 1 0, 0)], skip.ucRun := sec, skip.enWas := 0 }
def capOn : State :=
  { rdy with sw.rings := setAt rdy.sw.rings 2 { hostRingReset with enable := true }, met.ring := { hostRingReset with enable := true },
             perf.ring := { hostRingReset with enable := true } }
/-- The fields of a ring's packet: ENABLE, 2^10 slots, no interrupt, and its addresses. -/
def ringFields (n : Nat) : List (Nat × Nat) :=
  [(16, n), (17, 1), (18, 10), (19, 0xFF), (24, 0x10000), (32, 0x20000), (40, 0x20008)]
def owned (o : Nat) : State := { rdy with pools.alloc := [(0x60000010, o)] }
/-- Extension pool 3 is full for the caller's account: its greatest use is 0. -/
def poolNone : State := { rdy with pools.acct := [(11 * 8 + 3, { use := 2 ^ 28, high := 0, nobuf := 0 })] }
def retraining : State := modPc 6 (fun c => { c with mode := .retraining }) rdy
/-- A minute has been closed and its block is staged, with its checkpoint written. -/
def block1 : Block :=
  { minute := 9, header := zerosB 64, records := 2, prevHead := zerosB 64, head := some (zerosB 64), delivery := .pending, sent := 0,
    ckpt := true, late := false, age := 3 }
def billed : State :=
  { rdy with met.lastMinute := some 9, met.staged := [block1],
             met.ckpts := [{ minute := 9, fixM := 5, records := 2, flags := 0, head := zerosB 64 }] }
def signing : State :=
  { billed with ctl.multi := [{ slot := 0, code := 0x0A02, p := pk 256 [], count := 1, limit := 4096, units := 0, lastFix := 0, pos := 0,
                                aux := [], bufs := [] }] }
def paired : State := { rdy with pair.st := .paired }
def hello0 : State := { rdy with pair.st := .hello }
def moreOf {α : Type} (x : α × MStep) : Option Multi :=
  match x.2 with
  | .more m => some m
  | .fin _ => none
theorem moreIs {α : Type} {x : α × MStep} (h : (moreOf x).isSome = true) : x = (x.1, .more ((moreOf x).get h)) := by
  obtain ⟨a, b⟩ := x
  cases b with
  | more m => rfl
  | fin o => cases h

/-- Source 5's Class 1 state is ACTIVE. -/
def faulted : State := { rdy with lod.states := [(21, { srcStateReset with st := .active })] }
def ftested : State := { rdy with lod.ftest := true, lod.factory := true }
def nonced : State := { ftested with lod.nonce := some 5 }
def multiOf (code : Nat) (p : CmdPkt) : Multi :=
  { slot := 0, code := code, p := p, count := 1, limit := 4096, units := 0, lastFix := 0, pos := 0, aux := [], bufs := [] }
def imaging : State := { rdy with ctl.multi := [multiOf 0x0E04 (pk 0 [])] }
def img0 (h : Bytes) : Image := { header := h, source := 0, firmware := [], microcode := [], grains := [] }
/-- An accepted image of 131072 bytes. -/
def accepted0 : State := { rdy with boot.accepted := some (img0 []), boot.staging := [(14, 2)] }
def epoch1 : State := { rdy with boot.running := some (img0 (zerosB 11 ++ [1] ++ zerosB 500)) }

theorem padTo_length (n : Nat) (b : Bytes) : (padTo n b).length = n := by
  simp [padTo, sliceB]
theorem leBytes_length (n v : Nat) : (leBytes n v).length = n := by
  induction n generalizing v with
  | zero => rfl
  | succ n ih => simp [leBytes, ih]
theorem fitsCert (c : Prop) [Decidable c] :
    Fits (pk 2056 []) (if c then outData 2 (certPart 0 ++ certPart 1) else outErr stFAULTED) := by
  split
  · simp [Fits, outData, certPart, padTo_length, leBytes_length]; decide
  · exact Nat.le_of_ble_eq_true rfl

def inRing (f : Ring → Ring) : State := { rdy with host.rings := setAt rdy.host.rings 1 (f ringReset) }
/-- A ring of 16 entries that has been enabled. -/
def ring16 : Ring := { ringReset with size := 4, cqSize := 4, enable := true, state := .running, tail := 3 }
/-- Port 0 exists and is in a state. -/
def portIn (st : PortState) : State := modPort 0 (fun k => { k with st := st }) rdy
def portHolds (st : PortState) : State := modPort 0 (fun k => { k with st := st, loss := true, aligned := true })
  { rdy with clock.boundaries := 200000 }
/-- Port 0 is clocked, and IEEE 802.3x pause is set on it. -/
def clockUp (st : PortState) : State := { portIn st with boot.refclk := 3, ctl.cfg := [(oid 1 7 0, 1)] }
def pausing : State := { modPort 0 (fun k => { k with st := .up, pauseEnd := List.replicate 8 (some 5) }) rdy with clock.boundaries := 2 }
/-- A frame in the ingress MAC of port 0 that is addressed to the in-band receiver. -/
def ibFrame : Bytes := [0, 0, 0, 0, 0, 5] ++ zerosB 6 ++ [0x88, 0xB5] ++ zerosB 82
def withPkt (k : Pkt) (s : State) : State := { s with sw.pkts := [(3, k)] }
def ibState (ports : BitVec 128) : State :=
  withPkt { pktReset 0 0 with rx := ibFrame, tail := .good }
    { rdy with ctl.ibEnable := true, ctl.ibMac := 5, ctl.ibVlan := 0xFFFF, ctl.ibPorts := ports }
def env0 : BoundaryEnv :=
  { junction := 0, hbmTemp := [], heads := [], checkerBad := [], reactionOk := true, trainBad := [], ptpDue := [] }

/-- PTP runs over Ethernet on port 0: an ordinary clock, or a transparent one (mode 3); a PTP message in its ingress MAC. -/
def ptpFrame0 : Bytes := zerosB 12 ++ [0x88, 0xF7] ++ zerosB 48
def ptpPkt : Pkt := { pktReset 0 0 with rx := ptpFrame0, tail := .good }
def ptpState (mode : Nat) : State := withPkt ptpPkt { rdy with ctl.cfg := [(oid 11 1 0, 1 + 2 * mode), (oid 11 7 0, 1)] }
def syncIn (y : SyncState) : State := { rdy with mer.sync := y, clock.boundaries := 4000000000, ctl.cfg := [(oid 11 3 0, 5), (oid 11 5 0, 2)] }
/-- Slot 5 is armed for Fix 0, and its action has this verdict in the apply set. -/
def armed5 (v : Verdict) : State :=
  { rdy with mer.slots := [(5, { timedSlotReset with armed := true })],
             ctl.apply := [{ inp := { rank := 6, sub := 0, due := 0, body := .timed 5 }, verdict := v, writes := [], out := none }] }
theorem verdIs {α β γ : Type} {x : (α × β) × γ} {v : α} (h : x.1.1 = v) : x = ((v, x.1.2), x.2) := by
  obtain ⟨⟨a, b⟩, c⟩ := x
  cases h
  rfl
def fmsg : FaultMsg := { source := 1, kind := 1, cls := 3, addr := 0, ports := [], endpoints := [], injected := false }
def changing (e : Bool) : State := { rdy with pwr.transit := some { entry := e, state := .roost, since := 0 } }
def bootAt (n : Nat) : State := { rdy with boot.stage := n, boot.ucDone := false, ctl.ready := false }

/-- An image header that meets check 1 of R423: one section, every die revision. -/
def header0 : Bytes :=
  [0x31, 0x43, 0x56, 0x53, 1, 0, 0, 1] ++ zerosB 4 ++ [0, 0x10, 0, 0] ++ [0, 0, 0xFF, 0xFF] ++ zerosB 76
    ++ [1] ++ zerosB 15 ++ zerosB 400
theorem header0_padded : padTo 512 header0 = header0 := by decide +kernel
/-- Where the key digest in the OTP is that of the header's key and the signature verifies, the header is accepted: both
are free values of the model. -/
theorem header0_accepted {s : State} (hr : s.boot.revoke = 0) (hf : s.boot.fuses = 0)
    (hd : shake256 (sliceB header0 288 57) = Config.otpDigest 0)
    (hv : Config.ed448Verify (sliceB header0 288 57) ctxIM (header0.take 384) (sliceB header0 384 114) = true) :
    headerFault s (padTo 512 header0) = none := by
  have h1 : imgFormat header0 = true := by decide +kernel
  have h2 : imgSigner header0 = 0 := by decide +kernel
  have h3 : imgEpoch header0 = 0 := by decide +kernel
  have h4 : leAt header0 16 2 = 0 := by decide +kernel
  have h5 : leAt header0 18 2 = 65535 := by decide +kernel
  have h6 := Config.dieRev.isLt
  rw [header0_padded]
  simp [headerFault, h1, h2, h3, h4, h5, hd, hv, hr, hf]
  omega

def pkt0 : Pkt := { pktReset 0 0 with rx := zerosB 64, tx := zerosB 300, tail := .good }
def inPipe (f : ScPipe → ScPipe) (k : Pkt) : State := modPipe 0 f (withPkt k rdy)
def held (st : PktStage) (w : Bool) : Pkt := { pkt0 with stage := st, wasHeld := w }
/-- A packet that asks for the lookup of its IPv4 flow, and every power domain on. -/
def lvl0 : Level := { ipOff := some 14, ipRole := 1, l4Off := none, l4Role := 0, nextHdr := 17, frag := false }
def pktL : Pkt := { pkt0 with stage := .lookup, levels := [lvl0] }
def powered (s : State) : State := { s with pwr.on := 0xFFFFFFFFFFFFFFFF }
def waitState : State :=
  powered (withPkt pktL { flow0 with flow.guards := [{ slice := 0, key := pktKey pktL lvl0, bucket := 5, pkts := [3], back := none }] })
/-- The flow's record stands in the stash. -/
def stashed (key : Bytes) : State :=
  { (insertBody (pkd (key ++ zerosB 88) []) { flow0 with flow.refuse := [chosenBucket flow0 key] }).1 with flow.refuse := [] }
def flowL : State := withPkt pktL (powered (stashed (pktKey pktL lvl0)))
/-- The packet heads pipeline 0's FIFO at the slice of its flow. -/
def fifoL (s : State) : State :=
  modSlice (keySlice flow0 (pktKey pktL lvl0)) (fun k => { k with fifo := [[3], [], [], []] }) s
def slice0 (f : Slice → Slice) (s : State) : State := modSlice 0 f s
/-- Set 5 of slice 0 holds a dirty record and stands first in the cleaner's list. -/
def dirtySet : State :=
  slice0 (fun k => { k with cleanList := [5] })
    { flow0 with ctl.cfg := (oid 3 6 0, 15) :: flow0.ctl.cfg,
                 flow.cache := [(0, { slice := 0, set := 5, way := 0, bytes := zerosB 64, dirty := true, used := 0 })] }
def memOp0 : MemOp :=
  { code := 0, order := 0, cycles := 0, hint := none, wait := true, locks := [], lines := [], reads := [],
    data := [], out := [], before := [], took := [], status := 0, result := 0 }
def lockWait (age : Nat) : State :=
  { slice0 (fun k => { k with waits := [{ bucket := 5, engine := 9, tag := 0, age := age }] }) flow0 with
    skip.engines := [(9, { engineReset with tags := [{ tagReset with op := some memOp0 }] })] }
/-- Port 0 is up and its highest strict queue has tokens. -/
def portUp : State :=
  modPort 0 (fun k => { k with st := .up }) (powered { rdy with ctl.cfg := [(oid 7 6 3, 0xFFFFFFFFFFFF)] })
def copy0 : Copy :=
  { pkt := 3, queue := 3, g := 0, sh := 0, hd := 0, cutThrough := false, admitted := 0, tc := 0, expired := false, first := true }
def queued : State := { withPkt { pkt0 with stage := .admitted } portUp with sw.queues := [(3, { queueReset with copies := [copy0] })] }
def tx0 (lost : Bool) : TxState :=
  { copy := copy0, tier := 1, startNs := 0, startSub := 0, sent := 1, cut := none, lost := lost, maxLen := 9600 }
def sending (lost : Bool) : State := { withPkt pkt0 portUp with sw.tx := [(0, tx0 lost)] }
/-- A multicast frame whose group has queue 3 as its one member, pruned or not. -/
def mcPkt (pruned : Bool) : Pkt := { pkt0 with stage := .replicate, system := true, cells := 1, members := [(3, pruned)] }
def mcState (pruned : Bool) (s : State) : State := modPipe 0 (fun p => { p with replicator := [3] }) (withPkt (mcPkt pruned) s)
def pauseDue : State :=
  { clockUp .up with sw.prio := [(0, { prioReset with due := true, xoff := true })], sw.pauseAge := [(0, 0xFFFF)] }

def running (f : Engine → Engine) (s : State) : State := { s with skip.engines := [(5, f { engineReset with st := .running })] }
def run5 : State := running id rdy
def req0 (k : HbmKind) : HbmReq := { id := 9, kind := k, region := 0, offset := 0, len := 64, data := [] }
def withPc (f : HbmPc → HbmPc) (s : State) : State := { s with hbm.pcs := [(0, f hbmPcReset)] }
def flight0 : HbmFlight := { entry := { port := 0, req := req0 .read, seq := 0 }, data := [] }
def bankHold (h : List Nat) : State := withPc (fun c => { c with banks := [(3, { hbmBankReset with hold := h })] }) rdy
/-- A read waits in a bank. -/
def bankQueue : State :=
  withPc (fun c => { c with banks := [(3, { hbmBankReset with queue := [{ port := 0, req := req0 .read, seq := 0 }] })] }) rdy
/-- A line of region 0 that lies in pseudo-channel 0 waits to be written. -/
def write0 : HbmWrite := { region := 0, line := 0, bytes := [], seq := 0 }
def writePc : Nat := (writePlace rdy write0).pc
def writing : State := { rdy with hbm.pcs := [(writePc, { hbmPcReset with writes := [write0], drain := true })] }
def block2 (h : Option Bytes) (age : Nat) : Block := { block1 with head := h, ckpt := false, age := age }
def blocks (b : Block) : State := { rdy with met.staged := [b] }
def closing0 : Closing :=
  { fixM := 5, minute := 9, lenS := 60, stepped := false, late := false, sync := 2, valid := [], age := 2 }
/-- A Rhumb frame of a type and a version, of one unit of 32 bytes, with its check sum. -/
def rhFrame (ty ver : Nat) : Bytes :=
  let b := [byteN ty, byteN ver] ++ beBytes 2 32 ++ zerosB 24
  b ++ beBytes 4 (crc32c (b ++ zerosB 4))
def beat0 : RhBeat := { roles := 1, state := 4, power := 0, sync := 2, epochs := [0, 0], sweepDone := true }
/-- The HELLO that a fitting peer sends to a device in state s. -/
def helloFor (s : State) : RhHello :=
  { pairId := BitVec.ofNat 16 (fv s 13 3 0 0 16), order := byteN (orderCode s), digest := seedDigest s,
    gib := [byteN (poolGib s 3), byteN (poolGib s 4), byteN (poolGib s 5)], half := fv s 13 5 0 0 1 == 0,
    pref := BitVec.ofNat 2 (3 - fv s 13 2 0 0 2), uid := ~~~Config.uniqueId, roles := 1, ok := true }
def helloSt : State :=
  { hello0 with ctl.cfg := [(oid 3 1 0, 1), (oid 3 2 0, 2), (oid 13 2 0, 1), (oid 13 3 0, 77), (oid 13 5 0, 0)] }
theorem uid_differs : ((~~~Config.uniqueId : BitVec 128)).toNat ≠ ownUid := by
  intro h
  have h1 : (~~~Config.uniqueId : BitVec 128).toNat = 2 ^ 128 - 1 - Config.uniqueId.toNat := BitVec.toNat_not
  have h2 := Config.uniqueId.isLt
  have h3 : ownUid = Config.uniqueId.toNat := rfl
  omega
theorem hello_fits {s : State} {h : RhHello} (h1 : h.pairId.toNat = fv s 13 3 0 0 16) (h2 : h.order.toNat = orderCode s)
    (h3 : h.digest = seedDigest s) (h4 : h.gib = [byteN (poolGib s 3), byteN (poolGib s 4), byteN (poolGib s 5)])
    (h5 : b2n h.half ≠ fv s 13 5 0 0 1) (h6 : h.pref.toNat ^^^ fv s 13 2 0 0 2 = 3) (h7 : h.uid.toNat ≠ ownUid) :
    helloCause s 1 h = 0 := by
  simp only [helloCause, h1, h2, h3, h4, h5, h6, h7, ne_eq, not_true_eq_false, if_false]
def pairEv : PairEvent := { seq := 5, kind := 1, body := zerosB 64 }
def sweep0 : Sweep := { bucket := 0, stashDone := false, ext := none, sent := 0, ended := false, last := none }

def hold5 (bs : List Nat) (s : State) : State := running (fun e => { e with held := bs }) s
def doing (o : MemOp) : State := running (fun e => { e with tags := [{ tagReset with op := some o }] }) rdy
def answered0 : Answer := { status := 0, handle := 0, action := 0, gen := 0, rwAddr := 0, rwPort := 0, level := lvl0 }
def decided : State :=
  { withPkt { pktL with ans := some answered0 } (running (fun e => { e with why := some (.decide [1]) }) rdy) with
    flow.holds := [{ key := [1], slice := 0, pkts := [3], next := 0 }] }
def inState (t : EngState) : State := running (fun e => { e with st := t, age := 0xFFFF }) rdy
/-- Word 0 of cluster 0's first store holds an uncorrectable error. -/
def badStore : State := { run5 with lod.damage := [{ source := 8, kind := 2, addr := 0, flip := 3 }] }
/-- A bundle of one microword, which commits: its header, the microword and two nanowords, with its digest. -/
def bundleRaw : Bytes :=
  leBytes 4 1 ++ leBytes 4 1 ++ leBytes 2 0 ++ leBytes 2 1 ++ leBytes 2 2 ++ zerosB 10 ++ leBytes 2 0x4000 ++ zerosB 230
    ++ leBytes 4 (2 ^ 19) ++ zerosB 24 ++ leBytes 24 (15 * 2 ^ 48)
def bundle0 : Bytes := spliceB bundleRaw 152 (shake256 bundleRaw)
/-- A section that holds it, for every cluster. -/
def section0 : Bytes := leBytes 4 1 ++ [1, 0, 0, 0] ++ zerosB 32 ++ leBytes 4 64 ++ zerosB 20 ++ bundle0
def loadable : State := { rdy with skip.clusters := [(0, { clusterReset with state := 2 })], skip.ucRun := section0 }

/-! ### The hypotheses of every statement can be met -/

/-- The hypotheses of SystemCommandsComplete are met. -/
theorem wit_SystemCommandsComplete :
    (∃ (p : CmdPkt) (s : State) (q : _), Admitted opSysInfo p s [] q ∧ Fits p (outData 64 (sysInfo q)))
    ∧ (∃ (p : CmdPkt) (s : State) (bufs : _) (q : _), Admitted opRingTenantSet p s bufs q)
    ∧ (∃ (p : CmdPkt) (s : State) (bufs : _) (q : _), Admitted opInbandKeySet p s bufs q ∧ par p 17 1 ≠ 0)
    ∧ (∃ (p : CmdPkt) (s : State) (bufs : _) (q : _), Admitted opInbandKeySet p s bufs q ∧ par p 17 1 = 0)
    ∧ (∃ (p : CmdPkt) (s : State) (bufs : _) (q : _), Admitted opInbandConfig p s bufs q) :=
  ⟨⟨pk 64 [], rdy, _, adm (by decide +kernel), (by decide +kernel)⟩,
   ⟨pkd (leBytes 4 5 ++ leBytes 4 9) [(16, 2)], rdy, _, _, adm (by decide +kernel)⟩,
   ⟨pkd (List.replicate 57 1 ++ zerosB 7 ++ leBytes 4 5) [(16, 3), (17, 1), (18, 1)], rdy, _, _, adm (by decide +kernel), (by decide +kernel)⟩,
   ⟨pkd (zerosB 64) [(16, 3)], rdy, _, _, adm (by decide +kernel), (by decide +kernel)⟩,
   ⟨pkd (zerosB 16) [(16, 1), (18, 0x88B5), (26, 5)], rdy, _, _, adm (by decide +kernel)⟩⟩

/-- The hypotheses of StagingCommandsComplete are met. -/
theorem wit_StagingCommandsComplete :
    (∃ (p : CmdPkt) (s : State) (bufs : _) (q : _), Admitted opCfgStage p s bufs q ∧
    (∀ e ∈ stageEntries_ p, portFieldOk q e.1 = true ∧ ∀ y ∈ q.ctl.staging, y.obj = e.1 → y.owner = ownerOf p.src) ∧
    q.ctl.staging.length + (dedupN (((stageEntries_ p).map (fun e => e.1)).filter
      (fun x => !(q.ctl.staging.any (fun y => y.obj == x))))).length ≤ 16384)
    ∧ (∃ (p : CmdPkt) (s : State) (bufs : _) (q : _) (ws : _), Admitted opCfgCommit p s bufs q ∧
    commitVerdict q (ownerOf p.src) (parGroup p) = .ok ws)
    ∧ (∃ (p : CmdPkt) (s : State) (bufs : _) (q : _) (r : _), Admitted opCfgCommit p s bufs q ∧
    commitVerdict q (ownerOf p.src) (parGroup p) = .error r)
    ∧ (∃ (p : CmdPkt) (s : State) (bufs : _) (q : _), Admitted opCfgAbort p s bufs q)
    ∧ (∃ (p : CmdPkt) (s : State) (bufs : _) (q : _), Admitted opCfgRead p s bufs q ∧ portFieldOk q (par p 16 8) = true ∧ par p 24 1 = 0 ∧ 8 ≤ p.paramLen.toNat)
    ∧ (∃ (p : CmdPkt) (s : State) (bufs : _) (q : _) (e : _), Admitted opCfgRead p s bufs q ∧ portFieldOk q (par p 16 8) = true ∧ par p 24 1 = 1 ∧ 8 ≤ p.paramLen.toNat ∧
    q.ctl.staging.find? (fun x => x.obj == par p 16 8) = some e)
    ∧ (∃ (p : CmdPkt) (s : State) (bufs : _) (q : _), Admitted opCfgRead p s bufs q ∧ portFieldOk q (par p 16 8) = true ∧ par p 24 1 = 1 ∧
    q.ctl.staging.find? (fun x => x.obj == par p 16 8) = none ∧
    8 ≤ p.paramLen.toNat) :=
  ⟨⟨pk 0 [(16, 1), (24, oid 1 2 3), (32, 1)], rdy, _, _, adm (by decide +kernel), (by decide +kernel), (by decide +kernel)⟩,
   ⟨pk 0 [(16, 0)], staged0, _, _, _, adm (by decide +kernel), okIs (by decide +kernel)⟩,
   ⟨pk 0 [(16, 0)], stagedPair, _, _, _, adm (by decide +kernel), errIs (by decide +kernel)⟩,
   ⟨pk 0 [(16, 0)], staged0, _, _, adm (by decide +kernel)⟩,
   ⟨pk 8 [(16, oid 1 2 3)], rdy, _, _, adm (by decide +kernel), (by decide +kernel), (by decide +kernel), (by decide +kernel)⟩,
   ⟨pk 8 [(16, oid 6 2 1), (24, 1)], staged0, _, _, _, adm (by decide +kernel), (by decide +kernel), (by decide +kernel), (by decide +kernel), someIs (by decide +kernel)⟩,
   ⟨pk 8 [(16, oid 6 2 2), (24, 1)], staged0, _, _, adm (by decide +kernel), (by decide +kernel), (by decide +kernel), (by decide +kernel), (by decide +kernel)⟩⟩

/-- The hypotheses of LeaseCommandsComplete are met. -/
theorem wit_LeaseCommandsComplete :
    (∃ (p : CmdPkt) (s : State) (bufs : _) (q : _), Admitted opLeaseTake p s bufs q ∧ groupTaken q (ownerOf p.src) (parGroup p) = false ∧
    ((leaseOf q (ownerOf p.src) (parGroup p)).isSome ∨ q.ctl.leases.length < 256))
    ∧ (∃ (p : CmdPkt) (s : State) (bufs : _) (q : _), Admitted opLeaseTake p s bufs q ∧ groupTaken q (ownerOf p.src) (parGroup p) = true)
    ∧ (∃ (p : CmdPkt) (s : State) (bufs : _) (q : _), Admitted opLeaseRelease p s bufs q ∧ (leaseOf q (ownerOf p.src) (parGroup p)).isSome = true)
    ∧ (∃ (p : CmdPkt) (s : State) (bufs : _) (q : _), Admitted opLeaseRelease p s bufs q ∧ leaseOf q (ownerOf p.src) (parGroup p) = none)
    ∧ (∃ (p : CmdPkt) (s : State) (bufs : _) (q : _), Admitted opApJournalRead p s bufs q ∧
    let all := apFrom q (par p 16 4)
    let es := all.take ((p.paramLen.toNat - 16) / 32)
    let first := if es.isEmpty then q.ctl.apNext.toNat else ns32 q.ctl.apNext.toNat all.length
    let o := outData es.length (leBytes 4 first ++ leBytes 4 es.length ++ leBytes 4 q.ctl.apLost.toNat
      ++ leBytes 4 q.ctl.apNext.toNat ++ (es.map apBytes).flatten)
    Fits p o) :=
  ⟨⟨pk 0 [(16, grp 4 6), (20, 100)], rdy, _, _, adm (by decide +kernel), (by decide +kernel), (by decide +kernel)⟩,
   ⟨pk 0 [(16, grp 4 1), (20, 100)], leased 3 (grp 4 1), _, _, adm (by decide +kernel), (by decide +kernel)⟩,
   ⟨pk 0 [(16, grp 4 6)], leased 0 (grp 4 6), _, _, adm (by decide +kernel), (by decide +kernel)⟩,
   ⟨pk 0 [(16, grp 4 6)], rdy, _, _, adm (by decide +kernel), (by decide +kernel)⟩,
   ⟨pk 48 [], rdy, _, _, adm (by decide +kernel), (by decide +kernel)⟩⟩

/-- The hypotheses of TimeCommandsComplete are met. -/
theorem wit_TimeCommandsComplete :
    (∃ (p : CmdPkt) (s : State) (bufs : _) (q : _),
      Admitted opPortRead p s bufs q ∧
      let o := outData (par p 17 1) (((List.range (par p 17 1)).map (fun i => portEntry q (par p 16 1 + i))).flatten)
      Fits p o)
    ∧ (∃ (p : CmdPkt) (s : State) (bufs : _) (q : _),
      Admitted opTimedArm p s bufs q ∧ (slotOf q (par p 16 1)).armed = false ∧ 1024 ≤ ns32 (par p 20 4) (fixN q * 1024) ∧
      ns32 (par p 20 4) (fixN q * 1024) < 2 ^ 31 ∧ (par p 17 1 = 4 → portFieldOk q (par p 32 8) = true))
    ∧ (∃ (p : CmdPkt) (s : State) (bufs : _) (q : _),
      Admitted opTimedCancel p s bufs q ∧ (slotOf q (par p 16 1)).armed = true ∧ (slotOf q (par p 16 1)).kind ≠ .pinPeriodic)
    ∧ (∃ (p : CmdPkt) (s : State) (bufs : _) (q : _),
      Admitted opTimedRead p s bufs q ∧
      let o := outOpen (((List.range 64).map (slotBytes q)).flatten)
      Fits p o)
    ∧ (∃ (p : CmdPkt) (s : State) (bufs : _) (q : _),
      Admitted opTimeCapRead p s bufs q ∧
      let es := (capOf q (par p 16 1)).take (par p 17 1)
      let o := outData es.length ((es.map (fun e => leBytes 4 e.time.toNat ++ [byteN (b2n e.rising), 0, 0, 0])).flatten)
      Fits p o)
    ∧ (∃ (p : CmdPkt) (s : State) (bufs : _) (q : _),
      Admitted opTimeStatus p s bufs q ∧
      let o := outOpen (leBytes 4 (merSync q) ++ leBytes 2 q.mer.utcOffset.toNat ++ zerosB 2 ++ leBytes 4 q.mer.offsetNs.toNat
        ++ leBytes 4 q.mer.pathDelay.toNat ++ leBytes 4 (holdoverSeconds q) ++ zerosB 4 ++ leBytes 8 q.mer.masterId.toNat)
      Fits p o)
    ∧ (∃ (p : CmdPkt) (s : State) (bufs : _) (q : _),
      Admitted opTimeSet p s bufs q ∧ fv q 11 1 0 0 1 = 0) :=
  ⟨⟨pk 320 [(16, 4), (17, 2)], rdy, _, _, adm (by decide +kernel), (by decide +kernel)⟩,
   ⟨pk 0 [(16, 5), (17, 1), (19, 1), (20, 4096)], rdy, _, _, adm (by decide +kernel), (by decide +kernel), (by decide +kernel), (by decide +kernel), fun _ => (by decide +kernel)⟩,
   ⟨pk 0 [(16, 5)], modSlot 5 (fun t => { t with armed := true }) rdy, _, _, adm (by decide +kernel), (by decide +kernel), (by decide +kernel)⟩,
   ⟨pk 1024 [], rdy, _, _, adm (by decide +kernel), (by decide +kernel)⟩,
   ⟨pk 8 [(16, 1), (17, 1)], rdy, _, _, adm (by decide +kernel), (by decide +kernel)⟩,
   ⟨pk 32 [], rdy, _, _, adm (by decide +kernel), (by decide +kernel)⟩,
   ⟨pk 0 [(16, 5000), (24, 37), (26, 1)], ptpOff, _, _, adm (by decide +kernel), (by decide +kernel)⟩⟩

/-- The hypotheses of ClassifierCommandsComplete are met. -/
theorem wit_ClassifierCommandsComplete :
    (∃ (p : CmdPkt) (s : State) (bufs : _) (q : _), Admitted opRulesetSwap p s bufs q ∧ q.cls.swap = none ∧ multiRunning q 0x0331 = false ∧
    (bankOf q (b2n (!q.cls.activeGen))).built = true)
    ∧ (∃ (p : CmdPkt) (s : State) (bufs : _) (q : _), Admitted opRulesetSwap p s bufs q ∧ (q.cls.swap.isSome = true ∨ multiRunning q 0x0331 = true))
    ∧ (∃ (p : CmdPkt) (s : State) (bufs : _) (q : _), Admitted opRulesetStatus p s bufs q ∧
    let o := outData 16 ([byteN (b2n q.cls.activeGen), byteN (b2n q.cls.swap.isSome), 0, 0]
      ++ leBytes 4 (if q.cls.swap.isSome then q.cls.genCount.getD (b2n (!q.cls.activeGen)) 0 else 0)
      ++ leBytes 4 q.cls.lastFlip.toNat ++ zerosB 4)
    Fits p o)
    ∧ (∃ (p : CmdPkt) (s : State) (bufs : _) (q : _), Admitted opParseNodeWrite p s bufs q ∧ swapHolds q = false)
    ∧ (∃ (p : CmdPkt) (s : State) (bufs : _) (q : _), Admitted opParseNodeRead p s bufs q ∧
    let o := outData 64 (((List.range 64).map (fun i =>
      spliceB (nodeRec q (par p 16 1) (par p 17 1) i) 0 [byteN i])).flatten)
    Fits p o)
    ∧ (∃ (p : CmdPkt) (s : State) (bufs : _) (q : _) (t : _), Admitted opClsEntryWrite p s bufs q ∧ swapHolds q = false ∧ clsWriteLoop p (par p 16 2) 0 q = .ok t)
    ∧ (∃ (p : CmdPkt) (s : State) (bufs : _) (q : _), Admitted opClsEntryRead p s bufs q ∧ clsReadOk q p = true ∧
    let o := outData (par p 24 2) (((List.range (par p 24 2)).map (fun j =>
      match entryPhys q (stageIdx (par p 16 1) (par p 17 1)) (par p 20 4 + j) with
      | some ph => entryRead q (par p 16 1) (par p 17 1) (par p 20 4 + j) ph
      | none => zerosB 192)).flatten)
    Fits p o)
    ∧ (∃ (p : CmdPkt) (s : State) (bufs : _) (q : _) (b : _), Admitted opPmPatternWrite p s bufs q ∧ swapHolds q = false ∧
    patLoop p (par p 16 2) 0 (bankOf q (1 - genBefore q)) = .ok b)
    ∧ (∃ (p : CmdPkt) (s : State) (bufs : _) (q : _), Admitted opPipeStatsRead p s bufs q ∧
    let c := q.cls.cnt.getD (par p 16 1) pipeCountsReset
    let o := outData 80 (([c.parseDrop, c.passDrop, c.actionDrop, c.integrityDrop, c.unscannedBudget, c.unscannedLane, c.pmDrop,
      c.streamGap, c.tenantIgnored, c.flowReqIgnored].map (fun v => leBytes 8 v.toNat)).flatten)
    Fits p o) :=
  ⟨⟨pk 0 [], rdy, _, _, adm (by decide +kernel), (by decide +kernel), (by decide +kernel), (by decide +kernel)⟩,
   ⟨pk 0 [], { rdy with cls.swap := some { fix := 0, count := 1, p := pk 0 [] } }, _, _, adm (by decide +kernel), (by decide +kernel)⟩,
   ⟨pk 16 [], rdy, _, _, adm (by decide +kernel), (by decide +kernel)⟩,
   ⟨pkd ([1] ++ zerosB 13 ++ [0, 1] ++ zerosB 64) [(16, 1), (17, 1)], rdy, _, _, adm (by decide +kernel), (by decide +kernel)⟩,
   ⟨pk 5120 [], rdy, _, _, adm (by decide +kernel), (by decide +kernel)⟩,
   ⟨pkd ([1, 1, 2] ++ zerosB 189) [(16, 1)], tcamUp, _, _, _, adm (by decide +kernel), (by decide +kernel), okIs (by decide +kernel)⟩,
   ⟨pk 192 [(16, 0), (17, 1), (20, 0), (24, 1)], tcamUp, _, _, adm (by decide +kernel), (by decide +kernel), (by decide +kernel)⟩,
   ⟨pkd ([1, 0, 2, 0, 3, 0, 0, 0, 97, 98, 99] ++ zerosB 61) [(16, 1)], rdy, _, _, _, adm (by decide +kernel), (by decide +kernel), okIs (by decide +kernel)⟩,
   ⟨pk 80 [], rdy, _, _, adm (by decide +kernel), (by decide +kernel)⟩⟩

/-- The hypotheses of PatternBuildCommandsComplete are met. -/
theorem wit_PatternBuildCommandsComplete :
    (∃ (p : CmdPkt) (s : State) (bufs : _) (q : _), Admitted opPmBuild p s bufs q ∧ swapHolds q = false ∧ multiRunning q 0x0332 = false ∧
    let b := bankOf q (1 - genBefore q)
    b.pats.length ≤ 1024 ∧ bankStates b ≤ 2097152)
    ∧ (∃ (p : CmdPkt) (s : State) (bufs : _) (q : _), Admitted opPmBuild p s bufs q ∧ swapHolds q = false ∧ multiRunning q 0x0332 = false ∧
    1024 < (bankOf q (1 - genBefore q)).pats.length)
    ∧ (∃ (p : CmdPkt) (s : State) (bufs : _) (q : _), Admitted opPmCopy p s bufs q ∧ swapHolds q = false ∧ multiRunning q 0x0331 = false ∧
    let src := bankOf q (genBefore q)
    src.pats.length ≤ 1024)
    ∧ (∃ (p : CmdPkt) (s : State) (bufs : _) (q : _), Admitted opPmCopy p s bufs q ∧ swapHolds q = false ∧ multiRunning q 0x0331 = false ∧
    let src := bankOf q (genBefore q)
    1024 < src.pats.length) :=
  ⟨⟨pk 0 [], rdy, _, _, adm (by decide +kernel), (by decide +kernel), (by decide +kernel), (by decide +kernel), (by decide +kernel)⟩,
   ⟨pk 0 [], manyPats, _, _, adm (by decide +kernel), (by decide +kernel), (by decide +kernel), (by decide +kernel)⟩,
   ⟨pk 0 [], rdy, _, _, adm (by decide +kernel), (by decide +kernel), (by decide +kernel), (by decide +kernel)⟩,
   ⟨pk 0 [], manyPats, _, _, adm (by decide +kernel), (by decide +kernel), (by decide +kernel), (by decide +kernel)⟩⟩

/-- The hypotheses of FlowCommandsComplete are met. -/
theorem wit_FlowCommandsComplete :
    (∃ (p : CmdPkt) (s : State) (bufs : _) (q : _) (home : _) (h : _),
      Admitted opFlowInsert p s bufs q ∧ lockedFor q (payKey p) = false ∧
      let v := (seekKey (payKey p) q).2
      (seekKey (payKey p) q).1 = false ∧ findRec v (payKey p) = none ∧ newHome v (payKey p) = some home ∧
      insertPlace v (payKey p) = some h)
    ∧ (∃ (p : CmdPkt) (s : State) (bufs : _) (q : _),
      Admitted opFlowInsert p s bufs q ∧ lockedFor q (payKey p) = false ∧ (findRec (seekKey (payKey p) q).2 (payKey p)).isSome = true)
    ∧ (∃ (p : CmdPkt) (s : State) (bufs : _) (q : _) (h : _) (r : _),
      Admitted opFlowDelete p s bufs q ∧ lockedFor q (payKey p) = false ∧
      let v := (seekKey (payKey p) q).2
      findRec v (payKey p) = some (h, r) ∧ rget rSTATE r ≠ 2 ∧ recStandby v r = false ∧ tombRoom v (hSlice v h) = true)
    ∧ (∃ (p : CmdPkt) (s : State) (bufs : _) (q : _) (h : _) (r : _),
      Admitted opFlowModify p s bufs q ∧ lockedFor q (payKey p) = false ∧
      let v := (seekKey (payKey p) q).2
      findRec v (payKey p) = some (h, r) ∧ rget rSTATE r ≠ 2 ∧ recStandby v r = false ∧
      ((par p 16 2).testBit 15 = true → rget rGEN r = par p 18 2))
    ∧ (∃ (p : CmdPkt) (s : State) (bufs : _) (q : _),
      Admitted opFlowRead p s bufs q ∧
      let o := outData (par p 20 2) ((List.range (par p 20 2)).map (fun i =>
        if par p 22 1 = 1 then stashEntry q p (par p 16 4 % 4) i else bucketEntry q p (par p 16 4 + i))).flatten
      Fits p o)
    ∧ (∃ (p : CmdPkt) (s : State) (bufs : _) (q : _),
      Admitted opFlowPurgeTenant p s bufs q)
    ∧ (∃ (p : CmdPkt) (s : State) (bufs : _) (q : _),
      Admitted opFlowStatsRead p s bufs q ∧
      let o := outData 512 (((List.range 4).map (sliceStats q)).flatten)
      Fits p o)
    ∧ (∃ (p : CmdPkt) (s : State) (bufs : _) (q : _),
      Admitted opFlowEventRead p s bufs q ∧ q.flow.eventAge = none ∧
      let es := (sliceOf q (par p 16 1)).events.take (par p 18 2)
      Fits p (outData es.length es.flatten))
    ∧ (∃ (p : CmdPkt) (s : State) (bufs : _) (q : _),
      Admitted opFlowFind p s bufs q ∧ lockedFor q (payKey p) = false) :=
  ⟨⟨pkd spec1 [], flow0, _, _, _, _, adm (by decide +kernel), (by decide +kernel), (by decide +kernel), (by decide +kernel), someIs (by decide +kernel), someIs (by decide +kernel)⟩,
   ⟨pkd spec1 [], flow1, _, _, adm (by decide +kernel), (by decide +kernel), (by decide +kernel)⟩,
   ⟨pkd key1 [], powered flow1, _, _, _, _, adm (by decide +kernel), (by decide +kernel), somePair (by decide +kernel), (by decide +kernel), (by decide +kernel), (by decide +kernel)⟩,
   ⟨pkd spec1 [(16, 0x8001), (18, 1)], flow1, _, _, _, _, adm (by decide +kernel), (by decide +kernel), somePair (by decide +kernel), (by decide +kernel), (by decide +kernel), fun _ => (by decide +kernel)⟩,
   ⟨pk 144 [(20, 1)], flow1, _, _, adm (by decide +kernel), (by decide +kernel)⟩,
   ⟨pk 0 [(16, 3)], flow0, _, _, adm (by decide +kernel)⟩,
   ⟨pk 512 [], rdy, _, _, adm (by decide +kernel), (by decide +kernel)⟩,
   ⟨pk 80 [(16, 1), (18, 1)], rdy, _, _, adm (by decide +kernel), (by decide +kernel), (by decide +kernel)⟩,
   ⟨pkd key1 [], flow1, _, _, adm (by decide +kernel), (by decide +kernel)⟩⟩

/-- The hypotheses of LockedBucketAnswersBusy are met. -/
theorem wit_LockedBucketAnswersBusy :
    (∃ (p : CmdPkt) (s : State) (bufs : _) (q : _), Admitted opFlowInsert p s bufs q ∧ lockedFor q (payKey p) = true)
    ∧ (∃ (p : CmdPkt) (s : State) (bufs : _) (q : _), Admitted opFlowDelete p s bufs q ∧ lockedFor q (payKey p) = true)
    ∧ (∃ (p : CmdPkt) (s : State) (bufs : _) (q : _), Admitted opFlowModify p s bufs q ∧ lockedFor q (payKey p) = true) :=
  ⟨⟨pkd spec1 [], flowLocked, _, _, adm (by decide +kernel), (by decide +kernel)⟩,
   ⟨pkd key1 [], flowLocked, _, _, adm (by decide +kernel), (by decide +kernel)⟩,
   ⟨pkd spec1 [(16, 1)], flowLocked, _, _, adm (by decide +kernel), (by decide +kernel)⟩⟩

/-- The hypotheses of SkipperCommandsComplete are met. -/
theorem wit_SkipperCommandsComplete :
    (∃ (p : CmdPkt) (s : State) (bufs : _) (q : _),
      Admitted opSkipStatusRead p s bufs q ∧
      let o := outData (par p 18 2) ((List.range (par p 18 2)).map (fun i =>
        engEntry (par p 16 2 + i) (engOf q (par p 16 2 + i)))).flatten
      Fits p o)
    ∧ (∃ (p : CmdPkt) (s : State) (bufs : _) (q : _),
      Admitted opSkipStatsRead p s bufs q ∧
      let o := outData 128 (q.skip.cnt.map (fun c => leBytes 8 c.toNat)).flatten
      Fits p o)
    ∧ (∃ (p : CmdPkt) (s : State) (bufs : _) (q : _),
      Admitted opSkipTelemRead p s bufs q ∧ q.skip.telemAge = none ∧
      let es := q.skip.telem.take (par p 16 2)
      Fits p (outData es.length es.flatten))
    ∧ (∃ (p : CmdPkt) (s : State) (bufs : _) (q : _),
      Admitted opLbRead p s bufs q ∧
      let k := par p 16 1
      let o := outData 1024 ((List.range 256).map (fun j => byteN (fv q 4 0x10 (k * 256 + j) 0 6))
        ++ ((List.range 64).map (fun j => leBytes 4 (kget 0 q.skip.closedK (k * 64 + j)))).flatten
        ++ ((List.range 256).map (fun j => leBytes 2 (min 65535 (kget 0 q.skip.closedB (k * 256 + j))))).flatten)
      Fits p o)
    ∧ (∃ (p : CmdPkt) (s : State) (bufs : _) (q : _) (id : _),
      Admitted opSkipRun p s bufs q ∧ runHandle p = none ∧
      ((runClusters p).filter (fun c => (fv q 4 1 0 0 32).testBit c)).findSome? (freeIn q) = some id ∧
      let v := (ucFetch (id / 16) 2 (par p 16 1) q).2
      (ucFetch (id / 16) 2 (par p 16 1) q).1 = false ∧ (entryAt v (id / 16) (par p 16 1)).testBit 14 = true)
    ∧ (∃ (p : CmdPkt) (s : State) (bufs : _) (q : _),
      Admitted opSkipRun p s bufs q ∧ ((runClusters p).filter (fun c => (fv q 4 1 0 0 32).testBit c)).findSome? (freeIn q) = none)
    ∧ (∃ (p : CmdPkt) (s : State) (bufs : _) (q : _),
      Admitted opSkipReset p s bufs q) :=
  ⟨⟨pk 32 [(16, 3), (18, 2)], rdy, _, _, adm (by decide +kernel), (by decide +kernel)⟩,
   ⟨pk 128 [], rdy, _, _, adm (by decide +kernel), (by decide +kernel)⟩,
   ⟨pk 64 [(16, 1)], rdy, _, _, adm (by decide +kernel), (by decide +kernel), (by decide +kernel)⟩,
   ⟨pk 3072 [(16, 2)], rdy, _, _, adm (by decide +kernel), (by decide +kernel)⟩,
   ⟨pk 0 [(16, 5), (17, 0), (20, 0xFFFFFFFF)], skip1, _, _, _, adm (by decide +kernel), (by decide +kernel), someIs (by decide +kernel), (by decide +kernel), (by decide +kernel)⟩,
   ⟨pk 0 [(16, 5), (17, 0), (20, 0xFFFFFFFF)], rdy, _, _, adm (by decide +kernel), (by decide +kernel)⟩,
   ⟨pk 0 [(16, 1), (18, 3)], rdy, _, _, adm (by decide +kernel)⟩⟩

/-- The hypotheses of MicrocodeCommandsComplete are met. -/
theorem wit_MicrocodeCommandsComplete :
    (∃ (p : CmdPkt) (s : State) (bufs : _) (q : _) (sec : _) (c : _), Admitted opUcodeLoad p s bufs q ∧ ucSource q p = some sec ∧
    (bundlesFor sec (par p 16 4)).all (fun i => (bundleFault sec i).isNone) = true ∧
    let m := started opUcodeLoad p bufs 8192 [0] q
    ucStepDue m = true ∧ nextCluster m = some c ∧ clusterIdle q c = true ∧
    (nextCluster { m with units := 1, pos := c + 1, aux := [1] }).isSome = true)
    ∧ (∃ (p : CmdPkt) (s : State) (bufs : _) (q : _) (sec : _), Admitted opUcodeLoad p s bufs q ∧ ucSource q p = some sec ∧
    (bundlesFor sec (par p 16 4)).any (fun i => (bundleFault sec i).isSome) = true)
    ∧ (∃ (p : CmdPkt) (s : State) (bufs : _) (q : _), Admitted opUcodeInfo p s bufs q ∧
    let o := outData 512 ((List.range 32).map (fun c => clusterEntry (clusterOf q c))).flatten
    Fits p o)
    ∧ (∃ (p : CmdPkt) (s : State) (bufs : _) (q : _), Admitted opUcodeRead p s bufs q ∧
    let store := par p 17 1
    let o := outData (par p 20 2) ((List.range (par p 20 2)).map (fun i =>
      leBytes (ucWidth store) (ucWord q (par p 16 1) store (par p 18 2 + i)))).flatten
    Fits p o) :=
  ⟨⟨pk 0 [(16, 3)], uc secNone, _, _, _, _, adm (by decide +kernel), someIs (by decide +kernel), (by decide +kernel), (by decide +kernel), someIs (by decide +kernel), (by decide +kernel), (by decide +kernel)⟩,
   ⟨pk 0 [(16, 3)], uc secBad, _, _, _, adm (by decide +kernel), someIs (by decide +kernel), (by decide +kernel)⟩,
   ⟨pk 512 [], rdy, _, _, adm (by decide +kernel), (by decide +kernel)⟩,
   ⟨pk 8 [(16, 1), (20, 2)], rdy, _, _, adm (by decide +kernel), (by decide +kernel)⟩⟩

/-- The hypotheses of SwitchCommandsComplete are met. -/
theorem wit_SwitchCommandsComplete :
    (∃ (p : CmdPkt) (s : State) (bufs : _) (q : _), Admitted opScStatusRead p s bufs q ∧
    let alpha := (List.range 8).foldl (fun a c => a + fv q 6 2 c 0 3 * 16 ^ c) 0
    let hd := q.sw.prio.foldl (fun a e => a + e.2.hdrm) 0
    let two := fun (f : ScPipe → Nat) => ((List.range 4).map (fun i => leBytes 2 (f (pipeState q i)))).flatten
    let o := outData 64 (leBytes 4 (sharedSize q) ++ leBytes 4 q.sw.shared ++ leBytes 4 hd ++ leBytes 4 alpha
      ++ two (fun p => p.staging) ++ two (fun p => p.allowance) ++ leBytes 16 (ports128 (portFlushing q)) ++ zerosB 16)
    Fits p o)
    ∧ (∃ (p : CmdPkt) (s : State) (bufs : _) (q : _), Admitted opScStatsRead p s bufs q ∧
    let pipe := fun i => (([(pipeState q i).stageDrop, (pipeState q i).recircNobuf, (pipeState q i).holdNobuf,
      (pipeState q i).mcDrop, (pipeState q i).mcPrune, (pipeState q i).logDropRate, (pipeState q i).logDropFull,
      (pipeState q i).logOvf].map (fun c => leBytes 8 c.toNat)).flatten)
    let o := outData 288 (((List.range 4).map pipe).flatten ++ leBytes 8 q.sw.soundSamples.toNat ++ leBytes 8 q.sw.soundLost.toNat
      ++ leBytes 8 q.sw.reclaimed.toNat ++ zerosB 8)
    Fits p o)
    ∧ (∃ (p : CmdPkt) (s : State) (bufs : _) (q : _), Admitted opScPortStatsRead p s bufs q ∧
    let one := fun i =>
      let c := kget scPortReset q.sw.portCnt (par p 16 1 + i)
      ([c.admitDrop, c.hdrmDrop, c.downDrop, c.flushDrop, c.isoDrop, c.badDiscard, c.ctUnderrun, c.contFail].map
        (fun v => leBytes 8 v.toNat)).flatten
    let o := outData (par p 17 1) (((List.range (par p 17 1)).map one).flatten)
    Fits p o)
    ∧ (∃ (p : CmdPkt) (s : State) (bufs : _) (q : _) (r : _), Admitted opCaptureRingSet p s bufs q ∧ ringSet p (capRing q (par p 16 1)) = some r)
    ∧ (∃ (p : CmdPkt) (s : State) (bufs : _) (q : _), Admitted opCaptureRingSet p s bufs q ∧ ringSet p (capRing q (par p 16 1)) = none) :=
  ⟨⟨pk 64 [], rdy, _, _, adm (by decide +kernel), (by decide +kernel)⟩,
   ⟨pk 288 [], rdy, _, _, adm (by decide +kernel), (by decide +kernel)⟩,
   ⟨pk 128 [(16, 3), (17, 2)], rdy, _, _, adm (by decide +kernel), (by decide +kernel)⟩,
   ⟨pk 0 (ringFields 2), rdy, _, _, _, adm (by decide +kernel), someIs (by decide +kernel)⟩,
   ⟨pk 0 (ringFields 2), capOn, _, _, adm (by decide +kernel), (by decide +kernel)⟩⟩

/-- The hypotheses of TrafficManagerReadsComplete are met. -/
theorem wit_TrafficManagerReadsComplete :
    (∃ (p : CmdPkt) (s : State) (bufs : _) (q : _), Admitted opTmSampleRead p s bufs q ∧
    let o := outData (par p 20 2) (((List.range (par p 20 2)).map (fun i =>
      if tmQueueSeen q p (par p 16 4 + i) then sampleRead q (par p 16 4 + i) else zerosB 16)).flatten)
    Fits p o)
    ∧ (∃ (p : CmdPkt) (s : State) (bufs : _) (q : _), Admitted opTmQstatsRead p s bufs q ∧
    let o := outData (par p 20 2) (((List.range (par p 20 2)).map (fun i =>
      if tmQueueSeen q p (par p 16 4 + i) then
        leBytes 8 (queueOf q (par p 16 4 + i)).txFrames.toNat ++ leBytes 8 (queueOf q (par p 16 4 + i)).txOctets.toNat
      else zerosB 16)).flatten)
    Fits p o)
    ∧ (∃ (p : CmdPkt) (s : State) (bufs : _) (q : _), Admitted opTmPolRead p s bufs q ∧
    let o := outData (par p 20 2) (((List.range (par p 20 2)).map (fun i =>
      let e := par p 16 4 + i
      if authOf q p.src != 1 || (tenantsOf q p.src).contains (fv q 12 2 e 0 24) then
        leBytes 8 (ofSigned 64 (polTokens q e)) ++ leBytes 8 (polOf q e).dropFrames.toNat ++ leBytes 8 (polOf q e).dropOctets.toNat
      else zerosB 24)).flatten)
    Fits p o)
    ∧ (∃ (p : CmdPkt) (s : State) (bufs : _) (q : _), Admitted opTmStatsRead p s bufs q ∧
    let o := outData 64 (leBytes 8 q.sw.unassigned.toNat ++ leBytes 8 q.sw.noDest.toNat ++ leBytes 8 q.sw.polFrames.toNat
      ++ leBytes 8 q.sw.polOctets.toNat ++ zerosB 32)
    Fits p o) :=
  ⟨⟨pk 32 [(16, 600), (20, 2)], rdy, _, _, adm (by decide +kernel), (by decide +kernel)⟩,
   ⟨pk 32 [(16, 600), (20, 2)], rdy, _, _, adm (by decide +kernel), (by decide +kernel)⟩,
   ⟨pk 48 [(16, 600), (20, 2)], rdy, _, _, adm (by decide +kernel), (by decide +kernel)⟩,
   ⟨pk 64 [], rdy, _, _, adm (by decide +kernel), (by decide +kernel)⟩⟩

/-- The hypotheses of PoolCommandsComplete are met. -/
theorem wit_PoolCommandsComplete :
    (∃ (p : CmdPkt) (s : State) (bufs : _) (q : _), Admitted opPoolStatsRead p s bufs q ∧
    let one := fun pool =>
      let c := kget poolCountsReset q.pools.cnt pool
      leBytes 4 (poolSize q pool) ++ leBytes 4 (poolShared q pool) ++ leBytes 4 (poolSharedUse q pool)
        ++ leBytes 4 (poolFreeCount q pool)
        ++ ([c.allocs, c.frees, c.nobuf, c.doubleFree, c.foreignFree, c.sizeRefused].map (fun v => leBytes 8 v.toNat)).flatten
    let o := outData 7 (((List.range 7).map one).flatten)
    Fits p o)
    ∧ (∃ (p : CmdPkt) (s : State) (bufs : _) (q : _), Admitted opPoolAcctRead p s bufs q ∧
    let one := fun a pool => leBytes 4 (acctUse q a pool).use ++ leBytes 4 (acctUse q a pool).high
      ++ leBytes 8 (acctUse q a pool).nobuf.toNat
    let o := outData 112 ((List.range 16).map (fun a => ((List.range 7).map (one a)).flatten)).flatten
    let marks := (q.pools.acct.map (fun e => (e.1, { e.2 with high := e.2.use }))).filter (fun e => decide (e.2 ≠ acctUseReset))
    Fits p o)
    ∧ (∃ (p : CmdPkt) (s : State) (bufs : _) (q : _) (r : _) (t : _), Admitted opPoolAlloc p s bufs q ∧ poolTake (par p 18 2) (acctOf (par p 18 2)) (par p 16 1) q = (some r, t))
    ∧ (∃ (p : CmdPkt) (s : State) (bufs : _) (q : _) (t : _), Admitted opPoolAlloc p s bufs q ∧ poolTake (par p 18 2) (acctOf (par p 18 2)) (par p 16 1) q = (none, t))
    ∧ (∃ (p : CmdPkt) (s : State) (bufs : _) (q : _) (x : _) (t : _), Admitted opPoolFree p s bufs q ∧ poolFree 11 (par p 16 4) (fun o => o == 0x250) q = (x, t))
    ∧ (∃ (p : CmdPkt) (s : State) (bufs : _) (q : _) (o : _), Admitted opPoolOwnerRead p s bufs q ∧ kfind q.pools.alloc (par p 16 4) = some o)
    ∧ (∃ (p : CmdPkt) (s : State) (bufs : _) (q : _), Admitted opPoolOwnerRead p s bufs q ∧ kfind q.pools.alloc (par p 16 4) = none) :=
  ⟨⟨pk 448 [], rdy, _, _, adm (by decide +kernel), (by decide +kernel)⟩,
   ⟨pk 1792 [], rdy, _, _, adm (by decide +kernel), (by decide +kernel)⟩,
   ⟨pk 0 [(16, 3), (18, 0x250)], rdy, _, _, _, _, adm (by decide +kernel), pairSome (by decide +kernel)⟩,
   ⟨pk 0 [(16, 3), (18, 0x250)], poolNone, _, _, _, adm (by decide +kernel), pairNone (by decide +kernel)⟩,
   ⟨pk 0 [(16, 0x60000010)], owned 0x250, _, _, _, _, adm (by decide +kernel), pairIs⟩,
   ⟨pk 0 [(16, 0x60000010)], owned 0x250, _, _, _, adm (by decide +kernel), someIs (by decide +kernel)⟩,
   ⟨pk 0 [(16, 0x60000010)], rdy, _, _, adm (by decide +kernel), (by decide +kernel)⟩⟩

/-- The hypotheses of HbmCommandsComplete are met. -/
theorem wit_HbmCommandsComplete :
    (∃ (p : CmdPkt) (s : State) (bufs : _) (q : _), Admitted opHbmStatusRead p s bufs q ∧
    let o := outData 6 ((List.range 6).map (fun k =>
      (stackPcs k).map (fun c => stackByte (pcOf q c)) ++ [(stackOf q k).temp, byteN (b2n (stackOf q k).doubled), 0, 0]
        ++ leBytes 4 (stackOf q k).lastTrain.toNat ++ zerosB 24)).flatten
    Fits p o)
    ∧ (∃ (p : CmdPkt) (s : State) (bufs : _) (q : _), Admitted opHbmStatsRead p s bufs q ∧
    let o := outData 6 (((List.range 6).map (fun k => ((stackOf q k).counts.map (fun c => leBytes 8 c.toNat)).flatten)).flatten)
    Fits p o)
    ∧ (∃ (p : CmdPkt) (s : State) (bufs : _) (q : _), Admitted opArbStatsRead p s bufs q ∧
    let o := outData 6 (((List.range 6).map (fun k => ((List.range 6).map (fun c =>
      leBytes 8 ((stackOf q k).granted.getD c 0).toNat ++ leBytes 8 ((stackOf q k).borrowed.getD c 0).toNat
        ++ leBytes 8 ((stackOf q k).creditWait.getD c 0).toNat)).flatten)).flatten)
    Fits p o)
    ∧ (∃ (p : CmdPkt) (s : State) (bufs : _) (q : _), Admitted opHbmRegionInfo p s bufs q ∧
    let o := outData 5 (((List.range 5).map (fun k =>
      leBytes 4 (pcBase q.small k) ++ leBytes 4 (pcSpan q.small k) ++ [byteN (grainLog q k)] ++ zerosB 7)).flatten)
    Fits p o)
    ∧ (∃ (p : CmdPkt) (s : State) (bufs : _) (q : _), Admitted opHbmRetrain p s bufs q ∧
    let pc := 6 * par p 17 1 + par p 16 1
    (stackPcs (par p 16 1)).all (fun c => (pcOf q c).mode != .retraining) = true ∧ (pcOf q pc).mode ≠ .dead)
    ∧ (∃ (p : CmdPkt) (s : State) (bufs : _) (q : _), Admitted opHbmRetrain p s bufs q ∧
    (stackPcs (par p 16 1)).any (fun c => (pcOf q c).mode == .retraining) = true) :=
  ⟨⟨pk 384 [], rdy, _, _, adm (by decide +kernel), (by decide +kernel)⟩,
   ⟨pk 768 [], rdy, _, _, adm (by decide +kernel), (by decide +kernel)⟩,
   ⟨pk 864 [], rdy, _, _, adm (by decide +kernel), (by decide +kernel)⟩,
   ⟨pk 80 [], rdy, _, _, adm (by decide +kernel), (by decide +kernel)⟩,
   ⟨pk 0 [(16, 2), (17, 4)], rdy, _, _, adm (by decide +kernel), (by decide +kernel), (by decide +kernel)⟩,
   ⟨pk 0 [(16, 0), (17, 4)], retraining, _, _, adm (by decide +kernel), (by decide +kernel)⟩⟩

/-- The hypotheses of MeteringCommandsComplete are met. -/
theorem wit_MeteringCommandsComplete :
    (∃ (p : CmdPkt) (s : State) (bufs : _) (q : _), Admitted opMeterStatsRead p s bufs q ∧
    let o := outData 64 (([q.met.unmetered, q.met.mismatch, q.met.frozenDiscarded, q.met.spills, q.met.blocksClosed,
      q.met.billLost, q.met.ckptsWritten, 0].map (fun c => leBytes 8 c.toNat)).flatten)
    Fits p o)
    ∧ (∃ (p : CmdPkt) (s : State) (bufs : _) (q : _) (d : _), Admitted opMeterCloseInfo p s bufs q ∧ closeInfo q (par p 16 8) = some d ∧ Fits p (outData 160 d))
    ∧ (∃ (p : CmdPkt) (s : State) (bufs : _) (q : _), Admitted opMeterCloseInfo p s bufs q ∧ closeInfo q (par p 16 8) = none)
    ∧ (∃ (p : CmdPkt) (s : State) (bufs : _) (q : _) (t : _) (o : _), Admitted opBillingSign p s bufs q ∧ signBusy q = false ∧ signBody p q = (t, o) ∧ o.status = 0)
    ∧ (∃ (p : CmdPkt) (s : State) (bufs : _) (q : _), Admitted opBillingSign p s bufs q ∧ signBusy q = true)
    ∧ (∃ (p : CmdPkt) (s : State) (bufs : _) (q : _) (r : _), Admitted opBillRingSet p s bufs q ∧ ringSet p q.met.ring = some r)
    ∧ (∃ (p : CmdPkt) (s : State) (bufs : _) (q : _) (b : _), Admitted opBillBlockRead p s bufs q ∧ (closedMinute q (par p 16 8)).bind (stagedBlock q) = some b ∧
    b.delivery ≠ .lost ∧
    let n := min (par p 28 4) (b.records - par p 24 4)
    Fits p (outData n (stagedRecords q b (par p 24 4) n))) :=
  ⟨⟨pk 64 [], rdy, _, _, adm (by decide +kernel), (by decide +kernel)⟩,
   ⟨pk 160 [(16, 9)], billed, _, _, _, adm (by decide +kernel), someIs (by decide +kernel), (by decide +kernel)⟩,
   ⟨pk 160 [(16, 9)], rdy, _, _, adm (by decide +kernel), (by decide +kernel)⟩,
   ⟨pk 256 [(16, 9)], billed, _, _, _, _, adm (by decide +kernel), (by decide +kernel), pairIs, (by decide +kernel)⟩,
   ⟨pk 256 [(16, 9)], signing, _, _, adm (by decide +kernel), (by decide +kernel)⟩,
   ⟨pk 0 (ringFields 0), rdy, _, _, _, adm (by decide +kernel), someIs (by decide +kernel)⟩,
   ⟨pk 64 [(16, 9), (24, 1), (28, 1)], billed, _, _, _, adm (by decide +kernel), someIs (by decide +kernel), (by decide +kernel), (by decide +kernel)⟩⟩

/-- The hypotheses of PairCommandsComplete are met. -/
theorem wit_PairCommandsComplete :
    (∃ (p : CmdPkt) (s : State) (bufs : _) (q : _), Admitted opPairStatusRead p s bufs q ∧
    let o := outData 64 ([byteN (pairCode q.pair.st), byteN q.pair.cause, byteN q.pair.roles.toNat, byteN q.pair.peerRoles.toNat,
        byteN q.pair.peerPower, 0, 0, 0] ++ leBytes 4 q.pair.txSeq ++ leBytes 4 q.pair.peerApplied
      ++ leBytes 4 (pairLag q) ++ leBytes 4 q.pair.lagMax ++ leBytes 4 (max (epochOf q 1) (epochOf q 2))
      ++ leBytes 4 ((q.pair.sweep.map (fun w => w.bucket)).getD 0) ++ beBytes 16 q.pair.peerUid.toNat
      ++ leBytes 4 q.pair.journal.length ++ zerosB 12)
    Fits p o)
    ∧ (∃ (p : CmdPkt) (s : State) (bufs : _) (q : _), Admitted opPairRole p s bufs q ∧ q.pair.st ≠ .solo)
    ∧ (∃ (p : CmdPkt) (s : State) (bufs : _) (q : _), Admitted opPairRole p s bufs q ∧ q.pair.st = .solo)
    ∧ (∃ (p : CmdPkt) (s : State) (bufs : _) (q : _), Admitted opPairStatsRead p s bufs q ∧
    let o := outData 128 (q.pair.cnt.map (fun c => leBytes 8 c.toNat)).flatten
    Fits p o)
    ∧ (∃ (p : CmdPkt) (s : State) (bufs : _) (q : _), Admitted opPairResync p s bufs q ∧ q.pair.st = .paired)
    ∧ (∃ (p : CmdPkt) (s : State) (bufs : _) (q : _), Admitted opPairResync p s bufs q ∧ q.pair.st ≠ .solo ∧ q.pair.st ≠ .paired)
    ∧ (∃ (p : CmdPkt) (s : State) (bufs : _) (q : _), Admitted opPairHeadRead p s bufs q ∧
    let o := outData q.pair.heads.length (padTo 6144 ((q.pair.heads.map (padTo 96)).flatten))
    Fits p o) :=
  ⟨⟨pk 64 [], rdy, _, _, adm (by decide +kernel), (by decide +kernel)⟩,
   ⟨pk 0 [(16, 1)], paired, _, _, adm (by decide +kernel), (by decide +kernel)⟩,
   ⟨pk 0 [(16, 1)], rdy, _, _, adm (by decide +kernel), (by decide +kernel)⟩,
   ⟨pk 128 [], rdy, _, _, adm (by decide +kernel), (by decide +kernel)⟩,
   ⟨pk 0 [], paired, _, _, adm (by decide +kernel), (by decide +kernel)⟩,
   ⟨pk 0 [], hello0, _, _, adm (by decide +kernel), (by decide +kernel), (by decide +kernel)⟩,
   ⟨pk 6144 [], rdy, _, _, adm (by decide +kernel), (by decide +kernel)⟩⟩

/-- The hypotheses of FaultCommandsComplete are met. -/
theorem wit_FaultCommandsComplete :
    (∃ (p : CmdPkt) (s : State) (bufs : _) (q : _), Admitted opFaultLogRead p s bufs q ∧
    let rs := (if par p 18 1 = 1 then q.lod.book else q.lod.ring).take (par p 16 2)
    let o := outData rs.length ((rs.map recBytes).flatten)
    Fits p o)
    ∧ (∃ (p : CmdPkt) (s : State) (bufs : _) (q : _), Admitted opFaultRelease p s bufs q ∧ stateOn (srcState q (par p 16 1) (par p 17 1)) = true)
    ∧ (∃ (p : CmdPkt) (s : State) (bufs : _) (q : _), Admitted opFaultRelease p s bufs q ∧ stateOn (srcState q (par p 16 1) (par p 17 1)) = false)
    ∧ (∃ (p : CmdPkt) (s : State) (bufs : _) (q : _), Admitted opFaultStatusRead p s bufs q ∧
    let o := outData 584 ([byteN (b2n q.lod.grave), byteN (b2n q.lod.factory),
        byteN (b2n (pinsNow q).1 + 2 * b2n (pinsNow q).2)]
      ++ zerosB 5 ++ leBytes 8 q.lod.lost.toNat ++ leBytes 16 (ports128 (portSafe q))
      ++ ((List.range 23).map (srcEntry q)).flatten)
    Fits p o)
    ∧ (∃ (p : CmdPkt) (s : State) (bufs : _) (q : _), Admitted opFaultInjectUnlock p s bufs q ∧ par p 16 1 = 0 ∧ 16 ≤ p.paramLen.toNat)
    ∧ (∃ (p : CmdPkt) (s : State) (bufs : _) (q : _) (n : _), Admitted opFaultInjectUnlock p s bufs q ∧ par p 16 1 = 1 ∧ q.lod.nonce = some n)
    ∧ (∃ (p : CmdPkt) (s : State) (bufs : _) (q : _), Admitted opFaultInjectUnlock p s bufs q ∧ par p 16 1 = 1 ∧ q.lod.nonce = none)
    ∧ (∃ (p : CmdPkt) (s : State) (bufs : _) (q : _) (c : _), Admitted opFaultInject p s bufs q ∧ kindClass (par p 16 1) (par p 17 1) = some c ∧ par p 18 1 = 0)
    ∧ (∃ (p : CmdPkt) (s : State) (bufs : _) (q : _) (c : _), Admitted opFaultInject p s bufs q ∧ kindClass (par p 16 1) (par p 17 1) = some c ∧ par p 18 1 ≠ 0)
    ∧ (∃ (p : CmdPkt) (s : State) (bufs : _) (q : _), Admitted opIsoTenantRead p s bufs q ∧
    let lo := objVal q (oid 14 0x100 (par p 16 4))
    let hi := objVal q (oid 14 0x101 (par p 16 4))
    let d := kget drainReset q.lod.drains (par p 16 4)
    let o := outData (b2n (lo != 0 || hi != 0)) (leBytes 8 lo ++ leBytes 8 hi ++ leBytes 16 d.mask.toNat
      ++ leBytes 4 d.fix.toNat ++ zerosB 12)
    Fits p o) :=
  ⟨⟨pk 64 [(16, 4)], rdy, _, _, adm (by decide +kernel), (by decide +kernel)⟩,
   ⟨pk 0 [(16, 5), (17, 1)], faulted, _, _, adm (by decide +kernel), (by decide +kernel)⟩,
   ⟨pk 0 [(16, 5), (17, 1)], rdy, _, _, adm (by decide +kernel), (by decide +kernel)⟩,
   ⟨pk 584 [], rdy, _, _, adm (by decide +kernel), (by decide +kernel)⟩,
   ⟨pk 16 [], ftested, _, _, adm (by decide +kernel), (by decide +kernel), (by decide +kernel)⟩,
   ⟨pkd (zerosB 114) [(16, 1)], nonced, _, _, _, adm (by decide +kernel), (by decide +kernel), someIs (by decide +kernel)⟩,
   ⟨pkd (zerosB 114) [(16, 1)], ftested, _, _, adm (by decide +kernel), (by decide +kernel), (by decide +kernel)⟩,
   ⟨pk 0 [(16, 2), (17, 1)], ftested, _, _, _, adm (by decide +kernel), someIs (by decide +kernel), (by decide +kernel)⟩,
   ⟨pk 0 [(16, 2), (17, 1), (18, 1)], ftested, _, _, _, adm (by decide +kernel), someIs (by decide +kernel), (by decide +kernel)⟩,
   ⟨pk 48 [(16, 9)], rdy, _, _, adm (by decide +kernel), (by decide +kernel)⟩⟩

/-- The hypotheses of PowerCommandsComplete are met. -/
theorem wit_PowerCommandsComplete :
    (∃ (p : CmdPkt) (s : State) (bufs : _) (q : _), Admitted opPowerStatusRead p s bufs q ∧
    let o := outData 64 ([byteN (pwrCode q.pwr.st + 128 * b2n q.pwr.transit.isSome), byteN q.pwr.next, 0, 0]
      ++ leBytes 4 q.pwr.dist ++ leBytes 8 q.pwr.on.toNat ++ leBytes 8 q.pwr.gated.toNat ++ leBytes 8 q.pwr.roosts.toNat
      ++ leBytes 8 q.pwr.cocoons.toNat ++ [byteN q.pwr.tj.toNat] ++ zerosB 23)
    Fits p o)
    ∧ (∃ (p : CmdPkt) (s : State) (bufs : _) (q : _), Admitted opPowerPolicy p s bufs q ∧ policyDenied q p = false)
    ∧ (∃ (p : CmdPkt) (s : State) (bufs : _) (q : _), Admitted opPowerPolicy p s bufs q ∧ policyDenied q p = true) :=
  ⟨⟨pk 64 [], rdy, _, _, adm (by decide +kernel), (by decide +kernel)⟩,
   ⟨pk 0 [(17, 1), (20, 1)], rdy, _, _, adm (by decide +kernel), (by decide +kernel)⟩,
   ⟨pk 0 [(16, 2), (17, 1), (20, 1)], { rdy with boot.pairPresent := true, pair.roles := 3 }, _, _, adm (by decide +kernel), (by decide +kernel)⟩⟩

/-- The hypotheses of BootCommandsComplete are met. -/
theorem wit_BootCommandsComplete :
    (∃ (p : CmdPkt) (s : State) (bufs : _) (q : _), Admitted opChipReset p s bufs q)
    ∧ (∃ (p : CmdPkt) (s : State) (bufs : _) (q : _) (t : _) (o : _), Admitted opAttest p s bufs q ∧ signBusy q = false ∧ attestBody p q = (t, o) ∧ o.status = 0)
    ∧ (∃ (p : CmdPkt) (s : State) (bufs : _) (q : _), Admitted opAttest p s bufs q ∧ signBusy q = true)
    ∧ (∃ (p : CmdPkt) (s : State) (bufs : _) (q : _), Admitted opImageInfo p s bufs q ∧
    let run := match q.boot.running with
      | some g => imageEntry g.header g.source 2 0
      | none => zerosB 96
    let st := if q.boot.stagedState = 0 then padTo 96 (zerosB 9 ++ [3])
      else imageEntry (stagedHeader q) 3 q.boot.stagedState q.boot.stagedReason
    let o := outData 256 (run ++ st ++ [byteN q.boot.fuses, byteN q.boot.revoke.toNat] ++ zerosB 62)
    Fits p o)
    ∧ (∃ (p : CmdPkt) (s : State) (bufs : _) (q : _), Admitted opImageStage p s bufs q ∧ imageBusy q = false)
    ∧ (∃ (p : CmdPkt) (s : State) (bufs : _) (q : _), Admitted opImageStage p s bufs q ∧ imageBusy q = true)
    ∧ (∃ (p : CmdPkt) (s : State) (bufs : _) (q : _), Admitted opImageAccept p s bufs q ∧ imageBusy q = false)
    ∧ (∃ (p : CmdPkt) (s : State) (bufs : _) (q : _), Admitted opImageFlash p s bufs q ∧ imageBusy q = false ∧ q.boot.accepted.isSome = true ∧
    1 < (imgSize (stagedHeader q) + 65535) / 65536)
    ∧ (∃ (p : CmdPkt) (s : State) (bufs : _) (q : _), Admitted opImageFlash p s bufs q ∧ imageBusy q = false ∧ q.boot.accepted = none)
    ∧ (∃ (p : CmdPkt) (s : State) (bufs : _) (q : _), Admitted opImageFuse p s bufs q ∧ imgEpoch (runHeader q) ≤ q.boot.fuses ∧
    q.boot.revoke ||| fuseRevokes q = q.boot.revoke)
    ∧ (∃ (p : CmdPkt) (s : State) (bufs : _) (q : _), Admitted opImageFuse p s bufs q ∧ q.boot.fuses < imgEpoch (runHeader q))
    ∧ (∃ (p : CmdPkt) (s : State) (bufs : _) (q : _), Admitted opCertRead p s bufs q ∧
    let o := if shake256 (Config.certificate 0) = Config.otpDigest 5 then outData 2 (certPart 0 ++ certPart 1)
      else outErr stFAULTED
    Fits p o) :=
  ⟨⟨pk 0 [], rdy, _, _, adm (by decide +kernel)⟩,
   ⟨pk 512 [], rdy, _, _, _, _, adm (by decide +kernel), (by decide +kernel), pairIs, (by decide +kernel)⟩,
   ⟨pk 512 [], signing, _, _, adm (by decide +kernel), (by decide +kernel)⟩,
   ⟨pk 256 [], rdy, _, _, adm (by decide +kernel), (by decide +kernel)⟩,
   ⟨pkd (zerosB 4096) [], rdy, _, _, adm (by decide +kernel), (by decide +kernel)⟩,
   ⟨pkd (zerosB 4096) [], imaging, _, _, adm (by decide +kernel), (by decide +kernel)⟩,
   ⟨pk 0 [], rdy, _, _, adm (by decide +kernel), (by decide +kernel)⟩,
   ⟨pk 0 [], accepted0, _, _, adm (by decide +kernel), (by decide +kernel), (by decide +kernel), (by decide +kernel)⟩,
   ⟨pk 0 [], rdy, _, _, adm (by decide +kernel), (by decide +kernel), (by decide +kernel)⟩,
   ⟨pk 0 [], rdy, _, _, adm (by decide +kernel), (by decide +kernel), (by decide +kernel)⟩,
   ⟨pk 0 [], epoch1, _, _, adm (by decide +kernel), (by decide +kernel)⟩,
   ⟨pk 2056 [], rdy, _, _, adm (by decide +kernel), fitsCert _⟩⟩

/-- The hypotheses of CounterCommandsComplete are met. -/
theorem wit_CounterCommandsComplete :
    (∃ (p : CmdPkt) (s : State) (bufs : _) (q : _), Admitted opPerfRead p s bufs q ∧
    let ids := (List.range (par p 18 2)).map (fun i => par p 16 2 + i)
    let one := fun c => leBytes 8 (perfOf q c).latch.toNat
      ++ [byteN (b2n (perfOf q c).latchOvf + 2 * b2n (perfOf q c).bad + 4 * b2n (perfOf q c).latchHit), 0]
      ++ leBytes 2 (fv q 15 1 c 0 16) ++ zerosB 4
    let o := outData (par p 18 2) ((ids.map one).flatten)
    let cleared := (q.perf.counters.map (fun e => if ids.contains e.1 then (e.1, perfClear e.2) else e)).filter
      (fun e => decide (e.2 ≠ perfCounterReset))
    Fits p o)
    ∧ (∃ (p : CmdPkt) (s : State) (bufs : _) (q : _) (r : _), Admitted opMonRingSet p s bufs q ∧ ringSet p q.perf.ring = some r)
    ∧ (∃ (p : CmdPkt) (s : State) (bufs : _) (q : _), Admitted opMonRingSet p s bufs q ∧ ringSet p q.perf.ring = none)
    ∧ (∃ (p : CmdPkt) (s : State) (bufs : _) (q : _), Admitted opMonStatsRead p s bufs q ∧
    let o := outData 64 (([q.perf.tagged, q.perf.skipped, q.perf.storeFull, q.perf.monLost, q.perf.delivered].map
      (fun c => leBytes 8 c.toNat)).flatten ++ zerosB 24)
    Fits p o) :=
  ⟨⟨pk 16 [(18, 1)], rdy, _, _, adm (by decide +kernel), (by decide +kernel)⟩,
   ⟨pk 0 (ringFields 0), rdy, _, _, _, adm (by decide +kernel), someIs (by decide +kernel)⟩,
   ⟨pk 0 (ringFields 0), capOn, _, _, adm (by decide +kernel), (by decide +kernel)⟩,
   ⟨pk 64 [], rdy, _, _, adm (by decide +kernel), (by decide +kernel)⟩⟩

/-- The hypotheses of DoorbellEventsComplete are met. -/
theorem wit_DoorbellEventsComplete :
    (∃ (n : Fin 4) (v : U32) (s : State),
      bitsOf (BitVec.toNat v) 0 16 < ringSize (ringOf s n.val).size)
    ∧ (∃ (n : Fin 4) (v : U32) (s : State),
      ringSize (ringOf s n.val).size ≤ bitsOf (BitVec.toNat v) 0 16)
    ∧ (∃ (n : Fin 4) (v : U32) (s : State),
      domainOn s 61 = true ∧ bitsOf (BitVec.toNat v) 0 16 < ringSize (ringOf s n.val).cqSize)
    ∧ (∃ (n : Fin 4) (v : U32) (s : State),
      domainOn s 61 = true ∧ ringSize (ringOf s n.val).cqSize ≤ bitsOf (BitVec.toNat v) 0 16)
    ∧ (∃ (n : Fin 4) (s : State),
      domainOn s 61 = true ∧ (ringOf s n.val).enable = false ∧ (ringOf s n.val).state = .idle)
    ∧ (∃ (n : Fin 4) (s : State),
      domainOn s 61 = true ∧ (ringOf s n.val).enable = true ∧ 0 < (ringOf s n.val).promised)
    ∧ (∃ (n : Fin 4) (s : State),
      domainOn s 61 = true ∧ (ringOf s n.val).enable = true ∧ (ringOf s n.val).promised = 0 ∧ (ringOf s n.val).waiting = [] ∧
      (ringOf s n.val).inFetch = []) :=
  ⟨⟨1, 3, inRing (fun _ => ring16), (by decide +kernel)⟩,
   ⟨1, 16, inRing (fun _ => ring16), (by decide +kernel)⟩,
   ⟨1, 3, inRing (fun _ => ring16), (by decide +kernel), (by decide +kernel)⟩,
   ⟨1, 16, inRing (fun _ => ring16), (by decide +kernel), (by decide +kernel)⟩,
   ⟨1, rdy, (by decide +kernel), (by decide +kernel), (by decide +kernel)⟩,
   ⟨1, inRing (fun _ => { ring16 with promised := 1 }), (by decide +kernel), (by decide +kernel), (by decide +kernel)⟩,
   ⟨1, inRing (fun _ => ring16), (by decide +kernel), (by decide +kernel), (by decide +kernel), (by decide +kernel), (by decide +kernel)⟩⟩

/-- The hypotheses of DirectRegisterEventsComplete are met. -/
theorem wit_DirectRegisterEventsComplete :
    (∃ (bar2 : Bool) (off : BitVec 26) (data : U64) (s : State),
      s.boot.sysRst = true ∧ BitVec.toNat off % 4 = 0)
    ∧ (∃ (bar2 : Bool) (off : BitVec 26) (data : U64) (s : State),
      s.boot.sysRst = true ∧ BitVec.toNat off % 8 = 0)
    ∧ (∃ (v : U32) (s : State),
      let n := (BitVec.ofNat 13 (BitVec.toNat v) - s.lod.headCount).toNat
      n ≤ (s.lod.tailCount - s.lod.headCount).toNat)
    ∧ (∃ (v : U32) (s : State),
      let n := (BitVec.ofNat 13 (BitVec.toNat v) - s.lod.headCount).toNat
      (s.lod.tailCount - s.lod.headCount).toNat < n)
    ∧ (∃ (lane : Fin 128) (v : U32) (s : State),
      isPort s lane.val = true ∧ domainOn s (56 + lane.val / 32) = true)
    ∧ (∃ (lane : Fin 128) (v : U32) (s : State),
      isPort s lane.val = false)
    ∧ (∃ (off : BitVec 26) (_ : State), BitVec.toNat off % 4 = 0 ∧ off.toNat < 0x8000) :=
  ⟨⟨true, 4, 1, rdy, (by decide +kernel), (by decide +kernel)⟩,
   ⟨true, 8, 1, rdy, (by decide +kernel), (by decide +kernel)⟩,
   ⟨1, { rdy with lod.tailCount := 1 }, (by decide +kernel)⟩,
   ⟨2, { rdy with lod.tailCount := 1 }, (by decide +kernel)⟩,
   ⟨0, 1, { rdy with pwr.on := 0xFFFFFFFFFFFFFFFF }, (by decide +kernel), (by decide +kernel)⟩,
   ⟨1, 1, { rdy with ctl.cfg := [(oid 1 1 0, 1)] }, (by decide +kernel)⟩,
   ⟨8, rdy, (by decide +kernel), (by decide +kernel)⟩⟩

/-- The hypotheses of HostInterfaceEventsComplete are met. -/
theorem wit_HostInterfaceEventsComplete :
    (∃ (s : State) (i : _), fetching s = true ∧
    ((List.range 6).map (fun i => (s.host.rot + i) % 6)).find? (fun i => fetchable s (rotation.getD i 0) != 0) = some i)
    ∧ (∃ (n : Fin 4) (cs : List CmdPkt) (s : State) (idx : _) (k : _) (rest : _), (ringOf s n.val).inFetch = (idx, k) :: rest ∧ cs.length = k)
    ∧ (∃ (n : Fin 4) (s : State) (idx : _) (k : _) (rest : _), (ringOf s n.val).inFetch = (idx, k) :: rest ∧ (ringOf s n.val).state = .running)
    ∧ (∃ (kind : Fin 4) (s : State), s.boot.sysRst = true ∧ kind ≠ 0)
    ∧ (∃ (s : State), s.boot.sysRst = true)
    ∧ (∃ (gen : Fin 4) (width : Fin 4) (s : State), s.boot.sysRst = true ∧ s.host.perst = false)
    ∧ (∃ (port : Fin 128) (pk : Nat) (s : State) (k : _), pktOf s pk = some k ∧ k.port = port.val ∧ k.tail = .good ∧ k.stage = .ingress ∧ k.counted = false ∧
    ibMatch s k.rx = true ∧ (freePkt pk k s).ctl.ibPorts.getLsbD port.val = true)
    ∧ (∃ (port : Fin 128) (pk : Nat) (s : State) (k : _), pktOf s pk = some k ∧ k.port = port.val ∧ k.tail = .good ∧ k.stage = .ingress ∧ k.counted = false ∧
    ibMatch s k.rx = true ∧ (freePkt pk k s).ctl.ibPorts.getLsbD port.val = false) :=
  ⟨⟨inRing (fun _ => ring16), _, (by decide +kernel), someIs (by decide +kernel)⟩,
   ⟨1, [pk 0 [], pk 0 []], inRing (fun _ => { ring16 with inFetch := [(0, 2)] }), 0, 2, [], (by decide +kernel), (by decide +kernel)⟩,
   ⟨1, inRing (fun _ => { ring16 with inFetch := [(0, 2)] }), 0, 2, [], (by decide +kernel), (by decide +kernel)⟩,
   ⟨1, rdy, (by decide +kernel), (by decide +kernel)⟩,
   ⟨rdy, (by decide +kernel)⟩,
   ⟨2, 3, { rdy with host.perst := false }, (by decide +kernel), (by decide +kernel)⟩,
   ⟨0, 3, ibState 1, { pktReset 0 0 with rx := ibFrame, tail := .good }, (by decide +kernel), (by decide +kernel), (by decide +kernel), (by decide +kernel), (by decide +kernel), (by decide +kernel), (by decide +kernel)⟩,
   ⟨0, 3, ibState 2, { pktReset 0 0 with rx := ibFrame, tail := .good }, (by decide +kernel), (by decide +kernel), (by decide +kernel), (by decide +kernel), (by decide +kernel), (by decide +kernel), (by decide +kernel)⟩⟩

/-- The hypotheses of TimelineEventsComplete are met. -/
theorem wit_TimelineEventsComplete :
    (∃ (env : BoundaryEnv) (s : State), s.boot.sysRst = true ∧ s.ctl.closed = true ∧ (boundarySwitch env s).ctl.ready = true)
    ∧ (∃ (env : BoundaryEnv) (s : State), s.boot.sysRst = true ∧ s.ctl.closed = false ∧ (boundarySwitch env (closeSample s)).ctl.ready = true)
    ∧ (∃ (s : State), s.boot.sysRst = true ∧ s.ctl.closed = false)
    ∧ (∃ (s : State), s.boot.stage = 6 ∧ s.boot.sysRst = true ∧ s.boot.ucDone = true) :=
  ⟨⟨env0, { rdy with ctl.closed := true }, (by decide +kernel), (by decide +kernel), (by decide +kernel)⟩,
   ⟨env0, rdy, (by decide +kernel), (by decide +kernel), (by decide +kernel)⟩,
   ⟨rdy, (by decide +kernel), (by decide +kernel)⟩,
   ⟨{ rdy with boot.stage := 6 }, (by decide +kernel), (by decide +kernel), (by decide +kernel)⟩⟩

/-- The hypotheses of PortEventsComplete are met. -/
theorem wit_PortEventsComplete :
    (∃ (port : Fin 128) (ns : BitVec 10) (kind : Fin 3) (s : State),
      isPort (atNs ns s) port.val = true ∧ (portOf (atNs ns s) port.val).st = .up)
    ∧ (∃ (port : Fin 128) (ns : BitVec 10) (s : State),
      (portOf (atNs ns s) port.val).st = .downPend ∧ downHeld (atNs ns s) port.val = true)
    ∧ (∃ (port : Fin 128) (ns : BitVec 10) (s : State),
      (portOf (atNs ns s) port.val).st = .align ∧ upHeld (atNs ns s) port.val = true)
    ∧ (∃ (port : Fin 128) (s : State),
      isPort s port.val = true ∧ serdesOn s port.val = true ∧ (portOf s port.val).st = .negotiate)
    ∧ (∃ (port : Fin 128) (s : State),
      isPort s port.val = true ∧ serdesOn s port.val = true ∧ (portOf s port.val).st = .train)
    ∧ (∃ (port : Fin 128) (s : State),
      isPort s port.val = true ∧ (portOf s port.val).st = .train)
    ∧ (∃ (port : Fin 128) (ns : BitVec 10) (kind : Fin 3) (s : State),
      isPort (atNs ns s) port.val = true ∧ (portOf (atNs ns s) port.val).st = .align)
    ∧ (∃ (port : Fin 128) (ns : BitVec 10) (s : State),
      isPort (atNs ns s) port.val = true ∧ clocked (atNs ns s) port.val = true ∧ serdesOn (atNs ns s) port.val = true ∧
      (portOf (atNs ns s) port.val).st = .align ∧ (portOf (atNs ns s) port.val).aligned = false)
    ∧ (∃ (port : Fin 128) (ns : BitVec 10) (s : State),
      isPort (atNs ns s) port.val = true ∧ clocked (atNs ns s) port.val = true ∧ serdesOn (atNs ns s) port.val = true ∧
      (portOf (atNs ns s) port.val).st = .downPend)
    ∧ (∃ (port : Fin 128) (ns : BitVec 10) (vec : Byte) (times : List U16) (s : State),
      isPort (atNs ns s) port.val = true ∧ (portOf (atNs ns s) port.val).st = .up ∧
      let u := modCnt port.val (fun c => { c with rxPause := c.rxPause + 1 }) (atNs ns s)
      pauseMode u port.val = 1)
    ∧ (∃ (port : Fin 128) (prio : Fin 8) (ns : BitVec 10) (s : State) (t : _),
      (portOf (atNs ns s) port.val).pauseEnd.getD prio.val none = some t ∧ t ≤ monoNs (atNs ns s)) :=
  ⟨⟨0, 8, 0, portIn .up, (by decide +kernel), (by decide +kernel)⟩,
   ⟨0, 8, portHolds .downPend, (by decide +kernel), (by decide +kernel)⟩,
   ⟨0, 8, portHolds .align, (by decide +kernel), (by decide +kernel)⟩,
   ⟨0, powered (portIn .negotiate), (by decide +kernel), (by decide +kernel), (by decide +kernel)⟩,
   ⟨0, powered (portIn .train), (by decide +kernel), (by decide +kernel), (by decide +kernel)⟩,
   ⟨0, portIn .train, (by decide +kernel), (by decide +kernel)⟩,
   ⟨0, 8, 1, portIn .align, (by decide +kernel), (by decide +kernel)⟩,
   ⟨0, 8, powered (clockUp .align), (by decide +kernel), (by decide +kernel), (by decide +kernel), (by decide +kernel), (by decide +kernel)⟩,
   ⟨0, 8, powered (clockUp .downPend), (by decide +kernel), (by decide +kernel), (by decide +kernel), (by decide +kernel)⟩,
   ⟨0, 8, 1, [5], clockUp .up, (by decide +kernel), (by decide +kernel), (by decide +kernel)⟩,
   ⟨0, 2, 8, pausing, 5, (by decide +kernel), (by decide +kernel)⟩⟩

/-- The hypotheses of PtpEventsComplete are met. -/
theorem wit_PtpEventsComplete :
    (∃ (port : Fin 128) (pk : Nat) (servo : Option ServoIn) (s : State) (k : _) (o : _) (x : _),
      pktOf s pk = some k ∧ k.port = port.val ∧ isWhole k = true ∧ k.tail = .good ∧ k.stage = .ingress ∧
      ptpOurs s port.val k.rx = some (o, x) ∧ fv s 11 1 0 1 2 = 3)
    ∧ (∃ (port : Fin 128) (pk : Nat) (v : ServoIn) (s : State) (k : _) (o : _) (x : _),
      pktOf s pk = some k ∧ k.port = port.val ∧ isWhole k = true ∧ k.tail = .good ∧ k.stage = .ingress ∧
      ptpOurs s port.val k.rx = some (o, x) ∧ fv s 11 1 0 1 2 ≠ 3)
    ∧ (∃ (port : Fin 128) (dst : BitVec 48) (hdr : Bytes) (msg : Bytes) (s : State),
      ptpSends s port.val (ptpFrame s port.val dst hdr msg) = true)
    ∧ (∃ (port : Fin 128) (dst : BitVec 48) (hdr : Bytes) (msg : Bytes) (s : State) (x : _),
      s.mer.followUps.find? (fun e => e.1 == port.val) = some (port.val, x) ∧
      let u := { s with mer.followUps := s.mer.followUps.erase (port.val, x) }
      ptpSends u port.val (ptpFrame u port.val dst hdr msg) = true ∧ isFollowUp (ptpFrame u port.val dst hdr msg) = true)
    ∧ (∃ (s : State),
      s.mer.sync = .locked)
    ∧ (∃ (s : State),
      s.mer.sync = .acquire)
    ∧ (∃ (s : State),
      s.mer.sync = .freerun ∨ s.mer.sync = .holdover)
    ∧ (∃ (s : State),
      s.mer.sync = .holdover ∧ fv s 11 3 0 0 16 * 1000000000 ≤ monoNs s - s.mer.holdoverStart) :=
  ⟨⟨0, 3, none, ptpState 3, ptpPkt, _, _, (by decide +kernel), (by decide +kernel), (by decide +kernel), (by decide +kernel), (by decide +kernel), somePair (by decide +kernel), (by decide +kernel)⟩,
   ⟨0, 3, { selected := false, masterId := 0, offset := none, pathDelay := 0, utcOffset := 0, utcValid := false, leap61 := false, leap59 := false, addend := 0 }, ptpState 0, ptpPkt, _, _, (by decide +kernel), (by decide +kernel), (by decide +kernel), (by decide +kernel), (by decide +kernel), somePair (by decide +kernel), (by decide +kernel)⟩,
   ⟨0, 5, [0x88, 0xF7], 1 :: zerosB 43, ptpState 1, (by decide +kernel)⟩,
   ⟨0, 5, [0x88, 0xF7], 8 :: zerosB 43, { ptpState 1 with mer.followUps := [(0, 9)] }, 9, (by decide +kernel), (by decide +kernel), (by decide +kernel)⟩,
   ⟨syncIn .locked, (by decide +kernel)⟩,
   ⟨syncIn .acquire, (by decide +kernel)⟩,
   ⟨syncIn .freerun, Or.inl (by decide +kernel)⟩,
   ⟨syncIn .holdover, (by decide +kernel), (by decide +kernel)⟩⟩

/-- The hypotheses of PinEventsComplete are met. -/
theorem wit_PinEventsComplete :
    (∃ (s : State), s.mer.anchorDue = true)
    ∧ (∃ (ns : BitVec 10) (s : State), let u := atNs ns s
    fv u 11 4 0 0 1 = 1 ∧ synced u = true ∧ taiNs u % 1000000000 = 0)
    ∧ (∃ (ns : BitVec 10) (s : State), let u := atNs ns s
    u.mer.ppsOut = true ∧ fv u 11 4 0 1 20 * 1000 ≤ monoNs u - u.mer.ppsRise)
    ∧ (∃ (ch : Fin 2) (rising : Bool) (ns : BitVec 10) (s : State), (fv (atNs ns s) 11 6 0 (2 * Fin.val ch) 2).testBit (if rising then 0 else 1) = true)
    ∧ (∃ (ns : BitVec 10) (addend : U64) (s : State), fv (atNs ns s) 11 5 0 0 2 ≠ 0)
    ∧ (∃ (s : State), ppsDiscipline s = true ∧ s.mer.sync = .locked ∧ 2000000000 ≤ monoNs s - s.mer.ppsLast)
    ∧ (∃ (slot : Fin 64) (ns : BitVec 10) (s : State) (ws : _) (t : _), let u := atNs ns s
    let n := Fin.val slot
    let late := fixSub (fixN u) ((slotOf u n).target.toNat / 1024)
    let e := perfEvent 0x0B01 5 0 n (kindNumber (slotOf u n).kind) 1 u
    (slotOf u n).armed = true ∧ late < 2 ^ 21 ∧ (slotOf u n).kind ≠ .minute ∧ timedVerdict n e = ((.accepted, ws), t))
    ∧ (∃ (slot : Fin 64) (ns : BitVec 10) (s : State) (k : _) (ws : _) (t : _), let u := atNs ns s
    let n := Fin.val slot
    let late := fixSub (fixN u) ((slotOf u n).target.toNat / 1024)
    let e := perfEvent 0x0B01 5 0 n (kindNumber (slotOf u n).kind) 1 u
    (slotOf u n).armed = true ∧ late < 2 ^ 21 ∧ (slotOf u n).kind ≠ .minute ∧ timedVerdict n e = ((.superseded k, ws), t))
    ∧ (∃ (s : State), s.ctl.ready = true ∧ minuteInHand s = false) :=
  ⟨⟨{ rdy with mer.anchorDue := true }, (by decide +kernel)⟩,
   ⟨5, { rdy with ctl.cfg := [(oid 11 4 0, 1)], mer.sync := .locked, clock.tai := 999999995 }, (by decide +kernel), (by decide +kernel), (by decide +kernel)⟩,
   ⟨5, { rdy with ctl.cfg := [(oid 11 4 0, 3)], mer.ppsOut := true, clock.boundaries := 5 }, (by decide +kernel), (by decide +kernel)⟩,
   ⟨1, true, 5, { rdy with ctl.cfg := [(oid 11 6 0, 4)] }, (by decide +kernel)⟩,
   ⟨5, 1, syncIn .locked, (by decide +kernel)⟩,
   ⟨syncIn .locked, (by decide +kernel), (by decide +kernel), (by decide +kernel)⟩,
   ⟨5, 8, armed5 .accepted, _, _, (by decide +kernel), (by decide +kernel), (by decide +kernel), verdIs (by decide +kernel)⟩,
   ⟨5, 8, armed5 (.superseded 3), 3, _, _, (by decide +kernel), (by decide +kernel), (by decide +kernel), verdIs (by decide +kernel)⟩,
   ⟨rdy, (by decide +kernel), (by decide +kernel)⟩⟩

/-- The hypotheses of FaultEventsComplete are met. -/
theorem wit_FaultEventsComplete :
    (∃ (s : State) (w : _) (rest : _), s.boot.sysRst = true ∧ s.lod.wire = w :: rest)
    ∧ (∃ (m : FaultMsg) (s : State) (c : _), s.boot.sysRst = true ∧ kindClass (FaultMsg.source m).toNat m.kind.toNat = some c)
    ∧ (∃ (tenant : BitVec 24) (s : State) (d : _), kfind s.lod.drains (BitVec.toNat tenant) = some d ∧ 1048576 ≤ fixSub (fixN s) d.fix.toNat) :=
  ⟨⟨{ rdy with lod.wire := [fmsg] }, fmsg, [], (by decide +kernel), (by decide +kernel)⟩,
   ⟨fmsg, rdy, _, (by decide +kernel), someIs (by decide +kernel)⟩,
   ⟨5, { rdy with lod.drains := [(5, { drainReset with mask := 1, fix := 0 })], clock.fix := 1048576 }, { drainReset with mask := 1, fix := 0 }, (by decide +kernel), (by decide +kernel)⟩⟩

/-- The hypotheses of PowerEventsComplete are met. -/
theorem wit_PowerEventsComplete :
    (∃ (s : State) (t : _),
      s.pwr.transit = some t ∧ t.entry = true)
    ∧ (∃ (s : State) (t : _),
      s.pwr.transit = some t ∧ t.entry = false ∧ exitOver s t = true)
    ∧ (∃ (d : Fin 64) (s : State),
      s.pwr.st = .basking ∧ s.pwr.on.getLsbD (Fin.val d) = true)
    ∧ (∃ (pc : Fin 192) (s : State),
      s.pwr.st = .cocoon ∧ ((pcOf s (Fin.val pc)).mode = .ready ∨ (pcOf s pc.val).mode = .powerDown) ∧ pcIdle (pcOf s pc.val) = true) :=
  ⟨⟨changing true, _, someIs (by decide +kernel), (by decide +kernel)⟩,
   ⟨{ changing false with clock.boundaries := 2 ^ 40 }, _, someIs (by decide +kernel), (by decide +kernel), (by decide +kernel)⟩,
   ⟨5, { rdy with pwr.st := .basking, pwr.on := 32 }, (by decide +kernel), (by decide +kernel)⟩,
   ⟨5, { rdy with pwr.st := .cocoon }, (by decide +kernel), Or.inl (by decide +kernel), (by decide +kernel)⟩⟩

/-- The hypotheses of StartupEventsComplete are met. -/
theorem wit_StartupEventsComplete :
    (∃ (s : State), s.boot.aonUp = false)
    ∧ (∃ (s : State), s.boot.sysRst = true)
    ∧ (∃ (src : BitVec 2) (ftest : Bool) (pp : Bool) (s : State), s.boot.aonUp = true ∧ s.boot.sysRst = false)
    ∧ (∃ (s : State), starting 0 s = true ∧ s.lod.grave = false ∧ s.boot.bootSrc = 1)
    ∧ (∃ (s : State), starting 0 s = true ∧ s.lod.grave = false ∧ s.boot.bootSrc ≠ 1 ∧ s.boot.bootSrc ≠ 3)
    ∧ (∃ (s : State) (w : BitVec 12) (k : Bool) (r : Option (BitVec 4)), starting 0 s = true)
    ∧ (∃ (s : State), s.boot.sysRst = true ∧ s.boot.stage = 1 ∧ 4096 ≤ s.boot.bootLen.toNat ∧ s.boot.bootLen.toNat ≤ 8388608)
    ∧ (∃ (a : Option Bytes) (b : Option Bytes) (u : _) (t : _) (s : State), starting 2 s = true ∧ s.boot.cand = none ∧ s.boot.source ≠ 2 ∧ takeHeader 0 a s = (none, u) ∧
    takeHeader 1 b u = (none, t))
    ∧ (∃ (b : Bytes) (s : State) (src : _) (h : _), starting 2 s = true ∧ s.boot.cand = some (src, h))
    ∧ (∃ (s : State) (src : _) (h : _), starting 2 s = true ∧ s.boot.cand = some (src, h))
    ∧ (∃ (s : State), starting 4 s = true)
    ∧ (∃ (s : State), starting 5 s = true)
    ∧ (∃ (d : Fin 192) (ds : List (Fin 192)) (s : State), starting 5 s = true)
    ∧ (∃ (s : State), starting 6 s = true ∧ s.skip.clusters.all (fun e => e.2.testing.isEmpty) = true) :=
  ⟨⟨{ rdy with boot.aonUp := false }, (by decide +kernel)⟩,
   ⟨rdy, (by decide +kernel)⟩,
   ⟨2, true, true, { rdy with boot.aonUp := true, boot.sysRst := false }, (by decide +kernel), (by decide +kernel)⟩,
   ⟨{ bootAt 0 with boot.bootSrc := 1 }, (by decide +kernel), (by decide +kernel), (by decide +kernel)⟩,
   ⟨{ bootAt 0 with boot.bootSrc := 2 }, (by decide +kernel), (by decide +kernel), (by decide +kernel), (by decide +kernel)⟩,
   ⟨bootAt 0, 5, true, none, (by decide +kernel)⟩,
   ⟨{ bootAt 1 with boot.bootLen := 8388608 }, (by decide +kernel), (by decide +kernel), (by decide +kernel), (by decide +kernel)⟩,
   ⟨none, none, _, _, { bootAt 2 with boot.source := 0 }, (by decide +kernel), (by decide +kernel), (by decide +kernel), pairNone (by decide +kernel), pairNone (by decide +kernel)⟩,
   ⟨[], { bootAt 2 with boot.cand := some (1, header0) }, 1, header0, (by decide +kernel), (by decide +kernel)⟩,
   ⟨{ bootAt 2 with boot.cand := some (1, header0) }, 1, header0, (by decide +kernel), (by decide +kernel)⟩,
   ⟨bootAt 4, (by decide +kernel)⟩,
   ⟨bootAt 5, (by decide +kernel)⟩,
   ⟨3, [], bootAt 5, (by decide +kernel)⟩,
   ⟨bootAt 6, (by decide +kernel), (by decide +kernel)⟩⟩

/-- The hypotheses of ClockAndJtagEventsComplete are met. -/
theorem wit_ClockAndJtagEventsComplete :
    (∃ (s : State), s.boot.stage = 8 ∧ s.boot.reason = 0x12)
    ∧ (∃ (s : State), ¬(s.boot.stage = 8 ∧ s.boot.reason = 0x12)) :=
  ⟨⟨{ bootAt 8 with boot.reason := 0x12 }, (by decide +kernel), (by decide +kernel)⟩,
   ⟨rdy, (by decide +kernel)⟩⟩

/-- The hypotheses of PipelineEventsComplete are met. -/
theorem wit_PipelineEventsComplete :
    (∃ (h : Nat) (bad : Option (Fin 12)) (lane : Bool) (s : State) (k : _),
      pktOf s h = some k ∧ k.stage = .ingress ∧ k.counted = false ∧ (isWhole k = true ∨ 2048 ≤ k.rx.length) ∧
      ((k.tail = .open ∨ k.tail = .good) → toBinnacle s k.port k.rx = false) ∧ (pipeState s (pipeOf k.port)).hold6 = none ∧
      fv s 15 0x20 (pipeOf k.port) 0 1 = 0)
    ∧ (∃ (pipe : Fin 4) (bad : Option (Fin 12)) (lane : Bool) (s : State) (h : _) (rest : _) (k : _),
      (pipeState s (Fin.val pipe)).recirc = h :: rest ∧ pktOf s h = some k ∧ k.stage = .recirc ∧ (pipeState s pipe.val).hold6 = none)
    ∧ (∃ (pk : Nat) (bad : Option (Fin 12)) (s : State) (k : _),
      pktOf s pk = some k ∧ k.stage = .answered ∧ k.wasHeld = false)
    ∧ (∃ (pk : Nat) (bad : Option (Fin 12)) (s : State) (k : _),
      pktOf s pk = some k ∧ k.stage = .answered ∧ k.wasHeld = true ∧ (pipeState s (pipeOf k.port)).recirc.head? = some pk ∧
      (pipeState s (pipeOf k.port)).hold6 = none)
    ∧ (∃ (h : Nat) (ns : BitVec 10) (s : State) (k : _),
      pktOf (atNs ns s) h = some k ∧ k.stage = .stage12 ∧
      let u := monPoint h 4 k (atNs ns s)
      pget k bRECIRC = 1 ∧ pget k bDROP = 0 ∧ pget k bPASS + 1 < fv (passView k u) 2 1 (pipeOf k.port) 0 3)
    ∧ (∃ (h : Nat) (ns : BitVec 10) (s : State) (k : _),
      pktOf (atNs ns s) h = some k ∧ k.stage = .stage12 ∧
      let u := monPoint h 4 k (atNs ns s)
      let loops := pget k bRECIRC = 1 ∧ pget k bDROP = 0
      (loops → fv (passView k u) 2 1 (pipeOf k.port) 0 3 ≤ pget k bPASS + 1))
    ∧ (∃ (s : State) (w : _),
      s.cls.swap = some w ∧ w.count ≠ 0 ∧ w.count % 65536 = 0) :=
  ⟨⟨3, none, false, withPkt pkt0 rdy, pkt0, (by decide +kernel), (by decide +kernel), (by decide +kernel), Or.inl (by decide +kernel), fun _ => by decide +kernel, (by decide +kernel), (by decide +kernel)⟩,
   ⟨0, none, false, inPipe (fun p => { p with recirc := [3] }) (held .recirc false), 3, [], held .recirc false, (by decide +kernel), (by decide +kernel), (by decide +kernel), (by decide +kernel)⟩,
   ⟨3, none, withPkt (held .answered false) rdy, held .answered false, (by decide +kernel), (by decide +kernel), (by decide +kernel)⟩,
   ⟨3, none, inPipe (fun p => { p with recirc := [3] }) (held .answered true), held .answered true, (by decide +kernel), (by decide +kernel), (by decide +kernel), (by decide +kernel), (by decide +kernel)⟩,
   ⟨3, 5, withPkt ({ held .stage12 false with bus := 1 <<< 252, passCfg := [(oid 2 1 0, 4)] }) rdy, { held .stage12 false with bus := 1 <<< 252, passCfg := [(oid 2 1 0, 4)] }, (by decide +kernel), (by decide +kernel), (by decide +kernel), (by decide +kernel), (by decide +kernel)⟩,
   ⟨3, 5, withPkt (held .stage12 true) rdy, held .stage12 true, (by decide +kernel), (by decide +kernel), fun h => absurd h.1 (by decide +kernel)⟩,
   ⟨{ rdy with cls.swap := some { fix := 0, count := 65536, p := pk 0 [] } }, _, someIs (by decide +kernel), (by decide +kernel), (by decide +kernel)⟩⟩

/-- The hypotheses of FlowEventsComplete are met. -/
theorem wit_FlowEventsComplete :
    (∃ (pk : Nat) (lane : Bool) (s : State) (sl : _) (pipe : _) (k : _) (l : _),
      lookupServed s pk = some (sl, pipe) ∧ pktOf s pk = some k ∧ lookupLevel k = some l ∧ sliceAccepts s sl = true ∧
      let key := pktKey k l
      s.flow.guards.any (fun g => g.key == key) = true ∧ waitingOf s (pipeOf k.port) < 4096)
    ∧ (∃ (pk : Nat) (lane : Bool) (s : State) (sl : _) (pipe : _) (k : _) (l : _) (h : _) (r : _),
      lookupServed s pk = some (sl, pipe) ∧ pktOf s pk = some k ∧ lookupLevel k = some l ∧ sliceAccepts s sl = true ∧
      let key := pktKey k l
      s.flow.guards.any (fun g => g.key == key) = false ∧
      let t := touchWords sl key (flowCount sl 0 1 s)
      t.1 = false ∧
      findKey key (stashRecs t.2 sl ++ (setRecs t.2 sl (keySet t.2 key)).map (fun e => (e.1, e.2.bytes))) = some (h, r))
    ∧ (∃ (pk : Nat) (lane : Bool) (s : State) (sl : _) (pipe : _) (k : _) (l : _),
      lookupServed s pk = some (sl, pipe) ∧ pktOf s pk = some k ∧ lookupLevel k = some l ∧ sliceAccepts s sl = true ∧
      let key := pktKey k l
      s.flow.guards.any (fun g => g.key == key) = false ∧ waitingOf s (pipeOf k.port) < 4096 ∧
      let t := touchWords sl key (flowCount sl 0 1 s)
      t.1 = false ∧ findKey key (stashRecs t.2 sl ++ (setRecs t.2 sl (keySet t.2 key)).map (fun e => (e.1, e.2.bytes))) = none)
    ∧ (∃ (pk : Nat) (bad : BitVec 2) (lane : Bool) (s : State) (g : _) (faulted : _),
      s.flow.guards.find? (fun g => g.pkts.head? == some pk) = some g ∧ g.back = some faulted)
    ∧ (∃ (sl : Fin 4) (s : State),
      (sliceOf s (Fin.val sl)).cleanList.dropWhile
        (fun set => decide (fv s 3 6 sl.val 0 4 ≤ cleanWays s sl.val set)) = [])
    ∧ (∃ (sl : Fin 4) (s : State) (set : _) (rest : _) (h : _),
      (sliceOf s (Fin.val sl)).cleanList.dropWhile
        (fun set => decide (fv s 3 6 sl.val 0 4 ≤ cleanWays s sl.val set)) = set :: rest ∧
      let u := modSlice sl.val (fun k => { k with cleanList := set :: rest }) s
      (kget [] s.hbm.stalled sl.val).isEmpty = true ∧ cleanPick u sl.val set = some h)
    ∧ (∃ (sl : Fin 4) (s : State),
      (sliceOf s (Fin.val sl)).move = none ∧ (sliceOf s sl.val).moverUsed = false ∧ asleep s = false ∧ domainOn s (8 + sl.val) = true)
    ∧ (∃ (sl : Fin 4) (s : State),
      s.ctl.ready = true ∧ asleep s = false ∧ domainOn s (8 + Fin.val sl) = true)
    ∧ (∃ (sl : Fin 4) (s : State) (p : _) (up : _) (rest : _),
      (sliceOf s (Fin.val sl)).exq = (p, up) :: rest)
    ∧ (∃ (bucket : BitVec 28) (cycles : U32) (s : State) (w : _) (o : _),
      let b := BitVec.toNat bucket
      let sl := bucketSlice s b
      (sliceOf s sl).waits.find? (fun w => w.bucket == b) = some w ∧ lockHolder s b = none ∧
      (sliceOf s sl).locks.length < 4096 ∧
      let u := perfEvent 0x0302 5 w.engine b 0 (BitVec.toNat cycles)
        (wake w.engine (modSlice sl (fun k => { k with waits := k.waits.filter (fun x => x != w) }) s))
      (tagOf (engOf u w.engine) w.tag).op = some o)
    ∧ (∃ (eng : Fin 512) (tag : Fin 8) (cycles : U32) (s : State) (w : _),
      let id := Fin.val eng
      s.flow.slices.findSome? (fun k => k.waits.find? (fun w => w.engine == id && w.tag == Fin.val tag && decide (16 ≤ w.age)))
        = some w) :=
  ⟨⟨3, false, fifoL waitState, _, _, pktL, lvl0, somePair (by decide +kernel), (by decide +kernel), (by decide +kernel), (by decide +kernel), (by decide +kernel), (by decide +kernel)⟩,
   ⟨3, false, fifoL flowL, _, _, pktL, lvl0, _, _, somePair (by decide +kernel), (by decide +kernel), (by decide +kernel), (by decide +kernel), (by decide +kernel), (by decide +kernel), somePair (by decide +kernel)⟩,
   ⟨3, false, fifoL (withPkt pktL (powered flow0)), _, _, pktL, lvl0, somePair (by decide +kernel), (by decide +kernel), (by decide +kernel), (by decide +kernel), (by decide +kernel), (by decide +kernel), (by decide +kernel), (by decide +kernel)⟩,
   ⟨3, 0, false, { waitState with flow.guards := [{ slice := 0, key := pktKey pktL lvl0, bucket := 5, pkts := [3], back := some false }] }, _, false, someIs (by decide +kernel), (by decide +kernel)⟩,
   ⟨0, slice0 (fun k => { k with cleanList := [5] }) rdy, (by decide +kernel)⟩,
   ⟨0, dirtySet, 5, [], _, (by decide +kernel), (by decide +kernel), someIs (by decide +kernel)⟩,
   ⟨2, powered rdy, (by decide +kernel), (by decide +kernel), (by decide +kernel), (by decide +kernel)⟩,
   ⟨0, powered rdy, (by decide +kernel), (by decide +kernel), (by decide +kernel)⟩,
   ⟨0, slice0 (fun k => { k with exq := [(7, true)] }) rdy, 7, true, [], (by decide +kernel)⟩,
   ⟨5, 8, lockWait 0, { bucket := 5, engine := 9, tag := 0, age := 0 }, _, (by decide +kernel), (by decide +kernel), (by decide +kernel), someIs (by decide +kernel)⟩,
   ⟨9, 0, 8, lockWait 16, _, someIs (by decide +kernel)⟩⟩

/-- The hypotheses of FrameEventsComplete are met. -/
theorem wit_FrameEventsComplete :
    (∃ (port : Fin 128) (t16 : BitVec 14) (frame : Bytes) (s : State),
      let u := at16 t16 s
      let p := Fin.val port
      isPort u p = true ∧ (portOf u p).st = .up ∧ kfind u.sw.rx p = none ∧ u.sw.rxSkip.contains p = false ∧
      domainOn u (56 + p / 32) = true ∧ ptpHeader frame = none ∧
      let v := { u with pwr.rxAge := 0 }
      asleep v = false ∧ domainOn v (pipeOf p) = true ∧ domainOn v (44 + pipeOf p) = true ∧
      (pipeState v (pipeOf p)).staging < 8192)
    ∧ (∃ (port : Fin 128) (t16 : BitVec 14) (frame : Bytes) (s : State),
      let u := at16 t16 s
      let p := Fin.val port
      isPort u p = true ∧ (portOf u p).st = .up ∧ kfind u.sw.rx p = none ∧ u.sw.rxSkip.contains p = false ∧
      domainOn u (56 + p / 32) = true ∧ ptpHeader frame = none ∧
      let v := { u with pwr.rxAge := 0 }
      asleep v = false)
    ∧ (∃ (port : Fin 128) (s : State) (h : _) (k : _),
      kfind s.sw.rx (Fin.val port) = some h ∧ pktOf s h = some k ∧ k.coming ≠ [])
    ∧ (∃ (port : Fin 128) (pcs : PcsReport) (s : State) (h : _) (k : _),
      kfind s.sw.rx (Fin.val port) = some h ∧ pktOf s h = some k ∧ k.coming = [])
    ∧ (∃ (port : Fin 128) (t16 : BitVec 14) (hb : Bool) (s : State) (q : _) (tier : _) (u : _) (c : _) (cs : _),
      let v := at16 t16 s
      isPort v (Fin.val port) = true ∧ portLive v port.val = true ∧ kfind v.sw.tx port.val = none ∧ domainOn v 48 = true ∧
      domainOn v (44 + port.val / 32) = true ∧ takeOrigin port.val (purgePort port.val v).ctl.origin = none ∧
      selectQueue port.val (purgePort port.val v) = (some (q, tier), u) ∧ (queueOf u q).copies = c :: cs)
    ∧ (∃ (port : Fin 128) (t16 : BitVec 14) (hb : Bool) (s : State) (f : _) (rest : _),
      let v := at16 t16 s
      let w := purgePort (Fin.val port) v
      isPort v port.val = true ∧ portLive v port.val = true ∧ kfind v.sw.tx port.val = none ∧ domainOn v 48 = true ∧
      domainOn v (44 + port.val / 32) = true ∧ takeOrigin port.val w.ctl.origin = some (f, rest) ∧
      queuePaused w port.val (4 * port.val + 3) = false ∧ 0 < peakTokens w (4 * port.val + 3) ∧
      let u := { w with ctl.origin := rest }
      (portOf u port.val).st ≠ .downPend)
    ∧ (∃ (port : Fin 128) (cell : BitVec 19) (s : State) (t : _) (k : _),
      kfind s.sw.tx (Fin.val port) = some t ∧ pktOf s t.copy.pkt = some k ∧ t.lost = false ∧ t.cut = none ∧
      portSafe s port.val = false ∧ 256 * t.sent < k.tx.length ∧ (k.coming = [] ∨ 256 * t.sent + 256 ≤ k.tx.length))
    ∧ (∃ (port : Fin 128) (cell : BitVec 19) (s : State) (t : _) (k : _),
      kfind s.sw.tx (Fin.val port) = some t ∧ pktOf s t.copy.pkt = some k ∧ t.lost = false ∧ t.cut = none ∧
      portSafe s port.val = false)
    ∧ (∃ (port : Fin 128) (ns : BitVec 10) (s : State) (t : _) (k : _),
      let u := atNs ns s
      kfind u.sw.tx (Fin.val port) = some t ∧ pktOf u t.copy.pkt = some k ∧ t.lost = true)
    ∧ (∃ (port : Fin 128) (ns : BitVec 10) (s : State) (t : _) (k : _),
      let u := atNs ns s
      kfind u.sw.tx (Fin.val port) = some t ∧ pktOf u t.copy.pkt = some k ∧ t.lost = false ∧ txComplete k t = true ∧
      (txEnd k t).2.1 = false ∧ (txEnd k t).2.2 = false) :=
  ⟨⟨0, 80, zerosB 64, portUp, (by decide +kernel), (by decide +kernel), (by decide +kernel), (by decide +kernel), (by decide +kernel), (by decide +kernel), (by decide +kernel), (by decide +kernel), (by decide +kernel), (by decide +kernel)⟩,
   ⟨0, 80, zerosB 64, portUp, (by decide +kernel), (by decide +kernel), (by decide +kernel), (by decide +kernel), (by decide +kernel), (by decide +kernel), (by decide +kernel)⟩,
   ⟨0, { withPkt { pkt0 with coming := [1] } rdy with sw.rx := [(0, 3)] }, 3, { pkt0 with coming := [1] }, (by decide +kernel), (by decide +kernel), (by decide +kernel)⟩,
   ⟨0, { corrected := 0, uncorrectable := 0, symbols := 0 }, { withPkt pkt0 rdy with sw.rx := [(0, 3)] }, 3, pkt0, (by decide +kernel), (by decide +kernel), (by decide +kernel)⟩,
   ⟨0, 80, false, queued, 3, 1, _, copy0, [], (by decide +kernel), (by decide +kernel), (by decide +kernel), (by decide +kernel), (by decide +kernel), (by decide +kernel), Prod.ext (by decide +kernel) rfl, (by decide +kernel)⟩,
   ⟨0, 80, false, { portUp with ctl.origin := [(0, zerosB 60)] }, zerosB 60, [], (by decide +kernel), (by decide +kernel), (by decide +kernel), (by decide +kernel), (by decide +kernel), (by decide +kernel), (by decide +kernel), (by decide +kernel), (by decide +kernel)⟩,
   ⟨0, 5, sending false, tx0 false, pkt0, (by decide +kernel), (by decide +kernel), (by decide +kernel), (by decide +kernel), (by decide +kernel), (by decide +kernel), Or.inl (by decide +kernel)⟩,
   ⟨0, 5, sending false, tx0 false, pkt0, (by decide +kernel), (by decide +kernel), (by decide +kernel), (by decide +kernel), (by decide +kernel)⟩,
   ⟨0, 5, sending true, tx0 true, pkt0, (by decide +kernel), (by decide +kernel), (by decide +kernel)⟩,
   ⟨0, 5, { withPkt pkt0 portUp with sw.tx := [(0, { tx0 false with sent := 2 })] }, { tx0 false with sent := 2 }, pkt0, (by decide +kernel), (by decide +kernel), (by decide +kernel), (by decide +kernel), (by decide +kernel), (by decide +kernel)⟩⟩

/-- The hypotheses of SwitchEventsComplete are met. -/
theorem wit_SwitchEventsComplete :
    (∃ (pipe : Fin 4) (s : State) (h : _) (rest : _) (k : _),
      (pipeState s (Fin.val pipe)).replicator = h :: rest ∧ pktOf s h = some k ∧
      let u := modPipe pipe.val (fun p => { p with replicator := rest }) s
      let k' := { k with stage := PktStage.admitted, members := [] }
      let r := k.members.foldl (fun ns m => mcMember h k' (u.sw.shared - k.cells) m ns) (0, 0, putPkt h k' u)
      r.1 = 0)
    ∧ (∃ (pipe : Fin 4) (s : State) (h : _) (rest : _) (k : _) (w : _),
      (pipeState s (Fin.val pipe)).replicator = h :: rest ∧ pktOf s h = some k ∧
      let u := modPipe pipe.val (fun p => { p with replicator := rest }) s
      let k' := { k with stage := PktStage.admitted, members := [] }
      let r := k.members.foldl (fun ns m => mcMember h k' (u.sw.shared - k.cells) m ns) (0, 0, putPkt h k' u)
      let v := { r.2.2 with sw.cycle := 0 }
      0 < r.1 ∧ pktOf v h = some w)
    ∧ (∃ (port : Fin 128) (s : State),
      let vec := vecOf (fun t => (prioOf s (Fin.val port * 8 + t)).due && (pauseMask s port.val).testBit t)
      (portOf s port.val).st = .up ∧ vec ≠ 0 ∧ isPort s port.val = true)
    ∧ (∃ (port : Fin 128) (s : State),
      let vec := vecOf (fun t => (prioOf s (Fin.val port * 8 + t)).xoff && (pauseMask s port.val).testBit t)
      (portOf s port.val).st = .up ∧ vec ≠ 0 ∧ fv s 6 8 port.val 16 16 ≤ kget 0 s.sw.pauseAge port.val)
    ∧ (∃ (port : Fin 128) (cells : BitVec 13) (s : State),
      portFlushing s (Fin.val port) = true)
    ∧ (∃ (port : Fin 128) (s : State) (age : _),
      kfind s.sw.flush (Fin.val port) = some age ∧ 64 ≤ age ∧ age < 2 ^ 32)
    ∧ (∃ (s : State),
      domainOn s 63 = true)
    ∧ (∃ (s : State),
      domainOn s 63 = true) :=
  ⟨⟨0, mcState true rdy, 3, [], mcPkt true, (by decide +kernel), (by decide +kernel), (by decide +kernel)⟩,
   ⟨0, mcState false portUp, 3, [], mcPkt false, _, (by decide +kernel), (by decide +kernel), (by decide +kernel), someIs (by decide +kernel)⟩,
   ⟨0, pauseDue, (by decide +kernel), (by decide +kernel), (by decide +kernel)⟩,
   ⟨0, pauseDue, (by decide +kernel), (by decide +kernel), (by decide +kernel)⟩,
   ⟨0, 5, { rdy with sw.flush := [(0, 64)] }, (by decide +kernel)⟩,
   ⟨0, { rdy with sw.flush := [(0, 64)] }, 64, (by decide +kernel), (by decide +kernel), (by decide +kernel)⟩,
   ⟨rdy, (by decide +kernel)⟩,
   ⟨rdy, (by decide +kernel)⟩⟩

/-- The hypotheses of PoolEventsComplete are met. -/
theorem wit_PoolEventsComplete :
    (∃ (eng : Fin 512) (tag : Fin 8) (pool : Fin 8) (owner : BitVec 12) (s : State), let id := Fin.val eng
    (engOf s id).st = .running ∧ tagFree (engOf s id) (Fin.val tag) = true ∧ Fin.val pool ≠ 7 ∧
    (BitVec.toNat owner = id ∨ 0x200 ≤ owner.toNat ∧ owner.toNat ≤ 0x203 ∨ owner.toNat = 0x250))
    ∧ (∃ (eng : Fin 512) (tag : Fin 8) (ref : U32) (s : State), let id := Fin.val eng
    (engOf s id).st = .running ∧ tagFree (engOf s id) (Fin.val tag) = true) :=
  ⟨⟨5, 0, 3, 5, run5, (by decide +kernel), (by decide +kernel), (by decide +kernel), (by decide +kernel)⟩,
   ⟨5, 0, 9, run5, (by decide +kernel), (by decide +kernel)⟩⟩

/-- The hypotheses of HbmEventsComplete are met. -/
theorem wit_HbmEventsComplete :
    (∃ (port : Fin 43) (req : HbmReq) (s : State),
      let k := pcStack (reqPlace s req).pc
      (kget [] (stackOf s k).queues (Fin.val port)).length < 128 ∧ kget [] s.hbm.stalled port.val = [] ∧
      s.hbm.masked.contains (BitVec.toNat req.id) = false)
    ∧ (∃ (stack : Fin 6) (s : State),
      let k := Fin.val stack
      domainOn s (50 + k) = true)
    ∧ (∃ (pc : Fin 192) (ready : List (Fin 16)) (s : State) (w : _),
      let p := Fin.val pc
      let c := pcOf s p
      let isReady := fun b => List.any ready (fun r : Fin 16 => r.val == b)
      c.mode = .ready ∧
      c.writes.find? (writeReady s p ready) = some w ∧
        (c.drain = true ∨ c.aged = true
        ∨ ∀ b ∈ List.range 16, isReady ((c.lastBank + 1 + b) % 16) = true →
            bankCanIssue s (pcStack p) (pairedShut s p) (bankOfPc c ((c.lastBank + 1 + b) % 16)) = false))
    ∧ (∃ (pc : Fin 192) (ready : List (Fin 16)) (s : State) (b : _) (e : _),
      let p := Fin.val pc
      let c := pcOf s p
      let isReady := fun b => List.any ready (fun r : Fin 16 => r.val == b)
      let u := modPc p (fun c => { c with lastBank := b }) s
      c.mode = .ready ∧ c.writes = [] ∧ ((List.range 16).map (fun i => (c.lastBank + 1 + i) % 16)).find?
        (fun b => isReady b && bankCanIssue s (pcStack p) (pairedShut s p) (bankOfPc c b)) = some b ∧
        refreshDueNow (bankOfPc c b) = false ∧ bankPick u (pcStack p) (pairedShut u p) (bankOfPc c b) = some e)
    ∧ (∃ (pc : Fin 192) (s : State) (f : _) (rest : _),
      (pcOf s (Fin.val pc)).flight = f :: rest)
    ∧ (∃ (pc : Fin 192) (bank : Fin 16) (s : State),
      let k := bankOfPc (pcOf s (Fin.val pc)) (Fin.val bank)
      k.hold ≠ [])
    ∧ (∃ (pc : Fin 192) (bank : Fin 16) (s : State),
      let k := bankOfPc (pcOf s (Fin.val pc)) (Fin.val bank)
      k.hold ≠ [] ∧ (pcOf s pc.val).mode ≠ .selfRefresh)
    ∧ (∃ (pc : Fin 192) (bank : Fin 16) (s : State),
      let k := bankOfPc (pcOf s (Fin.val pc)) (Fin.val bank)
      k.hold = [] ∧ k.forced = false ∧ k.queue = [] ∧ (pcOf s pc.val).mode = .ready)
    ∧ (∃ (pc : Fin 192) (s : State),
      (pcOf s (Fin.val pc)).mode = .ready ∧ pcIdle (pcOf s pc.val) = true ∧ fv s 9 4 (pcStack pc.val) 0 12 ≠ 0)
    ∧ (∃ (pc : Fin 192) (line : BitVec 23) (s : State),
      fv s 9 6 (pcStack (Fin.val pc)) 0 8 ≠ 0 ∧ (pcOf s pc.val).mode ≠ .dead) :=
  ⟨⟨5, req0 .read, rdy, (by decide +kernel), (by decide +kernel), (by decide +kernel)⟩,
   ⟨2, rdy, (by decide +kernel)⟩,
   ⟨Fin.ofNat 192 writePc, [0, 1, 2, 3, 4, 5, 6, 7, 8, 9, 10, 11, 12, 13, 14, 15], writing, write0, (by decide +kernel), (by decide +kernel), Or.inl (by decide +kernel)⟩,
   ⟨0, [3], bankQueue, 3, { port := 0, req := req0 .read, seq := 0 }, (by decide +kernel), (by decide +kernel), (by decide +kernel), (by decide +kernel), (by decide +kernel)⟩,
   ⟨0, withPc (fun c => { c with flight := [flight0] }) rdy, flight0, [], (by decide +kernel)⟩,
   ⟨0, 3, bankHold [7], (by decide +kernel)⟩,
   ⟨0, 3, bankHold [7], (by decide +kernel), (by decide +kernel)⟩,
   ⟨0, 3, rdy, (by decide +kernel), (by decide +kernel), (by decide +kernel), (by decide +kernel)⟩,
   ⟨0, { rdy with ctl.cfg := [(oid 9 4 0, 5)] }, (by decide +kernel), (by decide +kernel), (by decide +kernel)⟩,
   ⟨0, 7, { rdy with ctl.cfg := [(oid 9 6 0, 1)] }, (by decide +kernel), (by decide +kernel)⟩⟩

/-- The hypotheses of MeteringEventsComplete are met. -/
theorem wit_MeteringEventsComplete :
    (∃ (s : State) (c : _),
      s.met.closing = some c ∧ 2 ≤ c.age)
    ∧ (∃ (s : State) (m : _) (head : _) (b : _),
      nextHash s = some (m, head) ∧ stagedBlock (setHead m head s) m = some b)
    ∧ (∃ (s : State) (b : _) (head : _),
      s.met.staged.find? (fun b => b.head.isSome && !b.ckpt) = some b ∧ b.head = some head)
    ∧ (∃ (s : State) (b : _),
      s.met.staged.find? (fun b => !b.ckpt && !b.late && decide (97657 ≤ b.age)) = some b)
    ∧ (∃ (s : State) (b : _),
      domainOn s 62 = true ∧ s.met.staged.find? (fun b => b.delivery == .pending || b.delivery == .inProgress) = some b) :=
  ⟨⟨{ rdy with met.closing := some closing0 }, closing0, (by decide +kernel), (by decide +kernel)⟩,
   ⟨blocks (block2 none 3), _, _, _, somePair (by decide +kernel), someIs (by decide +kernel)⟩,
   ⟨blocks (block2 (some []) 3), block2 (some []) 3, [], (by decide +kernel), (by decide +kernel)⟩,
   ⟨blocks (block2 none 97657), _, someIs (by decide +kernel)⟩,
   ⟨blocks (block2 none 3), _, (by decide +kernel), someIs (by decide +kernel)⟩⟩

/-- The hypotheses of PairEventsComplete are met. -/
theorem wit_PairEventsComplete :
    (∃ (frame : Bytes) (s : State) (bufs : _) (u : _),
      s.pair.st ≠ .solo ∧ s.pair.st ≠ .down ∧ rhFrameOk frame = true ∧ rhType frame = 1 ∧
      let v := rhUse 2 2 (rxHeader frame s)
      let n := beAt frame 17 1
      pairUp (rxHeader frame s) = true ∧ beAt frame 4 4 = v.pair.rxSeq ∧ takeRx ((n + 1) / 2) [] v = (some bufs, u))
    ∧ (∃ (frame : Bytes) (s : State),
      s.pair.st ≠ .solo ∧ s.pair.st ≠ .down ∧ rhFrameOk frame = true ∧ rhType frame = 1 ∧
      let v := rhUse 2 2 (rxHeader frame s)
      pairUp (rxHeader frame s) = true ∧ beAt frame 4 4 ≠ v.pair.rxSeq)
    ∧ (∃ (frame : Bytes) (s : State),
      s.pair.st ≠ .solo ∧ s.pair.st ≠ .down ∧ rhFrameOk frame = true ∧ rhType frame = 2)
    ∧ (∃ (frame : Bytes) (beat : RhBeat) (s : State),
      s.pair.st = .resync ∧ rhFrameOk frame = true ∧ rhType frame = 3 ∧
      let v := rxHeader frame s
      v.pair.st = .resync ∧ beat.sweepDone = true)
    ∧ (∃ (frame : Bytes) (hello : RhHello) (s : State),
      s.pair.st = .hello ∧ rhFrameOk frame = true ∧ rhType frame = 4 ∧
      let v := rxHeader frame s
      v.pair.st = .hello ∧ hello.ok = true ∧ helloCause v (beAt frame 1 1) hello = 0)
    ∧ (∃ (frame : Bytes) (hello : RhHello) (s : State),
      s.pair.st = .hello ∧ rhFrameOk frame = true ∧ rhType frame = 4 ∧
      let v := rxHeader frame s
      v.pair.st = .hello ∧ helloCause v (beAt frame 1 1) hello ≠ 0)
    ∧ (∃ (frame : Bytes) (home : Fin 2) (epoch : U32) (s : State),
      s.pair.st ≠ .solo ∧ s.pair.st ≠ .down ∧ rhFrameOk frame = true ∧ rhType frame = 5)
    ∧ (∃ (frame : Bytes) (home : Fin 2) (epoch : U32) (status : Byte) (s : State),
      s.pair.st ≠ .solo ∧ s.pair.st ≠ .down ∧ rhFrameOk frame = true ∧ rhType frame = 6)
    ∧ (∃ (s : State),
      pairUp s = true ∧
      let u := rhUse 0 1 s
      let old := fitEvents 63 2016 u.pair.resend
      old ≠ [])
    ∧ (∃ (s : State),
      pairUp s = true ∧
      let u := rhUse 0 1 s
      fitEvents 63 2016 u.pair.resend = [])
    ∧ (∃ (s : State),
      (s.pair.ackDue = true ∨ s.pair.nakDue = true))
    ∧ (∃ (s : State),
      pairUp s = true ∧ s.pair.retx ≠ [])
    ∧ (∃ (s : State),
      pairUp s = true ∧ fv s 13 4 0 0 8 ≤ s.pair.quiet)
    ∧ (∃ (s : State),
      s.pair.st = .down ∧ s.boot.refclk.getLsbD 1 = true)
    ∧ (∃ (s : State),
      s.pair.st ≠ .hello ∧ s.pair.st ≠ .mismatch ∧ (s.pair.st = .down → s.pair.want = none))
    ∧ (∃ (s : State),
      (s.pair.st = .hello ∨ s.pair.st = .mismatch ∨ (s.pair.st = .down ∧ s.pair.want.isSome = true)))
    ∧ (∃ (s : State) (w : _),
      s.pair.sweep = some w ∧ s.pair.st = .resync ∧ w.ended = false ∧ w.last ≠ some s.clock.fix ∧ s.pair.txq.length ≤ 8192 ∧
      w.bucket < tableBuckets s) :=
  ⟨⟨rhFrame 1 0, paired, _, _, (by decide +kernel), (by decide +kernel), (by decide +kernel), (by decide +kernel), (by decide +kernel), (by decide +kernel), pairSome (by decide +kernel)⟩,
   ⟨rhFrame 1 0, { paired with pair.rxSeq := 5 }, (by decide +kernel), (by decide +kernel), (by decide +kernel), (by decide +kernel), (by decide +kernel), (by decide +kernel)⟩,
   ⟨rhFrame 2 0, paired, (by decide +kernel), (by decide +kernel), (by decide +kernel), (by decide +kernel)⟩,
   ⟨rhFrame 3 0, beat0, { rdy with pair.st := .resync }, (by decide +kernel), (by decide +kernel), (by decide +kernel), (by decide +kernel), (by decide +kernel)⟩,
   ⟨rhFrame 4 1, helloFor (rxHeader (rhFrame 4 1) helloSt), helloSt, (by decide +kernel), (by decide +kernel), (by decide +kernel), (by decide +kernel), rfl, hello_fits (by decide +kernel) (by decide +kernel) rfl rfl (by decide +kernel) (by decide +kernel) uid_differs⟩,
   ⟨rhFrame 4 2, helloFor rdy, helloSt, (by decide +kernel), (by decide +kernel), (by decide +kernel), (by decide +kernel), (by decide +kernel)⟩,
   ⟨rhFrame 5 0, 1, 3, paired, (by decide +kernel), (by decide +kernel), (by decide +kernel), (by decide +kernel)⟩,
   ⟨rhFrame 6 0, 1, 3, 0, paired, (by decide +kernel), (by decide +kernel), (by decide +kernel), (by decide +kernel)⟩,
   ⟨{ paired with pair.resend := [pairEv] }, (by decide +kernel), (by decide +kernel)⟩,
   ⟨paired, (by decide +kernel), (by decide +kernel)⟩,
   ⟨{ paired with pair.ackDue := true }, Or.inl (by decide +kernel)⟩,
   ⟨{ paired with pair.retx := [pairEv] }, (by decide +kernel), (by decide +kernel)⟩,
   ⟨{ paired with pair.quiet := 255 }, (by decide +kernel), (by decide +kernel)⟩,
   ⟨{ rdy with pair.st := .down, boot.refclk := 2 }, (by decide +kernel), (by decide +kernel)⟩,
   ⟨paired, (by decide +kernel), (by decide +kernel), fun h => absurd h (by decide +kernel)⟩,
   ⟨hello0, Or.inl (by decide +kernel)⟩,
   ⟨{ rdy with pair.st := .resync, pair.sweep := some sweep0 }, sweep0, (by decide +kernel), (by decide +kernel), (by decide +kernel), (by decide +kernel), (by decide +kernel), (by decide +kernel)⟩⟩

/-- The hypotheses of SkipperLockCommandsComplete are met. -/
theorem wit_SkipperLockCommandsComplete :
    (∃ (eng : Fin 512) (tag : Fin 8) (bucket : U32) (s : State),
      TagReady s eng tag ∧
      let id := Fin.val eng
      let b := BitVec.toNat bucket
      let u := lockUse b (noteIssue id 1 s)
      b < tableBuckets (noteIssue id 1 s) ∧ (engOf (noteIssue id 1 s) id).held.contains b = false ∧
      (dedupN (b :: lockWants (engOf (noteIssue id 1 s) id))).length ≤ 4 ∧
      ((engOf (noteIssue id 1 s) id).held = [] ∨ heldHigh (engOf (noteIssue id 1 s) id) ≤ b) ∧
      (engOf u id).held.contains b = false ∧ lockFree u b = true)
    ∧ (∃ (eng : Fin 512) (tag : Fin 8) (bucket : U32) (loc : BitVec 10) (s : State),
      TagReady s eng tag ∧
      let id := Fin.val eng
      let b := BitVec.toNat bucket
      let u := lockUse b (noteIssue id 2 s)
      b < tableBuckets (noteIssue id 2 s) ∧ (engOf (noteIssue id 2 s) id).held.contains b = false ∧
      (dedupN (b :: lockWants (engOf (noteIssue id 2 s) id))).length ≤ 4 ∧
      ((engOf (noteIssue id 2 s) id).held = [] ∨ heldHigh (engOf (noteIssue id 2 s) id) ≤ b) ∧
      (engOf u id).held.contains b = false ∧ lockFree u b = true ∧ BitVec.toNat loc + 128 ≤ 1024)
    ∧ (∃ (eng : Fin 512) (tag : Fin 8) (bucket : U32) (s : State),
      TagReady s eng tag ∧
      let id := Fin.val eng
      let b := BitVec.toNat bucket
      let u := lockUse b (noteIssue id 1 s)
      b < tableBuckets (noteIssue id 1 s) ∧ (engOf (noteIssue id 1 s) id).held.contains b = false ∧
      (dedupN (b :: lockWants (engOf (noteIssue id 1 s) id))).length ≤ 4 ∧
      ((engOf (noteIssue id 1 s) id).held = [] ∨ heldHigh (engOf (noteIssue id 1 s) id) ≤ b) ∧
      (engOf u id).held.contains b = false ∧ lockFree u b = false)
    ∧ (∃ (eng : Fin 512) (tag : Fin 8) (bucket : U32) (loc : BitVec 10) (s : State),
      TagReady s eng tag ∧
      1024 < BitVec.toNat loc + 128)
    ∧ (∃ (eng : Fin 512) (tag : Fin 8) (bucket : U32) (loc : BitVec 10) (s : State),
      TagReady s eng tag ∧
      let id := Fin.val eng
      let u := noteIssue id 2 s
      let b := BitVec.toNat bucket
      BitVec.toNat loc + 128 ≤ 1024 ∧ tableBuckets u ≤ b)
    ∧ (∃ (eng : Fin 512) (tag : Fin 8) (bucket : U32) (loc : BitVec 10) (s : State),
      TagReady s eng tag ∧
      let id := Fin.val eng
      let u := noteIssue id 2 s
      let b := BitVec.toNat bucket
      BitVec.toNat loc + 128 ≤ 1024 ∧ b < tableBuckets u ∧ (engOf u id).held.contains b = false ∧ (engOf u id).held ≠ [] ∧
      b < heldHigh (engOf u id))
    ∧ (∃ (eng : Fin 512) (tag : Fin 8) (bucket : U32) (s : State),
      TagReady s eng tag ∧
      let id := Fin.val eng
      let u := noteIssue id 1 s
      let b := BitVec.toNat bucket
      b < tableBuckets u ∧ (engOf u id).held.contains b = false ∧ heldHigh (engOf u id) ≤ b ∧
      4 < (dedupN (b :: lockWants (engOf u id))).length)
    ∧ (∃ (eng : Fin 512) (tag : Fin 8) (bucket : U32) (s : State),
      TagReady s eng tag ∧
      let id := Fin.val eng
      let b := BitVec.toNat bucket
      let u := lockUse b (noteIssue id 1 s)
      b < tableBuckets (noteIssue id 1 s) ∧ (engOf (noteIssue id 1 s) id).held.contains b = true ∧
      (engOf u id).held.contains b = true)
    ∧ (∃ (eng : Fin 512) (tag : Fin 8) (loc : BitVec 10) (s : State),
      TagReady s eng tag ∧
      let id := Fin.val eng
      let u := noteIssue id 3 s
      BitVec.toNat loc + 32 ≤ 1024 ∧ lsDamaged u id loc.toNat 32 = none ∧
      let e := engOf u id
      let named := lockList (lsRead e loc.toNat 32)
      let low := named.foldl (fun m x => min m x.1) (2 ^ 28)
      let gone := e.held.filter (fun b => !decide (b < low))
      let extra := (gone.filter (fun b => !named.any (fun x => x.1 == b))).map (fun b => (b, false, 0))
      let want := sortBy (fun x => x.1) (named ++ extra)
      (∀ x ∈ named, x.1 < tableBuckets u ∧ (x.2.1 = true → x.2.2 + 128 ≤ 1024)) ∧
      (dedupN (want.map (fun x => x.1) ++ lockWants e)).length ≤ 4) :=
  ⟨⟨5, 0, 3, run5, (by decide +kernel), (by decide +kernel), (by decide +kernel), (by decide +kernel), Or.inl (by decide +kernel), (by decide +kernel), (by decide +kernel)⟩,
   ⟨5, 0, 3, 8, run5, (by decide +kernel), (by decide +kernel), (by decide +kernel), (by decide +kernel), Or.inl (by decide +kernel), (by decide +kernel), (by decide +kernel), (by decide +kernel)⟩,
   ⟨5, 0, 3, putLock 3 9 run5, (by decide +kernel), (by decide +kernel), (by decide +kernel), (by decide +kernel), Or.inl (by decide +kernel), (by decide +kernel), (by decide +kernel)⟩,
   ⟨5, 0, 3, 900, run5, (by decide +kernel), (by decide +kernel)⟩,
   ⟨5, 0, 0xFFFFFFFF, 8, run5, (by decide +kernel), (by decide +kernel), (by decide +kernel)⟩,
   ⟨5, 0, 3, 8, hold5 [7] rdy, (by decide +kernel), (by decide +kernel), (by decide +kernel), (by decide +kernel), (by decide +kernel), (by decide +kernel)⟩,
   ⟨5, 0, 9, hold5 [1, 2, 3, 4] rdy, (by decide +kernel), (by decide +kernel), (by decide +kernel), (by decide +kernel), (by decide +kernel)⟩,
   ⟨5, 0, 3, hold5 [3] rdy, (by decide +kernel), (by decide +kernel), (by decide +kernel), (by decide +kernel)⟩,
   ⟨5, 0, 8, run5, (by decide +kernel), (by decide +kernel), (by decide +kernel), (by decide +kernel), (by decide +kernel)⟩⟩

/-- The hypotheses of SkipperMemoryCommandsComplete are met. -/
theorem wit_SkipperMemoryCommandsComplete :
    (∃ (eng : Fin 512) (tag : Fin 8) (bucket : U32) (loc : BitVec 10) (s : State),
      TagReady s eng tag ∧
      BitVec.toNat loc + 128 ≤ 1024)
    ∧ (∃ (eng : Fin 512) (tag : Fin 8) (bucket : U32) (unit : Fin 2) (loc : BitVec 10) (mask : U64) (s : State),
      TagReady s eng tag ∧
      let id := Fin.val eng
      let u := noteIssue id 5 s
      let b := BitVec.toNat bucket
      BitVec.toNat loc + 64 ≤ 1024 ∧ lsDamaged u id loc.toNat 64 = none ∧ (engOf u id).held.contains b = true ∧
      (engOf u id).wbuf = [])
    ∧ (∃ (eng : Fin 512) (tag : Fin 8) (bucket : U32) (unit : Fin 2) (loc : BitVec 10) (mask : U64) (s : State),
      TagReady s eng tag ∧
      let id := Fin.val eng
      let u := noteIssue id 5 s
      BitVec.toNat loc + 64 ≤ 1024 ∧ lsDamaged u id loc.toNat 64 = none ∧
      (engOf u id).held.contains (BitVec.toNat bucket) = false)
    ∧ (∃ (eng : Fin 512) (tag : Fin 8) (addr : U64) (two : Bool) (loc : BitVec 10) (s : State),
      TagReady s eng tag ∧
      let n := if two = true then 128 else 64
      BitVec.toNat loc + n ≤ 1024)
    ∧ (∃ (eng : Fin 512) (tag : Fin 8) (addr : U64) (loc : BitVec 10) (mask : U64) (cover : U32) (s : State),
      TagReady s eng tag ∧
      let id := Fin.val eng
      let u := noteIssue id 7 s
      let a := BitVec.toNat addr
      BitVec.toNat loc + 64 ≤ 1024 ∧ lsDamaged u id loc.toNat 64 = none ∧
      (engOf u id).held.contains (BitVec.toNat cover) = true ∧ a % 64 = 0 ∧ extOk u a 64 = true ∧ (engOf u id).wbuf = [])
    ∧ (∃ (eng : Fin 512) (tag : Fin 8) (addr : U64) (operand : U64) (s : State),
      TagReady s eng tag ∧
      let id := Fin.val eng
      let u := noteIssue id 8 s
      let a := BitVec.toNat addr
      let line := a / 64 * 64
      extOk u line 64 = true ∧ (engOf u id).undo.length < 4)
    ∧ (∃ (eng : Fin 512) (tag : Fin 8) (addr : U64) (operand : U64) (s : State),
      TagReady s eng tag ∧
      let id := Fin.val eng
      let u := noteIssue id 8 s
      let line := BitVec.toNat addr / 64 * 64
      extOk u line 64 = true)
    ∧ (∃ (eng : Fin 512) (tag : Fin 8) (loc : BitVec 10) (s : State),
      TagReady s eng tag ∧
      let id := Fin.val eng
      let u := noteIssue id 9 s
      BitVec.toNat loc + 40 ≤ 1024 ∧ lsDamaged u id loc.toNat 40 = none)
    ∧ (∃ (eng : Fin 512) (tag : Fin 8) (loc : BitVec 10) (s : State) (key : _) (k : _) (a : _),
      TagReady s eng tag ∧
      let id := Fin.val eng
      let u := noteIssue id 12 s
      BitVec.toNat loc + 128 ≤ 1024 ∧ nextHeld u id = some (key, k) ∧ k.ans = some a)
    ∧ (∃ (eng : Fin 512) (tag : Fin 8) (loc : BitVec 10) (s : State),
      TagReady s eng tag ∧
      let id := Fin.val eng
      let u := noteIssue id 12 s
      BitVec.toNat loc + 128 ≤ 1024 ∧ nextHeld u id = none)
    ∧ (∃ (eng : Fin 512) (tag : Fin 8) (pool : U32) (hash : U32) (loc : U32) (s : State),
      TagReady s eng tag ∧
      let id := Fin.val eng
      let u := noteIssue id 17 s
      let q := BitVec.toNat pool
      let j := BitVec.toNat hash % 256
      let k := fv u 4 0x10 (q * 256 + j) 0 6
      q < 256 ∧ BitVec.toNat loc + 24 ≤ 1024 ∧ lbWord (q * 2 ^ 16 + j) u = (false, u) ∧
      lbWord (q * 2 ^ 16 + 2 ^ 8 + k) u = (false, u))
    ∧ (∃ (eng : Fin 512) (tag : Fin 8) (loc : BitVec 10) (s : State),
      TagReady s eng tag ∧
      let id := Fin.val eng
      let u := noteIssue id 13 s
      loc.toNat + 64 ≤ 1024 ∧ lsDamaged u id loc.toNat 64 = none)
    ∧ (∃ (eng : Fin 512) (tag : Fin 8) (s : State),
      TagReady s eng tag ∧
      let id := Fin.val eng
      tagFree (engOf s id) ((tag.val + 1) % 8) = true)
    ∧ (∃ (eng : Fin 512) (tag : Fin 8) (bad : Bool) (s : State) (o : _),
      let id := Fin.val eng
      let e := engOf s id
      (tagOf e (Fin.val tag)).op = some o ∧ o.wait = false ∧ o.out = [] ∧ mustWait e tag.val o = false ∧ e.st = .running ∧
      o.code ≠ 9 ∧ o.status ≠ stFAULTED ∧ (bad = true → o.data = []))
    ∧ (∃ (eng : Fin 512) (tag : Fin 8) (bad : Bool) (s : State) (o : _),
      let id := Fin.val eng
      let e := engOf s id
      (tagOf e (Fin.val tag)).op = some o ∧ o.wait = false ∧ o.out = [] ∧ mustWait e tag.val o = false ∧ e.st = .running ∧
      o.code = 9)
    ∧ (∃ (eng : Fin 512) (tag : Fin 8) (bad : Bool) (s : State) (o : _),
      let id := Fin.val eng
      let e := engOf s id
      (tagOf e (Fin.val tag)).op = some o ∧ o.wait = false ∧ o.out = [] ∧ mustWait e tag.val o = false ∧ e.st = .running ∧
      o.code ≠ 9 ∧ (o.status = stFAULTED ∨ (bad = true ∧ o.data ≠ []))) :=
  ⟨⟨5, 0, 3, 8, run5, (by decide +kernel), (by decide +kernel)⟩,
   ⟨5, 0, 3, 1, 8, 0xFF, hold5 [3] rdy, (by decide +kernel), (by decide +kernel), (by decide +kernel), (by decide +kernel), (by decide +kernel)⟩,
   ⟨5, 0, 4, 1, 8, 0xFF, hold5 [3] rdy, (by decide +kernel), (by decide +kernel), (by decide +kernel), (by decide +kernel)⟩,
   ⟨5, 0, 64, true, 8, run5, (by decide +kernel), (by decide +kernel)⟩,
   ⟨5, 0, 64, 8, 0xFF, 3, hold5 [3] rdy, (by decide +kernel), (by decide +kernel), (by decide +kernel), (by decide +kernel), (by decide +kernel), (by decide +kernel), (by decide +kernel)⟩,
   ⟨5, 0, 64, 1, hold5 [3] rdy, (by decide +kernel), (by decide +kernel), (by decide +kernel)⟩,
   ⟨5, 0, 64, 1, hold5 [3] rdy, (by decide +kernel), (by decide +kernel)⟩,
   ⟨5, 0, 8, run5, (by decide +kernel), (by decide +kernel), (by decide +kernel)⟩,
   ⟨5, 0, 8, decided, [1], { pktL with ans := some answered0 }, answered0, (by decide +kernel), (by decide +kernel), (by decide +kernel), (by decide +kernel)⟩,
   ⟨5, 0, 8, run5, (by decide +kernel), (by decide +kernel), (by decide +kernel)⟩,
   ⟨5, 0, 0, 5, 8, run5, (by decide +kernel), (by decide +kernel), (by decide +kernel), rfl, rfl⟩,
   ⟨5, 0, 8, run5, (by decide +kernel), (by decide +kernel), (by decide +kernel)⟩,
   ⟨5, 0, run5, (by decide +kernel), (by decide +kernel)⟩,
   ⟨5, 0, false, doing { memOp0 with code := 7, wait := false }, { memOp0 with code := 7, wait := false }, (by decide +kernel), (by decide +kernel), (by decide +kernel), (by decide +kernel), (by decide +kernel), (by decide +kernel), (by decide +kernel), fun h => absurd h (by decide +kernel)⟩,
   ⟨5, 0, false, doing { memOp0 with code := 9, wait := false }, { memOp0 with code := 9, wait := false }, (by decide +kernel), (by decide +kernel), (by decide +kernel), (by decide +kernel), (by decide +kernel), (by decide +kernel)⟩,
   ⟨5, 0, true, doing { memOp0 with code := 6, wait := false, data := [(64, [1])] }, { memOp0 with code := 6, wait := false, data := [(64, [1])] }, (by decide +kernel), (by decide +kernel), (by decide +kernel), (by decide +kernel), (by decide +kernel), (by decide +kernel), Or.inr (by decide +kernel)⟩⟩

/-- The hypotheses of SkipperRoutineCommandsComplete are met. -/
theorem wit_SkipperRoutineCommandsComplete :
    (∃ (eng : Fin 512) (s : State),
      (engOf s (Fin.val eng)).st = .running ∧
      (∀ i ∈ List.range (engOf s eng.val).wbuf.length, damageAt s 7 4 (eng.val + i * 2 ^ 9) = none))
    ∧ (∃ (eng : Fin 512) (s : State),
      (engOf s (Fin.val eng)).st = .stalled ∧ storesRoom s (engOf s eng.val).wbuf = true)
    ∧ (∃ (eng : Fin 512) (s : State),
      (engOf s (Fin.val eng)).st = .running)
    ∧ (∃ (eng : Fin 512) (s : State),
      ((engOf s (Fin.val eng)).st = .stalled ∨ (engOf s eng.val).st = .waiting ∨ (engOf s eng.val).st = .parked) ∧
      (engOf s eng.val).timedOut = false ∧ fv s 4 4 0 16 16 ≤ (engOf s eng.val).age) :=
  ⟨⟨5, run5, (by decide +kernel), (by decide +kernel)⟩,
   ⟨5, inState .stalled, (by decide +kernel), (by decide +kernel)⟩,
   ⟨5, run5, (by decide +kernel)⟩,
   ⟨5, inState .parked, Or.inr (Or.inr (by decide +kernel)), (by decide +kernel), (by decide +kernel)⟩⟩

/-- The hypotheses of MicrowordCommandsComplete are met. -/
theorem wit_MicrowordCommandsComplete :
    (∃ (eng : Fin 512) (gap : U32) (s : State), let id := Fin.val eng
    let u := passCycles id (BitVec.toNat gap) s
    let c := id / 16
    (engOf s id).st = .running ∧
    let g := useWord (0x07, 1, 3) (0x07, 2, 2) id u
    let m := ucFetch c 0 (engOf s id).pc g.2
    let mw := BitVec.toNat (kget 0 m.2.skip.mw (c * 2 ^ 14 + (engOf s id).pc))
    let n := ucFetch c 1 (bitsOf mw 19 10) m.2
    let w := BitVec.toNat (kget 0 n.2.skip.nw (c * 1024 + bitsOf mw 19 10))
    g.1 = false ∧ m.1 = false ∧ n.1 = false)
    ∧ (∃ (eng : Fin 512) (gap : U32) (s : State), let id := Fin.val eng
    let u := passCycles id (BitVec.toNat gap) s
    (engOf s id).st = .running ∧
    let g := useWord (0x07, 1, 3) (0x07, 2, 2) id u
    let m := ucFetch (id / 16) 0 (engOf s id).pc g.2
    g.1 = false ∧ m.1 = true)
    ∧ (∃ (eng : Fin 512) (gap : U32) (s : State), (engOf s (Fin.val eng)).st = .parked)
    ∧ (∃ (cluster : Fin 32) (s : State), (clusterOf s (Fin.val cluster)).state = 2 ∧
    (∀ id ∈ clusterEngines cluster.val, inRoutine (engOf s id) = false) ∧
    bundleFault s.skip.ucRun (mapOf s.skip.ucRun cluster.val) = none) :=
  ⟨⟨5, 2, run5, (by decide +kernel), (by decide +kernel), (by decide +kernel), (by decide +kernel)⟩,
   ⟨5, 2, badStore, (by decide +kernel), (by decide +kernel), (by decide +kernel)⟩,
   ⟨5, 2, inState .parked, (by decide +kernel)⟩,
   ⟨0, loadable, (by decide +kernel), (by decide +kernel), (by decide +kernel)⟩⟩

theorem takeHeader_ok {src : Nat} {h : Bytes} {s : State} (e : headerFault s (padTo 512 h) = none) :
    takeHeader src (some h) s = (some (src, padTo 512 h), s) := by
  delta takeHeader
  dsimp only
  rw [e]
theorem takeHeader_none (src : Nat) (s : State) : takeHeader src none s = (none, rejectImage 0x01 s) := rfl
def stage2 (src : Nat) : State := { bootAt 2 with boot.source := src }
/-- The hypotheses of StartupEventsComplete about an accepted header are met, wherever the OTP holds the key's digest and
the signature verifies. -/
theorem wit_StartupEventsComplete_header
    (hd : shake256 (sliceB header0 288 57) = Config.otpDigest 0)
    (hv : Config.ed448Verify (sliceB header0 288 57) ctxIM (header0.take 384) (sliceB header0 384 114) = true) :
    (∃ (h : Bytes) (s : State), starting 2 s = true ∧ s.boot.cand = none ∧ s.boot.source = 2
      ∧ headerFault s (padTo 512 h) = none)
    ∧ (∃ (a b : Option Bytes) (x : Nat × Bytes) (u t s : State), starting 2 s = true ∧ s.boot.cand = none ∧ s.boot.source ≠ 2
      ∧ takeHeader 0 a s = (some x, u) ∧ takeHeader 1 b u = (none, t)) := by
  have h2 : headerFault (stage2 2) (padTo 512 header0) = none :=
    header0_accepted (by decide +kernel) (by decide +kernel) hd hv
  have h0 : headerFault (stage2 0) (padTo 512 header0) = none :=
    header0_accepted (by decide +kernel) (by decide +kernel) hd hv
  have ht : takeHeader 0 (some header0) (stage2 0) = (some (0, padTo 512 header0), stage2 0) := takeHeader_ok h0
  refine ⟨⟨header0, stage2 2, by decide +kernel, by decide +kernel, by decide +kernel, h2⟩,
    ⟨some header0, none, _, _, rejectImage 0x01 (stage2 0), stage2 0, by decide +kernel, by decide +kernel,
      by decide +kernel, ht, takeHeader_none 1 _⟩⟩

theorem wit_StepRunsTheFrontCommand : ∃ s : State, s.pending = [] := ⟨rdy, rfl⟩

/-- Switch-core field 1 has been claimed by ring 3, and a PORT field by ring 0. -/
def claims0 : Resolving :=
  { v := leased 1 (grp 4 6), claimed := [(oid 6 2 1, 3, 3), (oid 1 2 3, 3, 0)], out := [], ended := [] }
theorem wit_ResolutionKeepsClaimsApart : ∃ r : Resolving, r.claimed ≠ [] ∧ Apart r.claimed :=
  ⟨claims0, by decide +kernel, by unfold Apart; decide +kernel⟩
/-- A timed SET of a field whose group ring 1 has leased, and a reset order. -/
def setInput : Input := { rank := 6, sub := 0, due := 0, body := .timed 5 }
def orderInput : Input := { rank := 1, sub := 0, due := 0, body := .order (.chip 2 0) }
def contended : Resolving :=
  { claims0 with v := modSlot 5 (fun t => { t with armed := true, kind := .set, obj := oid 6 2 1 }) claims0.v }
theorem wit_ResolutionJudgesEveryInputOnce :
    (∃ (r : Resolving) (i : Input), timedGone r.v i = false)
    ∧ (∃ (r : Resolving) (i : Input), timedGone r.v i = true)
    ∧ (∃ (r : Resolving) (i : Input), i.rank ≤ 1 ∧ timedGone r.v i = false)
    ∧ (∃ base all r i x, (resolveOne base all r i).out = r.out ++ [x] ∧ x.verdict ≠ .accepted) :=
  ⟨⟨contended, setInput, by decide +kernel⟩,
   ⟨claims0, setInput, by decide +kernel⟩,
   ⟨contended, orderInput, by decide +kernel, by decide +kernel⟩,
   ⟨none, [setInput], contended, setInput, { inp := setInput, verdict := .refused stDENIED, writes := [], out := none },
     by decide +kernel, by decide +kernel⟩⟩

def fetching3 : State := inRing (fun _ => ring16)
theorem wit_FetchNeverOverrunsACompletionRing :
    ∃ s t : State, exec .cmdFetch s = .next t ∧ s.host.fetchedThisFix ≤ 8
      ∧ (1 < 4 ∧ cqTaken (ringOf s 1) ≤ ringSize (ringOf s 1).cqSize - 1) ∧ t.out.fetches ≠ s.out.fetches :=
  ⟨fetching3, _, rfl, by decide +kernel, by decide +kernel, by decide +kernel⟩

/-- Every account of the buffer pools is at its greatest use. -/
def noBuffers : State :=
  { rdy with pools.acct := (List.range 128).map (fun i => (i, { use := 2 ^ 28, high := 0, nobuf := 0 })) }
def stagePk : CmdPkt := pkd (leBytes 8 (oid 6 2 1) ++ leBytes 8 5) [(16, 1)]
theorem wit_RefusedCommandsOnlyComplete :
    (∃ i op p s st, ringOp i = some (op, p) ∧ firstFailed op p (promise p.src s) = some st)
    ∧ (∃ i op p s q, ringOp i = some (op, p) ∧ firstFailed op p (promise p.src s) = none
        ∧ takePayload (payloadLen op p) (promise p.src s) = (none, q))
    ∧ (∃ i op p s bufs q, ringOp i = some (op, p) ∧ firstFailed op p (promise p.src s) = none
        ∧ takePayload (payloadLen op p) (promise p.src s) = (some bufs, q)
        ∧ (let st := if p.target ≠ 0 ∧ (targetDist p q = 0 ∨ 2 ^ 21 ≤ targetDist p q) then stSTALE
            else if p.target ≠ 0 ∧ 4096 ≤ q.ctl.sched.length then stBUSY
            else if op.isMulti = true ∧ 16 ≤ multiTaken q then stBUSY
            else if op.arg q p ≠ 0 then op.arg q p
            else if missesSample p q = true then stSTALE
            else 0
          st ≠ 0)) :=
  ⟨⟨.sysInfo (pk 64 []), _, _, State.reset, stBUSY, rfl, by decide +kernel⟩,
   ⟨.flowInsert (pkd spec1 []), _, _, noBuffers, _, rfl, by decide +kernel, pairNone (by decide +kernel)⟩,
   ⟨.leaseTake (pk 0 [(16, 0xFFFFFFFF)]), _, _, rdy, _, _, rfl, by decide +kernel, pairSome (by decide +kernel), by decide +kernel⟩⟩

theorem wit_FutureTargetsAreHeld :
    ∃ i op p s bufs q, ringOp i = some (op, p) ∧ firstFailed op p (promise p.src s) = none
      ∧ takePayload (payloadLen op p) (promise p.src s) = (some bufs, q)
      ∧ p.target ≠ 0 ∧ targetDist p q ≠ 0 ∧ targetDist p q < 2 ^ 21 ∧ q.ctl.sched.length < 4096
      ∧ (op.isMulti = true → multiTaken q < 16) ∧ op.arg q p = 0 ∧ missesSample p q = false :=
  ⟨.flowInsert { pkd spec1 [] with target := 5 }, _, _, rdy, _, _, rfl, by decide +kernel, pairSome (by decide +kernel),
    by decide +kernel, by decide +kernel, by decide +kernel, by decide +kernel, fun _ => by decide +kernel, by decide +kernel,
    by decide +kernel⟩

def bufsOf (x : Checked × State) : Option (List Nat) :=
  match x.1 with
  | .now b => some b
  | _ => none
theorem nowIs {x : Checked × State} (h : (bufsOf x).isSome = true) : x = (.now ((bufsOf x).get h), x.2) := by
  obtain ⟨c, s⟩ := x
  cases c with
  | now b => rfl
  | refused st => cases h
  | held => cases h
/-- The power manager is in Cocoon, where the flow manager sleeps. -/
def asleep0 : State := { rdy with pwr.st := .cocoon }
theorem wit_LeasesAndTenantsAreJudgedAtTheBoundary :
    (∃ i op p s bufs q, ringOp i = some (op, p) ∧ checkCmd op p (promise p.src s) = (.now bufs, q)
      ∧ needsExit q op.code = false ∧ (op.tenant q p = false ∨ leaseBlocks q (ownerOf p.src) (op.touch q p) = true))
    ∧ (∃ i op p s bufs q, ringOp i = some (op, p) ∧ checkCmd op p (promise p.src s) = (.now bufs, q)
      ∧ needsExit q op.code = true) :=
  ⟨⟨.cfgStage (pk 0 [(16, 1), (24, oid 6 2 1), (32, 1)]), _, _, leased 1 (grp 4 6), _, _, rfl, nowIs (by decide +kernel),
      by decide +kernel, .inr (by decide +kernel)⟩,
   ⟨.flowStatsRead (pk 512 []), _, _, asleep0, _, _, rfl, nowIs (by decide +kernel), by decide +kernel⟩⟩

def cpl0 : Cpl := { tag := 7, status := 0, winRank := 0, fix := 0, result := 0, irq := true }
def gathered : State := { inRing (fun _ => { ring16 with promised := 2, shadow := 0x1000 }) with ctl.cpls := [(1, cpl0), (1, cpl0)] }
theorem wit_CompletionsAreWrittenInOrder :
    ∃ (n : Nat) (s : State), n < 4 ∧ s.host.rings.length = 4
      ∧ (s.ctl.cpls.filter (fun e => e.1 == n)).map (fun e => e.2) ≠ []
      ∧ (ringOf s n).cqTail < ringSize (ringOf s n).cqSize
      ∧ ((s.ctl.cpls.filter (fun e => e.1 == n)).map (fun e => e.2)).length ≤ (ringOf s n).promised :=
  ⟨1, gathered, by decide, by decide +kernel, by decide +kernel, by decide +kernel, by decide +kernel⟩

theorem wit_ReadCommandsChangeNothing :
    ∃ i op p, ringOp i = some (op, p) ∧ op.code ∈ [0x0001, 0x0F02] :=
  ⟨.sysInfo (pk 64 []), _, _, rfl, by decide +kernel⟩

theorem wit_HbmReadsBackWhatWasWritten :
    (∃ (s : State) (a : Nat) (bs : Bytes), a + bs.length ≤ 2 ^ 40 ∧ memWf s.hbm.mem = true ∧ bs ≠ [])
    ∧ (∃ (a a' n region region' : Nat) (bs : Bytes), a' + n ≤ 2 ^ 40 ∧ bs ≠ []
        ∧ (region' ≠ region ∨ a' + n ≤ a ∨ a + bs.length ≤ a')) :=
  ⟨⟨{ rdy with hbm.mem := [(5, 3), (2 ^ 40, 9)] }, 2 ^ 40 - 2, [1, 2], by decide, by decide +kernel, by decide⟩,
   ⟨2 ^ 40 - 2, 0, 8, 0, 0, [1, 2], by decide, by decide, .inr (.inl (by decide))⟩⟩

/-- The owner's, another owner's and a full staging store. -/
def stagedBy (o : Nat) : State := stageOne o (oid 6 2 1, 3) rdy
def stagingFull : State :=
  { rdy with ctl.staging := (List.range 16384).map (fun i => { owner := 0, obj := 2 ^ 60 + i, value := 0, lease := none }) }
theorem stagingFull_kept :
    (taken opCfgStage (pk 0 [(16, 1), (24, oid 6 2 1), (32, 1)]) stagingFull).2.ctl.staging = stagingFull.ctl.staging := rfl
theorem stagingFull_mem {y : Staged} (h : y ∈ stagingFull.ctl.staging) : y.owner = 0 ∧ 2 ^ 60 ≤ y.obj := by
  simp only [stagingFull, List.mem_map] at h
  obtain ⟨i, _, rfl⟩ := h
  exact ⟨rfl, Nat.le_add_right _ _⟩
theorem stagingFull_length : stagingFull.ctl.staging.length = 16384 := by
  simp only [stagingFull, List.length_map, List.length_range]
def stageMine : CmdPkt := pk 0 [(16, 1), (24, oid 6 2 1), (32, 1)]
theorem wit_StagingIsAllOrNothing :
    (∃ (p : CmdPkt) (s : State) (bufs : List Nat) (q : State), Admitted opCfgStage p s bufs q ∧ (∀ e ∈ stageEntries_ p, portFieldOk q e.1 = true)
      ∧ ∃ e ∈ stageEntries_ p, ∃ y ∈ q.ctl.staging, y.obj = e.1 ∧ y.owner ≠ ownerOf p.src)
    ∧ (∃ (p : CmdPkt) (s : State) (bufs : List Nat) (q : State), Admitted opCfgStage p s bufs q ∧ (∀ e ∈ stageEntries_ p, portFieldOk q e.1 = true)
      ∧ (∀ e ∈ stageEntries_ p, ∀ y ∈ q.ctl.staging, y.obj = e.1 → y.owner = ownerOf p.src) ∧ q.ctl.staging.length < 16384)
    ∧ (∃ (p : CmdPkt) (s : State) (bufs : List Nat) (q : State), Admitted opCfgStage p s bufs q ∧ (∀ e ∈ stageEntries_ p, portFieldOk q e.1 = true)
      ∧ (∀ e ∈ stageEntries_ p, ∀ y ∈ q.ctl.staging, y.obj = e.1 → y.owner = ownerOf p.src)
      ∧ 16384 < q.ctl.staging.length + (stageEntries_ p).length
      ∧ (stageEntries_ p).all (fun e => !(q.ctl.staging.any (fun y => y.obj == e.1))) = true) :=
  ⟨⟨stageMine, stagedBy 1, _, _, adm (by decide +kernel), by decide +kernel, by decide +kernel⟩,
   ⟨stageMine, stagedBy 0, _, _, adm (by decide +kernel), by decide +kernel, by decide +kernel, by decide +kernel⟩,
   ⟨stageMine, stagingFull, _, _, adm (by decide +kernel), by decide +kernel,
     fun _ _ y hy _ => (stagingFull_mem (stagingFull_kept ▸ hy)).1,
     by
      have h : (stageEntries_ stageMine).length = 1 := by decide +kernel
      have h2 : (taken opCfgStage stageMine stagingFull).2.ctl.staging.length = 16384 := stagingFull_length
      omega,
     by
      have h : stageEntries_ stageMine = [(oid 6 2 1, 1)] := by decide +kernel
      rw [h, List.all_cons, List.all_nil, Bool.and_true, Bool.not_eq_true', List.any_eq_false]
      intro y hy
      have h1 := (stagingFull_mem (stagingFull_kept ▸ hy)).2
      have h2 : oid 6 2 1 < 2 ^ 60 := by decide
      exact fun e => absurd (eq_of_beq e) (Nat.ne_of_gt (Nat.lt_of_lt_of_le h2 h1))⟩⟩

theorem wit_SkipperWritesAreBuffered :
    (∃ i : Instr, ∃ b, i = .lock 5 0 b)
    ∧ (∃ (i : Instr) (bucket : U32) (s : State) (region a n : Nat), (∃ l, i = .lockr 5 0 bucket l) ∧ memWf s.hbm.mem = true
        ∧ a + n ≤ 2 ^ 40 ∧ (region ≠ 0 ∨ a + n ≤ bucket.toNat * 128 ∨ bucket.toNat * 128 + 128 ≤ a)) :=
  ⟨⟨.lock 5 0 3, 3, rfl⟩,
   ⟨.lockr 5 0 3 0, 3, run5, 0, 512, 8, ⟨0, rfl⟩, by decide +kernel, by decide, .inr (.inr (by decide))⟩⟩
theorem wit_ControlEventsLeaveTheDataPath : ∃ i : Instr, ∃ n v, i = .cmdDoorbell n v := ⟨.cmdDoorbell 1 9, 1, 9, rfl⟩

/-! ### The spec's worked examples, and what single commands answer -/

/-- What a command leaves; the state itself where it does not go on. -/
def after (i : Instr) (s : State) : State :=
  match exec i s with
  | .next t => t
  | _ => s
/-- STATUS, WIN_RANK and RESULT of the last completion entry that a command has written (Table 3.6). -/
def answerOf (i : Instr) (s : State) : Option (Nat × Nat × Nat) :=
  ((after i s).out.host.filterMap (fun w => match w with
    | .cpl _ _ _ b => some (leAt b 4 1, leAt b 5 1, leAt b 12 4)
    | _ => none)).getLast?
/-- STATUS and WIN_RANK alone: the RESULT of these answers is open. -/
def statusOf (i : Instr) (s : State) : Option (Nat × Nat) :=
  ((after i s).out.host.filterMap (fun w => match w with
    | .cpl _ _ _ b => some (leAt b 4 1, leAt b 5 1)
    | _ => none)).getLast?
def from_ (n : Fin 4) (p : CmdPkt) : CmdPkt := { p with src := .ring n }

/-- Table 13.3: the place of bucket 0x073E_94D2. -/
theorem test_bucket_place :
    let p := placeOf rdy 0 0x39F4A6900
    (pcStack p.pc, pcNum p.pc, p.o, placeCol p, placeRow p, placeBank p) = (5, 6, 0x04D46300, 0x300, 0x1351, 9) := by
  decide +kernel
/-- Chapter 13: the other bucket of the grain lies at column 0x380 of the same row. -/
theorem test_bucket_second_half :
    let p := placeOf rdy 0 (0x39F4A6900 + 128)
    (placeCol p, placeRow p) = (0x380, 0x1351) := by decide +kernel

/-- Chapter 5, the worked example of the minute: the minute that begins at TAI second 2,000,000,017 is closed at
M = 1,115,099, and is UTC minute 33,333,332 (chapter 14). -/
def beforeMinute : State :=
  { rdy with clock.tai := 1953125006835937 * 1024, clock.fix := BitVec.ofNat 22 1953125006835937, mer.utcOffset := 37 }
theorem test_minute_fix :
    ((after .minuteArm beforeMinute).mer.nextM, (after .minuteArm beforeMinute).mer.nextMinute) = (1115099, 33333332) := by
  decide +kernel

/-- Table 2.8: A is accepted, B superseded by rank 2, C and D accepted. -/
def example28 : Resolving :=
  { v := { paired with mer.slots := [(5, { timedSlotReset with armed := true, kind := .role, obj := 2 })] },
    claimed := [], out := [], ended := [] }
def inputs28 : List Input :=
  [{ rank := 2, sub := 0, due := 0, body := .peerClaim 1 5 },
   { rank := 3, sub := 0, due := 0, body := .cmd 0x0B01 (pk 0 [(16, 3), (17, 3)]) [] },
   { rank := 6, sub := 5, due := 0, body := .timed 5 },
   { rank := 7, sub := 0, due := 0, body := .autopilot 4 (oid 4 0x10 5) 0 1 }]
theorem test_order_of_table_2_8 :
    (resolveAll none inputs28 example28).out.map (fun r => r.verdict)
      = [.accepted, .superseded 2, .accepted, .accepted] := by decide +kernel

/-- Table 3.10: entries 10 to 12 are fetched in one read, head becomes 13, and 3 completion entries are promised. -/
def ring256 : State :=
  inRing (fun _ => { ring16 with size := 8, cqSize := 8, head := 10, tail := 13 })
theorem test_fetch_of_table_3_10 :
    (after .cmdFetch ring256).out.fetches = [(1, 10, 3, 640)] ∧ (ringOf (after .cmdFetch ring256) 1).head = 13
      ∧ (ringOf (after .cmdFetch ring256) 1).promised = 3 := by decide +kernel

/-- Chapter 4: PG_PROFILE 0x11 of group 5, object 0x0100_0100_0000_0005, makes ports 40 (A), 44 and 46 (B) of lanes 40 to 47. -/
def group5 : State := { rdy with ctl.cfg := [(0x0100010000000005, 0x11)] }
theorem test_regroup :
    ((List.range 8).map (fun i => 40 + i)).filter (isPort group5) = [40, 44, 46]
      ∧ (portProfile group5 40, portProfile group5 44, portProfile group5 46) = (0, 1, 1) := by decide +kernel

/-- Table 10.4: with α = 1/2, 48,110 cells held and 96,256 free, a frame of 6 cells passes; with 48,122 held and 96,244 free it
does not. -/
def alphaState (sh free : Nat) : State :=
  let s := { rdy with ctl.cfg := [(oid 6 2 2, 7), (oid 6 5 0x4A10, 2)] }
  { s with sw.shared := sharedSize s - free, sw.queues := [(0x4A10, { queueReset with sh := sh })] }
theorem test_alpha_of_table_10_4 :
    (alphaOk (alphaState 48110 96256) 0x4A10 6, alphaOk (alphaState 48116 96250) 0x4A10 6,
      alphaOk (alphaState 48122 96244) 0x4A10 6) = (true, true, false) := by decide +kernel

/-- Chapter 20: HEAD is 0x1001 and TAIL 0x1003, so the write of 0x0FFF is refused and HEAD_REFUSED rises by 1. -/
theorem test_head_refused :
    let s := { rdy with lod.headCount := 0x1001, lod.tailCount := 0x1003 }
    ((after (.faultHeadWrite 0x0FFF) s).lod.headCount, (after (.faultHeadWrite 0x0FFF) s).lod.headRefused) = (0x1001, 1) := by
  decide +kernel
/-- Chapters 20 and 16: two messages as words. -/
theorem test_message_words :
    msgWord { fmsg with source := 0x01, kind := 0x02, cls := 3, addr := 0x10 } = 0x0102300000000010
      ∧ msgWord { fmsg with source := 0x15, kind := 0x03, cls := 1, addr := 0x28 + 0x12345 * 128 } = 0x150310000091A2A8 := by
  decide +kernel

/-- Chapter 7: the key of the worked example, from the frame. -/
def synFrame : Bytes :=
  zerosB 12 ++ [0x08, 0x00, 0x45] ++ zerosB 8 ++ [6, 0, 0, 0xC0, 0, 2, 0x0A, 0xC6, 0x33, 0x64, 7, 0xC0, 0, 1, 0xBB] ++ zerosB 36
def synPkt : Pkt := pset bTENANT 0x0F77 { pktReset 0 0 with rx := synFrame, tx := synFrame, tail := .good }
theorem test_flow_key :
    pktKey synPkt { lvl0 with nextHdr := 6, l4Off := some 34, l4Role := 4 }
      = [0x00, 0x0F, 0x77, 0x06] ++ zerosB 10 ++ [0xFF, 0xFF, 0xC0, 0x00, 0x02, 0x0A]
        ++ zerosB 10 ++ [0xFF, 0xFF, 0xC6, 0x33, 0x64, 0x07] ++ [0xC0, 0x00, 0x01, 0xBB] := by decide +kernel

/-- R59: before Binnacle reports ready a command completes BUSY. -/
theorem test_sys_info_before_ready : statusOf (.sysInfo (pk 64 [])) State.reset = some (2, 0) := by decide +kernel
/-- R478: SYS_INFO returns 64 bytes. -/
theorem test_sys_info : answerOf (.sysInfo (pk 64 [])) rdy = some (0, 0, 64) := by decide +kernel
/-- Table 3.7: ring 2 may not stage (DENIED). -/
theorem test_stage_denied : statusOf (.cfgStage (from_ 2 stageMine)) rdy = some (5, 0) := by decide +kernel
/-- R51: the RESULT of CFG_STAGE is the number of entries; a field that another owner has staged is BUSY. -/
theorem test_stage : answerOf (.cfgStage stageMine) rdy = some (0, 0, 1) := by decide +kernel
theorem test_stage_other_owner : statusOf (.cfgStage stageMine) (stagedBy 1) = some (2, 0) := by decide +kernel
/-- A reserved byte of INLINE that is not zero: BADARG (R72). -/
theorem test_reserved_inline : statusOf (.sysInfo (pk 64 [(47, 1)])) rdy = some (6, 0) := by decide +kernel
/-- R56: a group that another owner has leased is DENIED at the boundary. -/
theorem test_leased_group : statusOf (.cfgStage stageMine) (leased 1 (grp 4 6)) = some (5, 0) := by decide +kernel
/-- Chapter 7, FLOW_INSERT and FLOW_DELETE: EXISTS where a record has the key, NOTFOUND where none has. -/
theorem test_insert_exists : (insertBody (pkd spec1 []) flow1).2.status = 13 := by decide +kernel
theorem test_delete_not_found : (deleteBody (pkd key1 []) flow0).2.status = 12 := by decide +kernel
/-- R204: a request below HELD_HIGH fails LOCK_ORDER; a free lock is granted at once, a taken one is waited for. -/
theorem test_lock_order : (tagOf (engOf (after (.lock 5 0 3) (hold5 [7] rdy)) 5) 0).status = 15 := by decide +kernel
theorem test_lock_taken : lockHolder (after (.lock 5 0 3) run5) 3 = some 5 := by decide +kernel
theorem test_lock_waits : (engOf (after (.lock 5 0 3) (putLock 3 9 run5)) 5).held = [] := by decide +kernel
/-- R64: a DB_TAIL of 2^k or more is counted and ignored. -/
theorem test_doorbell_bad : (ringOf (after (.cmdDoorbell 1 16) (inRing (fun _ => ring16))) 1).dberr = 1 := by decide +kernel
theorem test_doorbell : (ringOf (after (.cmdDoorbell 1 9) (inRing (fun _ => ring16))) 1).tail = 9 := by decide +kernel
/-- R431: an image is not staged while IMAGE_ACCEPT runs. -/
theorem test_image_busy :
    (match (opImageStage.body (pkd (zerosB 4096) []) [] imaging).2 with
      | .done o => o.status
      | _ => 0) = 2 := by decide +kernel
/-- R391: FAULT_RELEASE of class 0 is DENIED. -/
theorem test_grave_not_released :
    (answerOf (.faultRelease (pk 0 [(16, 5), (17, 0)])) rdy).map (fun a => a.1) = some 5 := by decide +kernel
/-- An empty queue idles (the model's choice). -/
theorem test_idle : step rdy = .next rdy := rfl
/-- The step of a queue takes its front. -/
theorem test_front :
    (match step { rdy with pending := [.cmdDoorbell 1 0, .sampleClose] } with
      | .next t => t.pending
      | _ => []) = [.sampleClose] := by decide +kernel
/-- Table 15.2: another frame version is mismatch cause 1. -/
theorem test_hello_version :
    (after (.rhHelloReceived (rhFrame 4 2) (helloFor rdy)) helloSt).pair.cause = 1 := by decide +kernel

/-! ### Well-formedness: one ill-formed term for each check -/

theorem test_wf_packet : WellFormed (.sysInfo { pk 8 [] with payload := some [1] }) = false := by decide +kernel
theorem test_wf_environment : WellFormed (.fixBoundary env0) = false := by decide +kernel
theorem test_wf_fetch : WellFormed (.cmdFetchDone 0 (.entries [{ entry := [1], payload := none }])) = false := by decide +kernel
theorem test_wf_register : WellFormed (.registerWrite false 2 false true 0) = false := by decide +kernel
theorem test_wf_header : WellFormed (.imageHeadersRead (some [1]) none) = false := by decide +kernel
theorem test_wf_frame : WellFormed (.frameReceiveStart 0 0 [] false) = false := by decide +kernel
theorem test_wf_pause : WellFormed (.pauseFrameReceived 0 0 true 1 [5]) = false := by decide +kernel
theorem test_wf_ptp : WellFormed (.ptpMessageSend 0 0 [] [1]) = false := by decide +kernel
theorem test_wf_pool :
    WellFormed (.poolRequest 0 (List.replicate 2 { port := 1, owner := 5, hbm := true, size := 64 })) = false := by decide +kernel
theorem test_wf_hbm : WellFormed (.hbmRequest 0 { req0 .write with data := [1] }) = false := by decide +kernel
theorem test_wf_message : WellFormed (.faultMessage (some { fmsg with source := 0x17 })) = false := by decide +kernel
theorem test_wf_good :
    WellFormed (.hbmRequest 0 (req0 .read)) && WellFormed (.faultMessage (some fmsg)) && WellFormed (.imageHeadersRead (some header0) none)
      && WellFormed (.flowInsert (pkd spec1 [])) = true := by decide +kernel

end Sys2Proof.Tests
end

section
/-! PROOF. Staging (R49 to R51): what one staged entry and a list of staged entries do to the staging store, and from it that
CFG_STAGE stages all of its entries or none. -/

namespace Sys2Proof.Machine

open Sys2Proof

/-! ### The list without repetitions -/

theorem dedupN_eq_dedup (l : List Nat) : dedupN l = l.dedup := by
  induction l with
  | nil => rfl
  | cons x xs ih =>
    by_cases h : x ∈ xs
    · simp [dedupN, h, ih, List.dedup_cons_of_mem h]
    · simp [dedupN, h, ih, List.dedup_cons_of_notMem h]

/-- A list without repetitions is no longer than the deduplicated list that holds its members. -/
theorem length_le_dedupN {l m : List Nat} (hl : l.Nodup) (hm : l ⊆ m) : l.length ≤ (dedupN m).length := by
  rw [dedupN_eq_dedup]
  exact (List.subperm_of_subset hl fun _ hx => List.mem_dedup.2 (hm hx)).length_le

/-! ### One entry -/

/-- The objects that have a staged copy. -/
def stagedObjs (s : State) : List Obj := s.ctl.staging.map (fun y => y.obj)

/-- The copy that an owner's entry stages (R50). -/
def stagedCopy (owner : Nat) (e : Obj × Nat) (s : State) : Staged :=
  { owner := owner, obj := e.1, value := BitVec.ofNat 64 e.2, lease := ownLease s owner e.1 }

theorem any_staged_iff (s : State) (x : Obj) : s.ctl.staging.any (fun y => y.obj == x) = true ↔ x ∈ stagedObjs s := by
  simp [stagedObjs]

theorem stageOne_of_staged {owner : Nat} {e : Obj × Nat} {s : State} (h : e.1 ∈ stagedObjs s) :
    stageOne owner e s =
      { s with ctl.staging := s.ctl.staging.map (fun y => if y.obj = e.1 then stagedCopy owner e s else y) } :=
  if_pos ((any_staged_iff s e.1).2 h)

theorem stageOne_of_fresh {owner : Nat} {e : Obj × Nat} {s : State} (h : e.1 ∉ stagedObjs s) :
    stageOne owner e s = { s with ctl.staging := s.ctl.staging ++ [stagedCopy owner e s] } :=
  if_neg (mt (any_staged_iff s e.1).1 h)

theorem stageOne_frame (owner : Nat) (e : Obj × Nat) (s : State) :
    stageOne owner e s = { s with ctl.staging := (stageOne owner e s).ctl.staging } := by
  by_cases h : e.1 ∈ stagedObjs s
  · rw [stageOne_of_staged h]
  · rw [stageOne_of_fresh h]

/-- The store after one entry: the new copy, and every copy of another object. -/
theorem mem_stageOne {owner : Nat} {e : Obj × Nat} {s : State} {y : Staged} :
    y ∈ (stageOne owner e s).ctl.staging ↔ y = stagedCopy owner e s ∨ (y ∈ s.ctl.staging ∧ y.obj ≠ e.1) := by
  by_cases h : e.1 ∈ stagedObjs s
  · obtain ⟨z, hz, hze⟩ := List.mem_map.1 h
    rw [stageOne_of_staged h, List.mem_map]
    constructor
    · rintro ⟨w, hw, rfl⟩
      split
      · exact .inl rfl
      · exact .inr ⟨hw, ‹_›⟩
    · rintro (rfl | ⟨hy, hne⟩)
      · exact ⟨z, hz, if_pos hze⟩
      · exact ⟨y, hy, if_neg hne⟩
  · have hne : ∀ z ∈ s.ctl.staging, z.obj ≠ e.1 := fun z hz he => h (List.mem_map.2 ⟨z, hz, he⟩)
    rw [stageOne_of_fresh h]
    simp only [List.mem_append, List.mem_singleton]
    exact ⟨fun hy => hy.symm.imp_right fun hs => ⟨hs, hne y hs⟩, fun hy => (hy.imp_right And.left).symm⟩

/-- One entry keeps the objects in their order, and adds its own object where it had no copy. -/
theorem stagedObjs_stageOne (owner : Nat) (e : Obj × Nat) (s : State) :
    stagedObjs (stageOne owner e s) = if e.1 ∈ stagedObjs s then stagedObjs s else stagedObjs s ++ [e.1] := by
  split
  next h =>
    rw [stageOne_of_staged h]
    simp only [stagedObjs, List.map_map]
    refine List.map_congr_left fun y _ => ?_
    by_cases hy : y.obj = e.1 <;> simp [hy, stagedCopy]
  next h =>
    rw [stageOne_of_fresh h]
    simp [stagedObjs, stagedCopy]

/-! ### All entries of a command -/

/-- The entries staged one after another, as CFG_STAGE does (`cfgStage_stages`). -/
def stageAll (owner : Nat) (es : List (Obj × Nat)) (s : State) : State := es.foldl (fun s e => stageOne owner e s) s

/-- The objects of a request that have no staged copy yet, each once. -/
def freshObjs (es : List (Obj × Nat)) (s : State) : List Obj :=
  dedupN ((es.map (fun e => e.1)).filter (fun x => !(s.ctl.staging.any (fun y => y.obj == x))))

theorem stageAll_cons (owner : Nat) (e : Obj × Nat) (es : List (Obj × Nat)) (s : State) :
    stageAll owner (e :: es) s = stageAll owner es (stageOne owner e s) := rfl

theorem stageAll_append (owner : Nat) (es fs : List (Obj × Nat)) (s : State) :
    stageAll owner (es ++ fs) s = stageAll owner fs (stageAll owner es s) := List.foldl_append

theorem stageAll_frame (owner : Nat) (es : List (Obj × Nat)) (s : State) :
    stageAll owner es s = { s with ctl.staging := (stageAll owner es s).ctl.staging } := by
  induction es generalizing s with
  | nil => rfl
  | cons e es ih =>
    rw [stageAll_cons, ih (stageOne owner e s), stageOne_frame owner e s]

/-- A copy of an object that the request does not name is staged after it exactly if it was staged before it. -/
theorem mem_stageAll_of_unnamed {owner : Nat} {es : List (Obj × Nat)} {s : State} {y : Staged}
    (h : ∀ e ∈ es, e.1 ≠ y.obj) : y ∈ (stageAll owner es s).ctl.staging ↔ y ∈ s.ctl.staging := by
  induction es generalizing s with
  | nil => rfl
  | cons e es ih =>
    have hne : y.obj ≠ e.1 := (h e List.mem_cons_self).symm
    have hcopy : y ≠ stagedCopy owner e s := fun hy => hne (congrArg Staged.obj hy)
    rw [stageAll_cons, ih fun x hx => h x (List.mem_cons_of_mem e hx), mem_stageOne]
    simp [hne, hcopy]

/-- The last entry of the request for an object decides the object's copy. -/
theorem eq_stagedCopy_of_last {owner : Nat} {pre post : List (Obj × Nat)} {e : Obj × Nat} {s : State} {y : Staged}
    (hpost : ∀ x ∈ post, x.1 ≠ e.1) (hy : y ∈ (stageAll owner (pre ++ e :: post) s).ctl.staging) (hobj : y.obj = e.1) :
    y = stagedCopy owner e (stageAll owner pre s) := by
  rw [stageAll_append, stageAll_cons, mem_stageAll_of_unnamed (hobj ▸ hpost), mem_stageOne] at hy
  exact hy.resolve_right fun hold => hold.2 hobj

/-- Each object of the request has a copy of the owner's after it. -/
theorem exists_owned_stageAll {owner : Nat} {es : List (Obj × Nat)} {s : State} {e : Obj × Nat} (he : e ∈ es) :
    ∃ y ∈ (stageAll owner es s).ctl.staging, y.obj = e.1 ∧ y.owner = owner := by
  induction es using List.reverseRecOn with
  | nil => exact absurd he List.not_mem_nil
  | append_singleton es f ih =>
    rw [stageAll_append]
    by_cases hf : e.1 = f.1
    · exact ⟨stagedCopy owner f _, mem_stageOne.2 (.inl rfl), hf.symm, rfl⟩
    · have hes : e ∈ es := (List.mem_append.1 he).resolve_right fun h => hf (congrArg Prod.fst (List.mem_singleton.1 h))
      obtain ⟨y, hy, hobj, hown⟩ := ih hes
      exact ⟨y, mem_stageOne.2 (.inr ⟨hy, hobj ▸ hf⟩), hobj, hown⟩

/-- A request adds distinct objects at the end of the store, all of them named by it and none of them staged before. -/
theorem stagedObjs_stageAll (owner : Nat) (es : List (Obj × Nat)) (s : State) :
    ∃ added, stagedObjs (stageAll owner es s) = stagedObjs s ++ added ∧ added.Nodup
      ∧ ∀ x ∈ added, x ∈ es.map (fun e => e.1) ∧ x ∉ stagedObjs s := by
  induction es generalizing s with
  | nil => exact ⟨[], by simp [stageAll]⟩
  | cons e es ih =>
    obtain ⟨added, hobjs, hnodup, hmem⟩ := ih (stageOne owner e s)
    rw [stagedObjs_stageOne] at hobjs hmem
    rw [stageAll_cons, hobjs]
    by_cases h : e.1 ∈ stagedObjs s
    · rw [if_pos h] at hmem ⊢
      exact ⟨added, rfl, hnodup, fun x hx => (hmem x hx).imp_left (List.mem_cons_of_mem e.1)⟩
    · rw [if_neg h] at hmem ⊢
      have he : e.1 ∉ added := fun hx => (hmem e.1 hx).2 (by simp)
      refine ⟨e.1 :: added, by simp, List.nodup_cons.2 ⟨he, hnodup⟩, fun x hx => ?_⟩
      rcases List.mem_cons.1 hx with rfl | hx
      · exact ⟨List.mem_cons_self, h⟩
      · obtain ⟨hnamed, hnew⟩ := hmem x hx
        exact ⟨List.mem_cons_of_mem e.1 hnamed, fun hs => hnew (List.mem_append_left _ hs)⟩

theorem stageAll_keeps_nodup {owner : Nat} {es : List (Obj × Nat)} {s : State} (h : (stagedObjs s).Nodup) :
    (stagedObjs (stageAll owner es s)).Nodup := by
  obtain ⟨added, hobjs, hnodup, hmem⟩ := stagedObjs_stageAll owner es s
  rw [hobjs]
  exact h.append hnodup fun x hs hx => (hmem x hx).2 hs

theorem length_stageAll_le (owner : Nat) (es : List (Obj × Nat)) (s : State) :
    (stageAll owner es s).ctl.staging.length ≤ s.ctl.staging.length + (freshObjs es s).length := by
  obtain ⟨added, hobjs, hnodup, hmem⟩ := stagedObjs_stageAll owner es s
  have hlen : (stageAll owner es s).ctl.staging.length = s.ctl.staging.length + added.length := by
    simpa [stagedObjs] using congrArg List.length hobjs
  have hadded : added.length ≤ (freshObjs es s).length :=
    length_le_dedupN hnodup fun x hx =>
      List.mem_filter.2 ⟨(hmem x hx).1, by simpa [stagedObjs] using (hmem x hx).2⟩
  omega

/-! ### CFG_STAGE -/

/-- No staged copy of a field that the request names belongs to another owner. -/
def OwnCopies (owner : Nat) (es : List (Obj × Nat)) (s : State) : Prop :=
  ∀ e ∈ es, ∀ y ∈ s.ctl.staging, y.obj = e.1 → y.owner = owner

theorem any_foreign_iff (owner : Nat) (es : List (Obj × Nat)) (s : State) :
    es.any (fun e => s.ctl.staging.any (fun y => y.obj == e.1 && y.owner != owner)) = true ↔ ¬ OwnCopies owner es s := by
  simp [OwnCopies]

/-- What CFG_STAGE does where the lane numbers of the request are ports: it refuses a field staged by another owner, it refuses
a request that does not fit, or it stages every entry (R50). -/
theorem cfgStage_of_ports {p : CmdPkt} {s : State} (hports : ∀ e ∈ stageEntries_ p, portFieldOk s e.1 = true) :
    (¬ OwnCopies (ownerOf p.src) (stageEntries_ p) s ∧ cfgStage p s = (s, outErr stBUSY))
    ∨ (OwnCopies (ownerOf p.src) (stageEntries_ p) s
        ∧ 16384 < s.ctl.staging.length + (freshObjs (stageEntries_ p) s).length ∧ cfgStage p s = (s, outErr stNOBUF))
    ∨ (OwnCopies (ownerOf p.src) (stageEntries_ p) s
        ∧ s.ctl.staging.length + (freshObjs (stageEntries_ p) s).length ≤ 16384
        ∧ cfgStage p s = (stageAll (ownerOf p.src) (stageEntries_ p) s, outOk (stageEntries_ p).length)) := by
  have hport : ¬ (stageEntries_ p).any (fun e => !portFieldOk s e.1) = true := by simpa using hports
  have hrun : cfgStage p s =
      if (stageEntries_ p).any (fun e => s.ctl.staging.any (fun y => y.obj == e.1 && y.owner != ownerOf p.src)) then
        (s, outErr stBUSY)
      else if 16384 < s.ctl.staging.length + (freshObjs (stageEntries_ p) s).length then (s, outErr stNOBUF)
      else (stageAll (ownerOf p.src) (stageEntries_ p) s, outOk (stageEntries_ p).length) := if_neg hport
  have hforeign := any_foreign_iff (ownerOf p.src) (stageEntries_ p) s
  by_cases hown : OwnCopies (ownerOf p.src) (stageEntries_ p) s
  · rw [if_neg fun hf => hforeign.1 hf hown] at hrun
    by_cases hfull : 16384 < s.ctl.staging.length + (freshObjs (stageEntries_ p) s).length
    · exact .inr (.inl ⟨hown, hfull, hrun.trans (if_pos hfull)⟩)
    · exact .inr (.inr ⟨hown, Nat.le_of_not_lt hfull, hrun.trans (if_neg hfull)⟩)
  · exact .inl ⟨hown, hrun.trans (if_pos (hforeign.2 hown))⟩

/-- An admitted CFG_STAGE answers with its body's outcome, which carries no data. -/
theorem goes_cfgStage {p : CmdPkt} {s q t : State} {bufs : List Nat} {o : CmdOut} (h : Admitted opCfgStage p s bufs q)
    (hrun : cfgStage p q = (t, o)) (hdata : o.data = []) : Goes (.cfgStage p) s (answer opCfgStage p bufs o t) := by
  refine goes_answer (exec_cfgStage p s) h ?_ (by simp [Fits, hdata])
  change ((cfgStage p q).1, Reply.done (cfgStage p q).2) = _
  rw [hrun]

/-- Settles O58: CFG_STAGE refuses and keeps the state, or folds `stageOne` over all of its entries. -/
theorem stagingIsAllOrNothing : Obligations.StagingIsAllOrNothing := by
  unfold Obligations.StagingIsAllOrNothing
  intro p s bufs q hadm hports es o new
  have foreign : (∃ e ∈ es, ∃ y ∈ q.ctl.staging, y.obj = e.1 ∧ y.owner ≠ o) → ¬ OwnCopies o es q :=
    fun ⟨e, he, y, hy, hobj, hne⟩ hown => hne (hown e he y hy hobj)
  rcases cfgStage_of_ports hports with ⟨hbusy, hrun⟩ | ⟨hown, hfull, hrun⟩ | ⟨hown, hfits, hrun⟩
  · exact ⟨_, _, goes_cfgStage hadm hrun rfl, fun _ => ⟨rfl, rfl⟩, fun hown => absurd hown hbusy,
      fun hown => absurd hown hbusy, id, id⟩
  · exact ⟨_, _, goes_cfgStage hadm hrun rfl, fun hf => absurd hown (foreign hf), fun _ _ => ⟨rfl, rfl⟩,
      fun _ hfits => absurd hfull (Nat.not_lt.2 hfits), id, id⟩
  · refine ⟨_, _, goes_cfgStage hadm hrun rfl, fun hf => absurd hown (foreign hf),
      fun _ hfull => absurd hfits (Nat.not_le.2 hfull), fun _ _ => ⟨rfl, stageAll_frame o es q, ?_, ?_, ?_⟩,
      stageAll_keeps_nodup, fun _ => (length_stageAll_le o es q).trans hfits⟩
    · exact fun e he => exists_owned_stageAll he
    · exact fun y hy hun => (mem_stageAll_of_unnamed hun).2 hy
    · intro pre e post hes hpost y hy hobj
      have hlast : y = stagedCopy o e (stageAll o pre q) := eq_stagedCopy_of_last hpost (hes ▸ hy) hobj
      exact congrArg Staged.value hlast

end Sys2Proof.Machine
end

section
/-! PROOF. Fetching (R65 to R67): what a fetch can do, how many commands it takes, and what it leaves of the rings. -/

namespace Sys2Proof.Machine

open Sys2Proof

/-! ### What bounds a fetch -/

/-- A ring that the state does not hold reads as a reset ring, which is idle. -/
theorem lt_length_of_running {s : State} {n : Nat} (h : (ringOf s n).state = .running) : n < s.host.rings.length := by
  by_contra hn
  rw [ringOf, List.getD_eq_default _ _ (Nat.le_of_not_lt hn)] at h
  cases h

theorem fetchable_of_stopped {s : State} {n : Nat} (h : ¬ ((ringOf s n).state = .running ∧ (ringOf s n).enable = true)) :
    fetchable s n = 0 := by
  refine if_pos ?_
  simpa [-not_and, not_and_or] using h

theorem running_of_fetchable {s : State} {n : Nat} (h : fetchable s n ≠ 0) :
    (ringOf s n).state = .running ∧ (ringOf s n).enable = true :=
  not_not.1 (mt fetchable_of_stopped h)

/-- What is taken of a running ring: as much as the burst, the Fix, the commands present, the free completion entries and the
end of the ring allow. -/
theorem fetchable_of_running {s : State} {n : Nat} (hrun : (ringOf s n).state = .running) (hen : (ringOf s n).enable = true) :
    let r := ringOf s n
    fetchable s n = min (min 8 (8 - s.host.fetchedThisFix)) (min ((r.tail + ringSize r.size - r.head) % ringSize r.size)
      (min (ringSize r.cqSize - 1 - cqTaken r) (ringSize r.size - r.head))) := by
  intro r
  unfold cqTaken
  rw [← Nat.sub_sub]
  exact if_neg (by simp [hrun, hen])

/-- The limits of R65 and R67 on a ring that has something to take. -/
theorem fetchable_limits {s : State} {n : Nat} (h : fetchable s n ≠ 0) :
    fetchable s n ≤ 8 ∧ s.host.fetchedThisFix + fetchable s n ≤ 8
      ∧ (ringOf s n).head + fetchable s n ≤ ringSize (ringOf s n).size
      ∧ cqTaken (ringOf s n) + fetchable s n ≤ ringSize (ringOf s n).cqSize - 1 := by
  obtain ⟨hrun, hen⟩ := running_of_fetchable h
  have hmin := fetchable_of_running hrun hen
  omega

/-! ### One burst -/

/-- A ring once the k commands from index idx on are being fetched. -/
def fetchedRing (idx k : Nat) (r : Ring) : Ring :=
  { r with head := (r.head + k) % ringSize r.size, promised := r.promised + k, inFetch := r.inFetch ++ [(idx, k)] }

theorem cqTaken_fetchedRing (idx k : Nat) (r : Ring) : cqTaken (fetchedRing idx k r) = cqTaken r + k :=
  (Nat.add_assoc _ r.promised k).symm

/-- The burst that a fetch takes of ring n, with the place of the rotation that is next (`doCmdFetch_cases`). -/
def takeBurst (n next : Nat) (s : State) : State :=
  let k := fetchable s n
  let idx := (ringOf s n).head
  let t := modRing n (fetchedRing idx k) s
  { t with host.fetchedThisFix := s.host.fetchedThisFix + k, host.rot := next,
           out.fetches := s.out.fetches ++ [(n, idx, k, (ringOf t n).base + BitVec.ofNat 64 (64 * idx))] }

theorem ringOf_takeBurst {n : Nat} {s : State} (h : fetchable s n ≠ 0) (next m : Nat) :
    ringOf (takeBurst n next s) m =
      if m = n then fetchedRing (ringOf s n).head (fetchable s n) (ringOf s n) else ringOf s m :=
  ringOf_modRing n m _ s (lt_length_of_running (running_of_fetchable h).1)

theorem takeBurst_fetches {n : Nat} {s : State} (h : fetchable s n ≠ 0) (next : Nat) :
    (takeBurst n next s).out.fetches = s.out.fetches ++
      [(n, (ringOf s n).head, fetchable s n, (ringOf s n).base + BitVec.ofNat 64 (64 * (ringOf s n).head))] := by
  have hbase : (ringOf (takeBurst n next s) n).base = (ringOf s n).base := by simp [ringOf_takeBurst h, fetchedRing]
  rw [← hbase]
  rfl

theorem rotation_lt (i : Nat) : rotation.getD i 0 < 4 := by
  rcases Nat.lt_or_ge i 6 with hi | hi
  · exact (by decide : ∀ i < 6, rotation.getD i 0 < 4) i hi
  · rw [List.getD_eq_default _ _ hi]
    decide

/-- All that a fetch can do: nothing, or one burst of one ring that has something to take. -/
theorem doCmdFetch_cases (s : State) :
    doCmdFetch s = s ∨ ∃ n next, n < 4 ∧ fetchable s n ≠ 0 ∧ doCmdFetch s = takeBurst n next s := by
  unfold doCmdFetch
  split
  · exact .inl rfl
  split
  next => exact .inl rfl
  next i hfind =>
    have hsome : fetchable s (rotation.getD i 0) ≠ 0 := by simpa using List.find?_some hfind
    refine .inr ⟨rotation.getD i 0, (i + 1) % 6, rotation_lt i, hsome, rfl⟩

/-- Settles O48: a fetch takes nothing, or one burst within the limits of its ring. -/
theorem fetchNeverOverrunsACompletionRing : Obligations.FetchNeverOverrunsACompletionRing := by
  unfold Obligations.FetchNeverOverrunsACompletionRing
  intro s t hexec
  obtain rfl : settle (doCmdFetch s) = t := by simpa [finish] using hexec
  rcases doCmdFetch_cases s with hnone | ⟨n, next, hn, hsome, hburst⟩
  · rw [hnone]
    exact ⟨id, fun _ _ => id, .inl rfl⟩
  · obtain ⟨hrun, hen⟩ := running_of_fetchable hsome
    obtain ⟨hburst8, hfix8, hend, hfree⟩ := fetchable_limits hsome
    have hring := ringOf_takeBurst hsome next
    rw [hburst]
    refine ⟨fun _ => hfix8, fun m _ hm => ?_, .inr ⟨n, fetchable s n, hn, Nat.pos_of_ne_zero hsome, hburst8,
      takeBurst_fetches hsome next, hend, rfl, hrun, hen, fun m hm => (hring m).trans (if_neg hm)⟩⟩
    change cqTaken (ringOf (takeBurst n next s) m) ≤ ringSize (ringOf (takeBurst n next s) m).cqSize - 1
    rw [hring]
    split
    · exact (cqTaken_fetchedRing _ _ _).trans_le hfree
    · exact hm

end Sys2Proof.Machine
end

section
/-! PROOF. The writing of gathered completions (R69): the entries of a ring, then its shadow word, then its interrupt. -/

namespace Sys2Proof.Machine

open Sys2Proof

/-! ### The rings after changes in a row -/

theorem modAt_modAt {α : Type} (l : List α) (n : Nat) (f g : α → α) :
    modAt (modAt l n f) n g = modAt l n (fun x => g (f x)) := by
  induction l generalizing n with
  | nil => rfl
  | cons x xs ih =>
    cases n with
    | zero => rfl
    | succ n => exact congrArg (x :: ·) (ih n)

theorem modAt_id {α : Type} (l : List α) (n : Nat) : modAt l n (fun x => x) = l := by
  induction l generalizing n with
  | nil => rfl
  | cons x xs ih =>
    cases n with
    | zero => rfl
    | succ n => exact congrArg (x :: ·) (ih n)

theorem modRing_congr {n : Nat} {f g : Ring → Ring} {s : State} (h : f (ringOf s n) = g (ringOf s n)) :
    modRing n f s = modRing n g s :=
  congrArg (fun l => { s with host.rings := l }) (modAt_congr ringReset s.host.rings n h)

theorem modRing_modRing (n : Nat) (f g : Ring → Ring) (s : State) :
    modRing n g (modRing n f s) = modRing n (fun r => g (f r)) s :=
  congrArg (fun l => { s with host.rings := l }) (modAt_modAt s.host.rings n f g)

theorem modRing_id (n : Nat) (s : State) : modRing n (fun r => r) s = s :=
  congrArg (fun l => { s with host.rings := l }) (modAt_id s.host.rings n)

/-! ### The entries -/

/-- A ring once k of its completion entries are written. -/
def wroteRing (k : Nat) (r : Ring) : Ring :=
  { r with cqTail := (r.cqTail + k) % ringSize r.cqSize, promised := r.promised - k }

theorem wroteRing_zero {r : Ring} (h : r.cqTail < ringSize r.cqSize) : wroteRing 0 r = r := by
  simp [wroteRing, Nat.mod_eq_of_lt h]

theorem wroteRing_wroteRing (k : Nat) (r : Ring) : wroteRing 1 (wroteRing k r) = wroteRing (k + 1) r := by
  simp [wroteRing, Nat.add_assoc, Nat.sub_sub]

/-- The completion entry of ring n at index i, as it leaves. -/
def cplWrite (n : Nat) (r : Ring) (c : Cpl) (i : Nat) : HostWrite :=
  .cpl (Fin.ofNat 4 n) i (r.cqBase + BitVec.ofNat 64 (16 * i)) (cplBytes c)

theorem writeCpl_eq (n : Nat) (c : Cpl) (s : State) :
    writeCpl n c s = modRing n (wroteRing 1) (hostOut (cplWrite n (ringOf s n) c (ringOf s n).cqTail) s) := by
  unfold writeCpl
  exact modRing_congr rfl

/-- The entries of ring n from its tail on, in their order. -/
def cplWrites (n : Nat) (r : Ring) (cs : List Cpl) : List HostWrite :=
  cs.zipIdx.map (fun c => cplWrite n r c.1 ((r.cqTail + c.2) % ringSize r.cqSize))

theorem cplWrites_concat (n : Nat) (r : Ring) (cs : List Cpl) (c : Cpl) :
    cplWrites n r (cs ++ [c]) = cplWrites n r cs ++ [cplWrite n r c ((r.cqTail + cs.length) % ringSize r.cqSize)] := by
  simp [cplWrites, List.zipIdx_append]

/-- The state with writes added to those that have left. -/
def hostOuts (ws : List HostWrite) (s : State) : State := { s with out.host := s.out.host ++ ws }

@[simp] theorem ringOf_hostOuts (ws : List HostWrite) (s : State) (m : Nat) : ringOf (hostOuts ws s) m = ringOf s m := rfl

/-- The state after entries of ring n are written from its tail on (`foldl_writeCpl`). -/
def wroteCpls (n : Nat) (cs : List Cpl) (s : State) : State :=
  modRing n (wroteRing cs.length) (hostOuts (cplWrites n (ringOf s n) cs) s)

theorem wroteCpls_nil {n : Nat} {s : State} (h : (ringOf s n).cqTail < ringSize (ringOf s n).cqSize) :
    wroteCpls n [] s = s := by
  have houts : hostOuts (cplWrites n (ringOf s n) []) s = s := by simp [hostOuts, cplWrites]
  calc wroteCpls n [] s
    _ = modRing n (wroteRing 0) s := congrArg (modRing n (wroteRing 0)) houts
    _ = modRing n (fun r => r) s := modRing_congr (wroteRing_zero h)
    _ = s := modRing_id n s

theorem ringOf_wroteCpls {n : Nat} {s : State} (h : n < s.host.rings.length) (cs : List Cpl) (m : Nat) :
    ringOf (wroteCpls n cs s) m = if m = n then wroteRing cs.length (ringOf s n) else ringOf s m :=
  ringOf_modRing n m _ _ h

/-- One more entry goes to the place after those written. -/
theorem writeCpl_wroteCpls {n : Nat} {s : State} (h : n < s.host.rings.length) (cs : List Cpl) (c : Cpl) :
    writeCpl n c (wroteCpls n cs s) = wroteCpls n (cs ++ [c]) s := by
  have hring : ringOf (wroteCpls n cs s) n = wroteRing cs.length (ringOf s n) := (ringOf_wroteCpls h cs n).trans (if_pos rfl)
  have houts : hostOut (cplWrite n (wroteRing cs.length (ringOf s n)) c (wroteRing cs.length (ringOf s n)).cqTail)
      (hostOuts (cplWrites n (ringOf s n) cs) s) = hostOuts (cplWrites n (ringOf s n) (cs ++ [c])) s := by
    simp [hostOut, hostOuts, cplWrites_concat, cplWrite, wroteRing]
  rw [writeCpl_eq, hring]
  change modRing n (wroteRing 1) (modRing n (wroteRing cs.length) (hostOut _ (hostOuts _ s))) = _
  rw [modRing_modRing, houts]
  simp only [wroteRing_wroteRing, wroteCpls, List.length_append, List.length_singleton]

theorem foldl_writeCpl {n : Nat} {s : State} (hn : n < s.host.rings.length)
    (htail : (ringOf s n).cqTail < ringSize (ringOf s n).cqSize) (cs : List Cpl) :
    cs.foldl (fun s c => writeCpl n c s) s = wroteCpls n cs s := by
  induction cs using List.reverseRecOn with
  | nil => exact (wroteCpls_nil htail).symm
  | append_singleton cs c ih => rw [List.foldl_concat, ih, writeCpl_wroteCpls hn]

/-! ### The shadow word and the interrupt -/

/-- The shadow word of a ring that has one (R69). -/
def shadowWrite (r : Ring) : List HostWrite := if r.shadow = 0 then [] else [.mem r.shadow (leBytes 4 r.cqTail)]

theorem shadow_written (r : Ring) (s : State) :
    (if r.shadow = 0 then s else hostMem r.shadow.toNat (leBytes 4 r.cqTail) s) = hostOuts (shadowWrite r) s := by
  unfold shadowWrite
  split
  · simp [hostOuts]
  · simp [hostOuts, hostMem, hostOut, leBytes]

/-- The interrupt of the completions: one of them asks for it, and its vector is not masked. -/
def irqWrite (s : State) (r : Ring) (cs : List Cpl) : List HostWrite :=
  if cs.any (fun c => c.irq) = true ∧ (kget (2 ^ 96 : BitVec 128) s.host.msix r.irq.toNat).getLsbD 96 = false then [.msix r.irq]
  else []

/-- The state after the interrupt of the completions is raised. -/
def raiseIrq (r : Ring) (cs : List Cpl) (s : State) : State := if cs.any (fun c => c.irq) then sendMsix r.irq s else s

theorem raiseIrq_rings (r : Ring) (cs : List Cpl) (s : State) : (raiseIrq r cs s).host.rings = s.host.rings := by
  unfold raiseIrq
  split
  · rw [sendMsix_frame]
  · rfl

@[simp] theorem ringOf_raiseIrq (r : Ring) (cs : List Cpl) (s : State) (m : Nat) : ringOf (raiseIrq r cs s) m = ringOf s m := by
  simp only [ringOf, raiseIrq_rings]

theorem sendMsix_out_host (v : BitVec 6) (s : State) : (sendMsix v s).out.host = s.out.host ++
    if (kget (2 ^ 96 : BitVec 128) s.host.msix v.toNat).getLsbD 96 = false then [.msix v] else [] := by
  unfold sendMsix
  dsimp only
  cases h : (kget (2 ^ 96 : BitVec 128) s.host.msix v.toNat).getLsbD 96
  · rfl
  · exact (List.append_nil _).symm

theorem raiseIrq_out_host (r : Ring) (cs : List Cpl) (s : State) :
    (raiseIrq r cs s).out.host = s.out.host ++ irqWrite s r cs := by
  unfold raiseIrq irqWrite
  cases cs.any (fun c => c.irq)
  · exact (List.append_nil _).symm
  · simpa only [if_true, true_and] using sendMsix_out_host r.irq s

/-! ### All completions of a ring -/

/-- The completions that ring n has gathered. -/
def gatheredCpls (n : Nat) (s : State) : List Cpl := (s.ctl.cpls.filter (fun e => e.1 == n)).map (fun e => e.2)

/-- The order of R69: entries, shadow word, interrupt; then a draining ring may go idle (R66). -/
theorem flushRing_eq (n : Nat) (s : State) :
    flushRing n s =
      if (gatheredCpls n s).isEmpty then s
      else
        let t := (gatheredCpls n s).foldl (fun s c => writeCpl n c s) s
        modRing n ringSettle (raiseIrq (ringOf t n) (gatheredCpls n s) (hostOuts (shadowWrite (ringOf t n)) t)) := by
  simp only [← shadow_written]
  rfl

theorem flushRing_of_gathered {n : Nat} {s : State} (hn : n < s.host.rings.length)
    (htail : (ringOf s n).cqTail < ringSize (ringOf s n).cqSize) (hcs : gatheredCpls n s ≠ []) :
    let cs := gatheredCpls n s
    let r := wroteRing cs.length (ringOf s n)
    flushRing n s = modRing n ringSettle (raiseIrq r cs (hostOuts (shadowWrite r) (wroteCpls n cs s))) := by
  intro cs r
  have hring : ringOf (wroteCpls n cs s) n = r := (ringOf_wroteCpls hn cs n).trans (if_pos rfl)
  rw [flushRing_eq, if_neg (mt List.isEmpty_iff.1 hcs), foldl_writeCpl hn htail]
  dsimp only
  rw [hring]

theorem ringOf_flushRing {n : Nat} {s : State} (hn : n < s.host.rings.length)
    (htail : (ringOf s n).cqTail < ringSize (ringOf s n).cqSize) (hcs : gatheredCpls n s ≠ []) (m : Nat) :
    ringOf (flushRing n s) m =
      if m = n then ringSettle (wroteRing (gatheredCpls n s).length (ringOf s n)) else ringOf s m := by
  have hlen (r : Ring) (ws : List HostWrite) :
      n < (raiseIrq r (gatheredCpls n s) (hostOuts ws (wroteCpls n (gatheredCpls n s) s))).host.rings.length := by
    simpa [raiseIrq_rings, wroteCpls, hostOuts] using hn
  rw [flushRing_of_gathered hn htail hcs, ringOf_modRing _ _ _ _ (hlen _ _)]
  simp only [ringOf_raiseIrq, ringOf_hostOuts, ringOf_wroteCpls hn, if_true]
  split <;> rfl

theorem ringSettle_cqTail (r : Ring) : (ringSettle r).cqTail = r.cqTail := by
  unfold ringSettle
  split <;> rfl

theorem ringSettle_promised (r : Ring) : (ringSettle r).promised = r.promised := by
  unfold ringSettle
  split <;> rfl

/-- Settles O52: the flush of a ring writes the entries from its tail on, the shadow word and the interrupt. -/
theorem completionsAreWrittenInOrder : Obligations.CompletionsAreWrittenInOrder := by
  unfold Obligations.CompletionsAreWrittenInOrder
  intro n s hn4 hlen r cs size hcs htail _ entries tail shadow masked irq
  have hn : n < s.host.rings.length := hlen ▸ hn4
  have hflush := flushRing_of_gathered hn htail hcs
  have hring := ringOf_flushRing hn htail hcs
  refine ⟨?_, ?_, ?_, fun m hm => (hring m).trans (if_neg hm)⟩
  · rw [hflush, modRing_out, raiseIrq_out_host]
    rfl
  · rw [hring, if_pos rfl, ringSettle_cqTail]
    rfl
  · rw [hring, if_pos rfl, ringSettle_promised]
    rfl

end Sys2Proof.Machine
end

section
/-! PROOF. One step (R457): the front command of the queue runs, ends with the fault pins at their level, and the reset state
meets the invariants. -/

namespace Sys2Proof.Machine

open Sys2Proof

/-- Settles O44: by the two cases of the queue; no word spells a command. -/
theorem stepRunsTheFrontCommand : Obligations.StepRunsTheFrontCommand := by
  unfold Obligations.StepRunsTheFrontCommand
  refine ⟨fun _ _ _ => rfl, fun s hidle => ?_, fun _ _ => rfl, fun _ _ _ => rfl⟩
  unfold step
  rw [hidle]

/-- Every arm of the dispatch is complete. -/
theorem exec_finishes (i : Instr) (s : State) : ∃ t, exec i s = finish t := by
  cases i <;> exact ⟨_, rfl⟩

/-- Settles O45: an idle step changes nothing, and any other ends with `finish`, which settles the pins. -/
theorem everyStepGoesOnWithSettledPins : Obligations.EveryStepGoesOnWithSettledPins := by
  unfold Obligations.EveryStepGoesOnWithSettledPins
  intro s
  unfold StepSafe step
  cases s.pending with
  | nil => exact ⟨s, rfl, fun h => absurd rfl h⟩
  | cons c rest =>
    obtain ⟨t, ht⟩ := exec_finishes c { s with pending := rest }
    exact ⟨settle t, ht, fun _ => settled_settle t⟩

/-- Settles O60: the lists of the reset state are empty, and its rings are reset. -/
theorem resetMeetsTheInvariants : Obligations.ResetMeetsTheInvariants := by
  unfold Obligations.ResetMeetsTheInvariants
  refine ⟨reset_settled, reset_memWf, .nil, rfl, ?_, Nat.zero_le _, .nil, Nat.zero_le _⟩
  decide

end Sys2Proof.Machine
end

section
/-! PROOF. Resolution of a sample (R43 to R46): the inversion of one input's resolution, and by induction over the inputs that
each gets one verdict and that the claims of accepted inputs stay apart. -/

namespace Sys2Proof.Machine

open Sys2Proof

/-! ### An accepted input has no winner against it -/

/-- An input whose objects another source has claimed is not accepted. -/
theorem judgeCmd_of_winner {r : Resolving} {op : Op} {p : CmdPkt} {src k : Nat}
    (h : winner r.claimed src (op.claims r.v p) = some k) : (judgeCmd r op p src).1 ≠ .accepted := by
  simp only [judgeCmd, h]
  split_ifs <;> simp

theorem judgeStep_of_winner {r : Resolving} {m : Multi} {src k : Nat}
    (h : winner r.claimed src (stepClaims r.v m) = some k) : judgeStep r m src ≠ .accepted := by
  simp only [judgeStep, h]
  split_ifs <;> simp

theorem judgeTimed_of_winner {r : Resolving} {n k : Nat}
    (h : winner r.claimed (16 + n) (timedClaims r.v n) = some k) : (judgeTimed r n).1 ≠ .accepted := by
  simp only [judgeTimed, h]
  split_ifs <;> simp

theorem contend_of_winner {r : Resolving} {i : Input} {k : Nat}
    (h : winner r.claimed (srcOf r.v i) (inputClaims r.v i) = some k) : contend r i ≠ .accepted := by
  simp [contend, h]

theorem winner_nil (cl : Claimed) (src : Nat) : winner cl src [] = none := rfl

theorem judge_of_winner {r : Resolving} {i : Input} {k : Nat} (hrank : ¬ i.rank ≤ 1)
    (h : winner r.claimed (srcOf r.v i) (inputClaims r.v i) = some k) : (judge r i).1 ≠ .accepted := by
  have hcontend := contend_of_winner h
  unfold judge
  rw [if_neg hrank]
  cases hb : i.body with
  | cmd code p bufs =>
    simp only [inputClaims, hb] at h
    dsimp only
    cases hop : opOf code with
    | none => simp
    | some op =>
      rw [hop] at h
      simpa using judgeCmd_of_winner h
  | step slot =>
    simp only [inputClaims, hb] at h
    cases hm : multiOf r.v slot with
    | none => simp [hm, winner_nil] at h
    | some m =>
      rw [hm] at h
      simpa [hm] using judgeStep_of_winner h
  | timed n =>
    simp only [inputClaims, srcOf, hb] at h
    exact judgeTimed_of_winner h
  | autopilot loop o old new => dsimp only; split <;> simp [hcontend]
  | mirror e => dsimp only; split <;> simp [hcontend]
  | replay e => dsimp only; split <;> simp [hcontend]
  | reaction _ | order _ | peerClaim _ _ | takeover _ | pulseFall _ _ => exact hcontend

theorem judge_of_low_rank {r : Resolving} {i : Input} (h : i.rank ≤ 1) : judge r i = (.accepted, []) := if_pos h

/-! ### What the resolution of one input can do -/

/-- The resolution once an accepted input with its writes is taken in. -/
def acceptInput (i : Input) (ws : List (Obj × Nat)) (r : Resolving) : Resolving :=
  { r with
    v := (foresee i ws r.v).1
    claimed := r.claimed ++ (inputClaims r.v i).map (fun o => (o, i.rank, srcOf r.v i))
    out := r.out ++ [{ inp := i, verdict := .accepted, writes := ws, out := (foresee i ws r.v).2 }] }

/-- The resolution once an input has lost with a verdict. -/
def loseInput (i : Input) (d : Verdict) (r : Resolving) : Resolving :=
  { r with out := r.out ++ [{ inp := i, verdict := d, writes := [], out := none }] }

theorem resolveOne_of_gone {land : Option Nat} {all : List Input} {r : Resolving} {i : Input}
    (h : timedGone r.v i = true) : resolveOne land all r i = r := if_pos h

/-- An input that is still presented is accepted as `judge` says, or loses; rank 0 and 1 never lose. -/
theorem resolveOne_cases (land : Option Nat) (all : List Input) {r : Resolving} {i : Input} (h : timedGone r.v i = false) :
    (∃ ws, judge r i = (.accepted, ws) ∧ resolveOne land all r i = acceptInput i ws r)
      ∨ (∃ d, d ≠ .accepted ∧ ¬ i.rank ≤ 1 ∧ resolveOne land all r i = loseInput i d r) := by
  unfold resolveOne
  rw [if_neg (by simp [h])]
  split
  next hover =>
    have hrank : ¬ i.rank ≤ 1 := by
      intro hlow
      have : i.rank = 0 ∨ i.rank = 1 := by omega
      rcases this with h0 | h0 <;> simp [overtaken, h0] at hover
    exact .inr ⟨.superseded i.rank, by simp, hrank, rfl⟩
  next =>
    split
    next ws hj => exact .inl ⟨ws, hj, rfl⟩
    next d ws hd hj =>
      refine .inr ⟨d, hd, fun hlow => ?_, rfl⟩
      rw [judge_of_low_rank hlow] at hj
      cases hj
      exact hd rfl

/-! ### One verdict for each input -/

theorem resolveOne_presents {land : Option Nat} {all : List Input} {r : Resolving} {i : Input} (h : timedGone r.v i = false) :
    ∃ x, (resolveOne land all r i).out = r.out ++ [x] ∧ x.inp = i := by
  rcases resolveOne_cases land all h with ⟨ws, -, he⟩ | ⟨d, -, -, he⟩ <;> rw [he] <;> exact ⟨_, rfl, rfl⟩

theorem notTimed_of_gone {v : State} {i : Input} (h : timedGone v i = true) : notTimed i.body = false := by
  unfold timedGone at h
  cases hbody : i.body with
  | timed n => rfl
  | _ => rw [hbody] at h; cases h

/-- The verdicts of a list of inputs: one for each, in their order, without the cancelled timed actions. -/
theorem foldl_resolveOne_out (land : Option Nat) (all is : List Input) (r : Resolving) :
    ∃ js, (is.foldl (resolveOne land all) r).out.map (fun x => x.inp) = r.out.map (fun x => x.inp) ++ js ∧ js.Sublist is
      ∧ js.filter (fun i => notTimed i.body) = is.filter (fun i => notTimed i.body) := by
  induction is generalizing r with
  | nil => exact ⟨[], by simp⟩
  | cons i is ih =>
    rw [List.foldl_cons]
    cases hg : timedGone r.v i with
    | true =>
      rw [resolveOne_of_gone hg]
      obtain ⟨js, hout, hsub, hkept⟩ := ih r
      exact ⟨js, hout, hsub.cons i, by simp [hkept, notTimed_of_gone hg]⟩
    | false =>
      obtain ⟨js, hout, hsub, hkept⟩ := ih (resolveOne land all r i)
      obtain ⟨x, hx, hinp⟩ := resolveOne_presents (land := land) (all := all) hg
      refine ⟨i :: js, ?_, hsub.cons_cons i, ?_⟩
      · rw [hout, hx]
        simp [hinp]
      · simp [List.filter_cons, hkept]

/-- Settles O47: by `resolveOne_cases` for one input, and by induction over the inputs for all of them. -/
theorem resolutionJudgesEveryInputOnce : Obligations.ResolutionJudgesEveryInputOnce := by
  unfold Obligations.ResolutionJudgesEveryInputOnce
  refine ⟨fun land is r => foldl_resolveOne_out land is is r, fun _ _ _ _ hg => resolveOne_presents hg,
    fun _ _ _ _ hg => resolveOne_of_gone hg, fun base all r i hlow hg => ?_, fun base all r i x hx hd => ?_⟩
  · rcases resolveOne_cases base all hg with ⟨ws, -, he⟩ | ⟨d, -, hrank, -⟩
    · rw [he]
      exact ⟨_, rfl, rfl, rfl⟩
    · exact absurd hlow hrank
  · cases hg : timedGone r.v i with
    | true =>
      rw [resolveOne_of_gone hg] at hx
      simp at hx
    | false =>
      rcases resolveOne_cases base all hg with ⟨ws, -, he⟩ | ⟨d, -, -, he⟩ <;> rw [he] at hx ⊢
      · obtain rfl : _ = x := by simpa [acceptInput] using hx
        exact absurd rfl hd
      · obtain rfl : _ = x := by simpa [loseInput] using hx
        exact ⟨rfl, rfl, rfl⟩

/-! ### Claims stay apart -/

/-- The claims of an accepted input join those before it: what it meets of another source, it may. -/
theorem apart_acceptInput {i : Input} {ws : List (Obj × Nat)} {r : Resolving} (hj : judge r i = (.accepted, ws))
    (h : Apart r.claimed) : Apart (acceptInput i ws r).claimed := by
  unfold Apart acceptInput
  refine List.pairwise_append.2 ⟨h, ?_, ?_⟩
  · refine List.pairwise_map.2 (List.pairwise_of_forall fun _ _ hsrc => absurd rfl hsrc)
  · intro c hc e he hsrc hmeet
    obtain ⟨o, ho, rfl⟩ := List.mem_map.1 he
    by_contra hrank
    have hwin : winner r.claimed (srcOf r.v i) (inputClaims r.v i) = none :=
      Option.eq_none_iff_forall_ne_some.2 fun k hk => judge_of_winner hrank hk (by rw [hj])
    exact winner_none hwin c hc o ho hsrc hmeet

theorem apart_resolveOne {land : Option Nat} {all : List Input} {r : Resolving} (i : Input) (h : Apart r.claimed) :
    Apart (resolveOne land all r i).claimed := by
  cases hg : timedGone r.v i with
  | true => rwa [resolveOne_of_gone hg]
  | false =>
    rcases resolveOne_cases land all hg with ⟨ws, hj, he⟩ | ⟨d, -, -, he⟩ <;> rw [he]
    · exact apart_acceptInput hj h
    · exact h

theorem apart_foldl_resolveOne (land : Option Nat) (all is : List Input) {r : Resolving} (h : Apart r.claimed) :
    Apart (is.foldl (resolveOne land all) r).claimed := by
  induction is generalizing r with
  | nil => exact h
  | cons i is ih => exact ih (apart_resolveOne i h)

/-- Settles O46: by induction over the inputs, each of which keeps the claims apart. -/
theorem resolutionKeepsClaimsApart : Obligations.ResolutionKeepsClaimsApart := by
  unfold Obligations.ResolutionKeepsClaimsApart
  exact fun base is _ h => apart_foldl_resolveOne base is is h

end Sys2Proof.Machine
end

section
/-! PROOF. The checks of a command (R72, R73) and what follows them: a refusal, the scheduled-command store (R38, R39), the
exit from a sleep state (R403), or the judgement at the boundary (R56, R78). -/

namespace Sys2Proof.Machine

open Sys2Proof

/-! ### The checks in their order -/

theorem checkCmd_noBuffers {op : Op} {p : CmdPkt} {s q : State} (hearly : firstFailed op p s = none)
    (hbufs : takePayload (payloadLen op p) s = (none, q)) : checkCmd op p s = (.refused stNOBUF, q) := by
  unfold payloadLen at hbufs
  unfold checkCmd
  simp only [firstFailed_eq, hearly, hbufs]

theorem checkCmd_late {op : Op} {p : CmdPkt} {s q : State} {bufs : List Nat} {st : Nat} (hearly : firstFailed op p s = none)
    (hbufs : takePayload (payloadLen op p) s = (some bufs, q)) (hlate : lateCheck op p q = some st) :
    checkCmd op p s = (.refused st, freePayload bufs q) := by
  unfold payloadLen at hbufs
  unfold checkCmd
  simp only [firstFailed_eq, hearly, hbufs, hlate]

theorem checkCmd_held {op : Op} {p : CmdPkt} {s q : State} {bufs : List Nat} (hearly : firstFailed op p s = none)
    (hbufs : takePayload (payloadLen op p) s = (some bufs, q)) (hlate : lateCheck op p q = none) (htarget : p.target ≠ 0) :
    checkCmd op p s = (.held, { q with
      ctl.sched := q.ctl.sched ++ [{ code := op.code, p := setPriv q p, target := fixOf p.target.toNat, bufs := bufs,
                                     ord := q.ctl.serial }]
      ctl.serial := q.ctl.serial + 1 }) := by
  unfold payloadLen at hbufs
  unfold checkCmd
  simp only [firstFailed_eq, hearly, hbufs, hlate, if_neg htarget]

/-- The late checks of R72 as one status; 0 where all pass. -/
def lateStatus (op : Op) (p : CmdPkt) (q : State) : Nat :=
  if p.target ≠ 0 ∧ (targetDist p q = 0 ∨ 2 ^ 21 ≤ targetDist p q) then stSTALE
  else if p.target ≠ 0 ∧ 4096 ≤ q.ctl.sched.length then stBUSY
  else if op.isMulti = true ∧ 16 ≤ multiTaken q then stBUSY
  else if op.arg q p ≠ 0 then op.arg q p
  else if missesSample p q = true then stSTALE
  else 0

theorem lateCheck_eq (op : Op) (p : CmdPkt) (q : State) :
    lateCheck op p q = if lateStatus op p q = 0 then none else some (lateStatus op p q) := by
  unfold lateCheck lateStatus
  simp only [Bool.and_eq_true, Bool.or_eq_true, decide_eq_true_eq]
  split_ifs <;> simp_all [stSTALE, stBUSY]

theorem lateStatus_zero {op : Op} {p : CmdPkt} {q : State} (hdist : targetDist p q ≠ 0) (hnear : targetDist p q < 2 ^ 21)
    (hroom : q.ctl.sched.length < 4096) (hmulti : op.isMulti = true → multiTaken q < 16) (harg : op.arg q p = 0)
    (hsample : missesSample p q = false) : lateStatus op p q = 0 := by
  have hstale : ¬(p.target ≠ 0 ∧ (targetDist p q = 0 ∨ 2 ^ 21 ≤ targetDist p q)) := by omega
  have hfull : ¬(p.target ≠ 0 ∧ 4096 ≤ q.ctl.sched.length) := by omega
  have hslots : ¬(op.isMulti = true ∧ 16 ≤ multiTaken q) := fun ⟨hm, h16⟩ => by have := hmulti hm; omega
  unfold lateStatus
  rw [if_neg hstale, if_neg hfull, if_neg hslots, if_neg (not_not.2 harg), hsample]
  rfl

/-! ### What a presented command leaves -/

theorem runCommand_refused {op : Op} {p : CmdPkt} {s q : State} {st : Nat}
    (h : checkCmd op p (promise p.src s) = (.refused st, q)) :
    runCommand op p s = flushCpls (complete op.code p (refusal st) q.clock.fix q) := by
  unfold runCommand
  rw [h]

theorem runCommand_held {op : Op} {p : CmdPkt} {s q : State} (h : checkCmd op p (promise p.src s) = (.held, q)) :
    runCommand op p s = q := by
  unfold runCommand
  rw [h]

theorem runCommand_now {op : Op} {p : CmdPkt} {s q : State} {bufs : List Nat}
    (h : checkCmd op p (promise p.src s) = (.now bufs, q)) :
    runCommand op p s = if needsExit q op.code then holdForExit op.code p bufs q else flushCpls (applyCmd op p bufs q) := by
  unfold runCommand
  rw [h]

theorem goes_of_runCommand {i : Instr} {op : Op} {p : CmdPkt} {s t : State} (hop : ringOp i = some (op, p))
    (hrun : runCommand op p s = t) : Goes i s t := by
  rw [Goes, exec_ringOp hop, hrun]
  rfl

theorem applyCmd_denied {op : Op} {p : CmdPkt} {bufs : List Nat} {q : State}
    (h : op.tenant q p = false ∨ leaseBlocks q (ownerOf p.src) (op.touch q p) = true) :
    applyCmd op p bufs q = finishCmd op p bufs (ended op stDENIED) q := by
  unfold applyCmd
  rcases h with h | h <;> simp [h]

theorem refusal_noBuffers : refusal stNOBUF = outErr stNOBUF := rfl

/-- Settles O49: each check that fails ends the command with its completion. -/
theorem refusedCommandsOnlyComplete : Obligations.RefusedCommandsOnlyComplete := by
  unfold Obligations.RefusedCommandsOnlyComplete
  refine ⟨fun i op p s st hop hfail => ?_, fun i op p s q hop hearly hbufs => ?_, fun i op p s bufs q hop hearly hbufs => ?_⟩
  · refine goes_of_runCommand hop ((runCommand_refused (checkCmd_early hfail)).trans ?_)
    cases p.src <;> rfl
  · rw [← refusal_noBuffers]
    exact goes_of_runCommand hop (runCommand_refused (checkCmd_noBuffers hearly hbufs))
  · intro st hst
    have hlate : lateCheck op p q = some st := (lateCheck_eq op p q).trans (if_neg hst)
    exact goes_of_runCommand hop (runCommand_refused (checkCmd_late hearly hbufs hlate))

/-- Settles O50: no late check fails, and the checks hold a command that has a target. -/
theorem futureTargetsAreHeld : Obligations.FutureTargetsAreHeld := by
  unfold Obligations.FutureTargetsAreHeld
  intro i op p s bufs q hop hearly hbufs htarget hdist hnear hroom hmulti harg hsample
  have hlate : lateCheck op p q = none :=
    (lateCheck_eq op p q).trans (if_pos (lateStatus_zero hdist hnear hroom hmulti harg hsample))
  exact goes_of_runCommand hop (runCommand_held (checkCmd_held hearly hbufs hlate htarget))

/-- Settles O51: what the boundary refuses is DENIED, and what needs a sleeping domain waits. -/
theorem leasesAndTenantsAreJudgedAtTheBoundary : Obligations.LeasesAndTenantsAreJudgedAtTheBoundary := by
  unfold Obligations.LeasesAndTenantsAreJudgedAtTheBoundary
  refine ⟨fun i op p s bufs q hop hnow hawake hdenied => ?_, fun i op p s bufs q hop hnow hasleep => ?_⟩
  · refine goes_of_runCommand hop ((runCommand_now hnow).trans ?_)
    rw [hawake, applyCmd_denied hdenied]
    rfl
  · refine goes_of_runCommand hop ((runCommand_now hnow).trans ?_)
    rw [hasleep]
    rfl

end Sys2Proof.Machine
end

section
/-! PROOF. The bytes of the HBM: each region has its own addresses, so a write is read back and reaches no other byte. -/

namespace Sys2Proof.Machine

open Sys2Proof

/-- Bytes that a write does not reach read as before. -/
theorem memReadN_memWriteN_other {m : List Host.Cell} (h : memWf m = true) {a c n : Nat} {bs : Bytes}
    (hc : c + n ≤ a ∨ a + bs.length ≤ c) : memReadN (memWriteN m a bs) c n = memReadN m c n := by
  induction n generalizing c with
  | zero => rfl
  | succ n ih =>
    unfold memReadN
    rw [memByte_memWriteN_other h a c bs (by omega), ih (by omega)]

/-- Ranges of two regions, or of one region without a common byte, have no address in common. -/
theorem hbmKey_apart {region region' a a' n k : Nat} (hn : a' + n ≤ 2 ^ 40) (hk : a + k ≤ 2 ^ 40)
    (h : region' ≠ region ∨ a' + n ≤ a ∨ a + k ≤ a') :
    hbmKey region' a' + n ≤ hbmKey region a ∨ hbmKey region a + k ≤ hbmKey region' a' := by
  unfold hbmKey
  omega

/-- Settles O54: by the rules of reading after writing. -/
theorem hbmReadsBackWhatWasWritten : Obligations.HbmReadsBackWhatWasWritten := by
  unfold Obligations.HbmReadsBackWhatWasWritten
  intro s region a bs hfit hwf
  exact ⟨hbmWrite_wf hwf region a bs, memReadN_memWriteN hwf _ bs,
    fun region' a' n hn happart => memReadN_memWriteN_other hwf (hbmKey_apart hn hfit happart)⟩

end Sys2Proof.Machine
end

section
/-! PROOF. The commands of the system group (Tables 2.5, 3.7, 3.9): what the body of each answers. -/

namespace Sys2Proof.Machine

open Sys2Proof

/-! ### How a body's reply ends a ring or in-band command -/

/-- A command whose answer has a payload that fits. -/
theorem goes_data {i : Instr} {op : Op} {p : CmdPkt} {s q t : State} {bufs : List Nat} {o : CmdOut}
    (hop : ringOp i = some (op, p)) (h : Admitted op p s bufs q) (hf : Fits p o) (hb : op.body p bufs q = (t, .done o)) :
    Goes i s (answer op p bufs o t) :=
  goes_answer (exec_ringOp hop s) h hb hf

/-- A command whose answer has no payload. -/
theorem goes_plain {i : Instr} {op : Op} {p : CmdPkt} {s q t : State} {bufs : List Nat} {o : CmdOut}
    (hop : ringOp i = some (op, p)) (h : Admitted op p s bufs q) (hdata : o.data = []) (hb : op.body p bufs q = (t, .done o)) :
    Goes i s (answer op p bufs o t) :=
  goes_data hop h (by simp [Fits, hdata]) hb

/-- A command that stays under way. -/
theorem goes_multi {i : Instr} {op : Op} {p : CmdPkt} {s q t : State} {bufs : List Nat} {m : Multi}
    (hop : ringOp i = some (op, p)) (h : Admitted op p s bufs q) (hb : op.body p bufs q = (t, .multi m)) :
    Goes i s (underWay m t) :=
  goes_underWay (exec_ringOp hop s) h hb

@[simp] theorem length_leBytes (n v : Nat) : (leBytes n v).length = n := by
  induction n generalizing v with
  | zero => rfl
  | succ n ih => exact congrArg (· + 1) (ih (v / 256))

/-! ### The system group -/

theorem inbandKeySet_body_set {p : CmdPkt} {bufs : List Nat} {q : State} (h : par p 17 1 ≠ 0) :
    let k : IbKey := { authority := par p 17 1, key := sliceB (payBytes p) 0 57,
                       tenants := dedupN (payTenants 64 (par p 18 2) p), seqHigh := 0 }
    opInbandKeySet.body p bufs q = ({ q with ctl.ibKeys := kput q.ctl.ibKeys (par p 16 1) k }, .done (outOpen [])) := by
  simp only [opInbandKeySet, actOp, if_neg h]

theorem inbandKeySet_body_clear {p : CmdPkt} {bufs : List Nat} {q : State} (h : par p 17 1 = 0) :
    let old := ((kfind q.ctl.ibKeys (par p 16 1)).map (fun k => k.seqHigh)).getD 0
    let k : IbKey := { authority := 0, key := [], tenants := [], seqHigh := old }
    opInbandKeySet.body p bufs q = ({ q with ctl.ibKeys := kput q.ctl.ibKeys (par p 16 1) k }, .done (outOpen [])) := by
  simp only [opInbandKeySet, actOp, if_pos h]

/-- Settles O1: each body answers as its definition says; INBAND_KEY_SET by its two forms. -/
theorem systemCommandsComplete : Obligations.SystemCommandsComplete := by
  unfold Obligations.SystemCommandsComplete
  refine ⟨fun p s q h hf => goes_data rfl h hf rfl, fun p s bufs q h => goes_plain rfl h rfl rfl,
    fun p s bufs q h hset => ?_, fun p s bufs q h hclear => ?_, fun p s bufs q h => goes_plain rfl h rfl rfl⟩
  · exact goes_plain rfl h rfl (inbandKeySet_body_set hset)
  · exact goes_plain rfl h rfl (inbandKeySet_body_clear hclear)

/-! ### Staging -/

theorem cfgCommit_body (p : CmdPkt) (bufs : List Nat) (q : State) :
    opCfgCommit.body p bufs q =
      ((commitNow (ownerOf p.src) (parGroup p) q).1, .done (commitNow (ownerOf p.src) (parGroup p) q).2) := rfl

theorem refusal_data (st : Nat) : (refusal st).data = [] := rfl

/-- Settles O2: CFG_STAGE by `cfgStage_of_ports`, CFG_COMMIT by its verdict, CFG_READ by where the value stands. -/
theorem stagingCommandsComplete : Obligations.StagingCommandsComplete := by
  unfold Obligations.StagingCommandsComplete
  refine ⟨fun p s bufs q h hown hroom => ?_, fun p s bufs q ws h hv => ?_, fun p s bufs q r h hv => ?_,
    fun p s bufs q h => goes_plain rfl h rfl rfl, fun p s bufs q h hport hforce hlen => ?_,
    fun p s bufs q e h hport hstaged hlen hfind => ?_, fun p s bufs q h hport hstaged hfind hlen => ?_⟩
  · rcases cfgStage_of_ports (fun e he => (hown e he).1) with ⟨hbusy, -⟩ | ⟨-, hfull, -⟩ | ⟨-, -, hrun⟩
    · exact absurd (fun e he => (hown e he).2) hbusy
    · exact absurd hfull (Nat.not_lt.2 hroom)
    · exact goes_cfgStage h hrun rfl
  · refine goes_plain rfl h rfl ((cfgCommit_body p bufs q).trans ?_)
    simp only [commitNow, hv]
  · refine goes_plain rfl h (refusal_data r) ((cfgCommit_body p bufs q).trans ?_)
    simp only [commitNow, hv]
  · refine goes_data rfl h (by simpa [Fits, outData] using hlen) ?_
    simp [opCfgRead, readOp, hport, hforce]
  · refine goes_data rfl h (by simpa [Fits, outData] using hlen) ?_
    simp [opCfgRead, readOp, hport, hstaged, hfind]
  · refine goes_data rfl h (by simpa [Fits, outData] using hlen) ?_
    simp [opCfgRead, readOp, hport, hstaged, hfind]

/-! ### Leases -/

theorem leaseTake_granted {p : CmdPkt} {q : State} (hfree : groupTaken q (ownerOf p.src) (parGroup p) = false)
    (hroom : (leaseOf q (ownerOf p.src) (parGroup p)).isSome ∨ q.ctl.leases.length < 256) :
    let e : FixNo := q.clock.fix + BitVec.ofNat 22 (par p 20 4)
    leaseTake p q = ({ q with ctl.leases := q.ctl.leases.filter (fun x => !(x.owner == ownerOf p.src && x.group == parGroup p))
      ++ [{ owner := ownerOf p.src, group := parGroup p, expiry := e }] }, outOk e.toNat) := by
  have hroom' : ((leaseOf q (ownerOf p.src) (parGroup p)).isNone && decide (256 ≤ q.ctl.leases.length)) = false := by
    rcases hroom with hown | hlen
    · simp [Option.isNone_eq_false_iff.2 hown]
    · simp [Nat.not_le.2 hlen]
  simp [leaseTake, hfree, hroom']

theorem leaseTake_taken {p : CmdPkt} {q : State} (htaken : groupTaken q (ownerOf p.src) (parGroup p) = true) :
    leaseTake p q = (q, outErr stBUSY) := if_pos htaken

/-- Settles O3: by the cases of LEASE_TAKE and of the own lease that LEASE_RELEASE finds. -/
theorem leaseCommandsComplete : Obligations.LeaseCommandsComplete := by
  unfold Obligations.LeaseCommandsComplete
  refine ⟨fun p s bufs q h hfree hroom => ?_, fun p s bufs q h htaken => ?_, fun p s bufs q h hown => ?_,
    fun p s bufs q h hnone => ?_, fun p s bufs q h hf => goes_data rfl h hf rfl⟩
  · refine goes_plain rfl h rfl ?_
    simp only [opLeaseTake, inertOp, leaseTake_granted hfree hroom]
  · refine goes_plain rfl h rfl ?_
    simp only [opLeaseTake, inertOp, leaseTake_taken htaken]
  · obtain ⟨l, hl⟩ := Option.isSome_iff_exists.1 hown
    refine goes_plain rfl h rfl ?_
    simp [opLeaseRelease, inertOp, hl]
  · refine goes_plain rfl h rfl ?_
    simp [opLeaseRelease, inertOp, hnone]

end Sys2Proof.Machine
end

section
/-! PROOF. The commands of the parser, the classifier and the pattern banks (Table 6.9): what the body of each answers. -/

namespace Sys2Proof.Machine

open Sys2Proof

/-! ### Entries, nodes and the rule-set swap -/

/-- Settles O5: each body by the state of the swap and the outcome of its loop over the payload. -/
theorem classifierCommandsComplete : Obligations.ClassifierCommandsComplete := by
  unfold Obligations.ClassifierCommandsComplete
  refine ⟨fun p s bufs q h hswap hbuild hbuilt => ?_, fun p s bufs q h hbusy => ?_, fun p s bufs q h hf => goes_data rfl h hf rfl,
    fun p s bufs q h hswap => ?_, fun p s bufs q h hf => goes_data rfl h hf rfl, fun p s bufs q t h hswap hloop => ?_,
    fun p s bufs q h hok hf => ?_, fun p s bufs q b h hswap hloop => ?_, fun p s bufs q h hf => goes_data rfl h hf rfl⟩
  · refine goes_waits (exec_rulesetSwap p s) h ?_
    simp [opRulesetSwap, hswap, hbuild, hbuilt]
  · refine goes_plain rfl h rfl ?_
    rcases hbusy with hbusy | hbusy <;> simp [opRulesetSwap, hbusy]
  · refine goes_plain rfl h rfl ?_
    simp [opParseNodeWrite, actOp, hswap]
  · refine goes_plain rfl h rfl ?_
    simp [opClsEntryWrite, actOp, hswap, hloop]
  · refine goes_data rfl h hf ?_
    have hgranted : ¬ (!clsReadOk q p) = true := by simp [hok]
    exact congrArg (fun x : State × CmdOut => (x.1, Reply.done x.2)) (if_neg hgranted)
  · refine goes_plain rfl h rfl ?_
    simp [opPmPatternWrite, actOp, hswap, hloop]

/-! ### The first step of a multi-Fix command (R80) -/

/-- What the step of a multi-Fix command answers at its first boundary (`multiOp_body`). -/
def stepReply (x : State × MStep) : State × Reply :=
  match x.2 with
  | .more m => (x.1, .multi m)
  | .fin o => (x.1, .done o)

theorem multiOp_body {code : Nat} {rings : List Nat} {dir : PayDir} {used : List (Nat × Nat)} {limit : Nat}
    {arg : State → CmdPkt → Nat} {tenant : State → CmdPkt → Bool} {claims : State → CmdPkt → List Obj}
    {touch : State → CmdPkt → List (List Nat × Bool)} {start : State → CmdPkt → Nat} {unit : Multi → State → State × MStep}
    {p : CmdPkt} {q : State} (hstart : start q p = 0) (bufs : List Nat) :
    let op := multiOp code rings dir used limit arg tenant claims touch start unit
    op.body p bufs q = stepReply (unit (started op p bufs limit [] q) q) := by
  dsimp only [multiOp]
  rw [if_neg (by simp [hstart])]
  unfold stepReply started
  split <;> rename_i heq <;> rw [heq]

theorem multiOp_body_turnedAway {code : Nat} {rings : List Nat} {dir : PayDir} {used : List (Nat × Nat)} {limit : Nat}
    {arg : State → CmdPkt → Nat} {tenant : State → CmdPkt → Bool} {claims : State → CmdPkt → List Obj}
    {touch : State → CmdPkt → List (List Nat × Bool)} {start : State → CmdPkt → Nat} {unit : Multi → State → State × MStep}
    {p : CmdPkt} {q : State} (hstart : start q p ≠ 0) (bufs : List Nat) :
    (multiOp code rings dir used limit arg tenant claims touch start unit).body p bufs q
      = (q, .done (outErrAt (start q p) 0)) := if_pos hstart

/-! ### PM_BUILD and PM_COPY (R156) -/

/-- A command that no pending swap and no run of another command turns away. -/
theorem pm_starts {q : State} {code : Nat} (hswap : swapHolds q = false) (hother : multiRunning q code = false) :
    (if swapHolds q || multiRunning q code then stBUSY else 0) = 0 := by
  simp [hswap, hother]

theorem pmBuild_body {p : CmdPkt} {q : State} (hswap : swapHolds q = false) (hother : multiRunning q 0x0332 = false)
    (bufs : List Nat) : opPmBuild.body p bufs q = stepReply (pmBuildUnit (started opPmBuild p bufs 262144 [] q) q) :=
  multiOp_body (pm_starts hswap hother) bufs

theorem pmCopy_body {p : CmdPkt} {q : State} (hswap : swapHolds q = false) (hother : multiRunning q 0x0331 = false)
    (bufs : List Nat) : opPmCopy.body p bufs q = stepReply (pmCopyUnit (started opPmCopy p bufs 262144 [] q) q) :=
  multiOp_body (pm_starts hswap hother) bufs

/-- Settles O6: the first step covers 1,024 patterns, which is all of a bank that is no longer. -/
theorem patternBuildCommandsComplete : Obligations.PatternBuildCommandsComplete := by
  unfold Obligations.PatternBuildCommandsComplete
  refine ⟨fun p s bufs q h hswap hother hlen hstates => ?_, fun p s bufs q h hswap hother hlen => ?_,
    fun p s bufs q h hswap hother hlen => ?_, fun p s bufs q h hswap hother hlen => ?_⟩
  · refine goes_plain rfl h rfl ((pmBuild_body hswap hother bufs).trans ?_)
    simp [stepReply, pmBuildUnit, started, Nat.not_lt.2 hlen, Nat.not_lt.2 hstates]
  · refine goes_multi rfl h ((pmBuild_body hswap hother bufs).trans ?_)
    simp [stepReply, pmBuildUnit, started, hlen]
  · refine goes_plain rfl h rfl ((pmCopy_body hswap hother bufs).trans ?_)
    simp [stepReply, pmCopyUnit, started, Nat.not_lt.2 hlen]
  · refine goes_multi rfl h ((pmCopy_body hswap hother bufs).trans ?_)
    simp [stepReply, pmCopyUnit, started, hlen]

end Sys2Proof.Machine
end

section
/-! PROOF. The commands of the flow table (Table 7.10): what the body of each answers where its bucket is free, and that a
locked bucket answers BUSY. -/

namespace Sys2Proof.Machine

open Sys2Proof

/-! ### A locked bucket (R183) -/

theorem insertBody_locked {p : CmdPkt} {q : State} (h : lockedFor q (payKey p) = true) :
    insertBody p q = (q, outErr stBUSY) := if_pos h

theorem deleteBody_locked {p : CmdPkt} {q : State} (h : lockedFor q (payKey p) = true) :
    deleteBody p q = (q, outErr stBUSY) := if_pos h

theorem modifyBody_locked {p : CmdPkt} {q : State} (h : lockedFor q (payKey p) = true) :
    modifyBody p q = (q, outErr stBUSY) := if_pos h

theorem flowInsert_body {p : CmdPkt} {q t : State} {o : CmdOut} (h : insertBody p q = (t, o)) (bufs : List Nat) :
    opFlowInsert.body p bufs q = (t, .done o) := by
  simp [opFlowInsert, recordOp, h]

theorem flowDelete_body {p : CmdPkt} {q t : State} {o : CmdOut} (h : deleteBody p q = (t, o)) (bufs : List Nat) :
    opFlowDelete.body p bufs q = (t, .done o) := by
  simp [opFlowDelete, recordOp, h]

theorem flowModify_body {p : CmdPkt} {q t : State} {o : CmdOut} (h : modifyBody p q = (t, o)) (bufs : List Nat) :
    opFlowModify.body p bufs q = (t, .done o) := by
  simp [opFlowModify, recordOp, h]

/-- Settles O8: the lock is asked for before anything else. -/
theorem lockedBucketAnswersBusy : Obligations.LockedBucketAnswersBusy := by
  unfold Obligations.LockedBucketAnswersBusy
  exact ⟨fun p s bufs q h hlock => goes_plain rfl h rfl (flowInsert_body (insertBody_locked hlock) bufs),
    fun p s bufs q h hlock => goes_plain rfl h rfl (flowDelete_body (deleteBody_locked hlock) bufs),
    fun p s bufs q h hlock => goes_plain rfl h rfl (flowModify_body (modifyBody_locked hlock) bufs)⟩

/-! ### A free bucket -/

theorem insertBody_placed {p : CmdPkt} {q v : State} {home h : Nat} (hlock : lockedFor q (payKey p) = false)
    (hseek : seekKey (payKey p) q = (false, v)) (hnew : findRec v (payKey p) = none) (hhome : newHome v (payKey p) = some home)
    (hplace : insertPlace v (payKey p) = some h) :
    let n := mirrorNew (specApply 0x1F (payBytes p) (newRec v (payKey p) home 0 0 0)) v
    insertBody p q = (flowEvent 2 (keySlice q (payKey p)) h n.1 (recWritten (payKey p) (placeRec h n.1) n.2), outOk h) := by
  simp [insertBody, hlock, hseek, hnew, hhome, hplace]

theorem insertBody_exists {p : CmdPkt} {q : State} (hlock : lockedFor q (payKey p) = false)
    (hold : (findRec (seekKey (payKey p) q).2 (payKey p)).isSome = true) :
    insertBody p q = ((seekKey (payKey p) q).2, outErr stEXISTS) := by
  simp [insertBody, hlock, hold]

theorem deleteBody_deleted {p : CmdPkt} {q : State} {h : Nat} {r : Bytes} (hlock : lockedFor q (payKey p) = false) :
    let v := (seekKey (payKey p) q).2
    findRec v (payKey p) = some (h, r) → rget rSTATE r ≠ 2 → recStandby v r = false → tombRoom v (hSlice v h) = true →
    deleteBody p q = (recWritten (payKey p) (fun s => unitRewritten h r (makeTomb h 4 s)) v, outOk h) := by
  intro v hfind hstate hhome hroom
  simp [deleteBody, hlock, v, hfind, hstate, hhome, hroom]

theorem modifyBody_modified {p : CmdPkt} {q : State} {h : Nat} {r : Bytes} (hlock : lockedFor q (payKey p) = false) :
    let v := (seekKey (payKey p) q).2
    findRec v (payKey p) = some (h, r) → rget rSTATE r ≠ 2 → recStandby v r = false →
    ((par p 16 2).testBit 15 = true → rget rGEN r = par p 18 2) →
    let n := genBump (specApply (par p 16 2) (payBytes p) r)
    let t := recWritten (payKey p) (fun s => unitRewritten h n (rewriteRec h n s)) v
    modifyBody p q = (if par p 16 2 % 32 = 0 then t else mirrorChange n t, outOk (rget rGEN n)) := by
  intro v hfind hstate hhome hgen
  have hother : ((par p 16 2).testBit 15 && decide (rget rGEN r ≠ par p 18 2)) = false := by
    simpa using hgen
  simp only [modifyBody, hlock, v, hfind, if_neg hstate, hhome, hother, Bool.false_eq_true, if_false]

theorem fin_of_ite {c : Prop} [Decidable c] {t u : State} {o o' : CmdOut} {m : Multi}
    (h : (if c then (t, MStep.fin o) else (u, MStep.more m)).2 = .fin o') : o = o' := by
  split at h
  · exact MStep.fin.inj h
  · cases h

/-- FLOW_PURGE_TENANT answers no payload. -/
theorem purgeUnit_fin_data {m : Multi} {s : State} {o : CmdOut} (h : (purgeUnit m s).2 = .fin o) : o.data = [] := by
  unfold purgeUnit at h
  exact fin_of_ite h ▸ rfl

theorem flowPurgeTenant_body (p : CmdPkt) (bufs : List Nat) (q : State) :
    opFlowPurgeTenant.body p bufs q = stepReply (purgeUnit (started opFlowPurgeTenant p bufs 524288 [] q) q) :=
  multiOp_body rfl bufs

/-- Settles O7: by the lemmas on the bodies; the reads answer by definition. -/
theorem flowCommandsComplete : Obligations.FlowCommandsComplete := by
  unfold Obligations.FlowCommandsComplete
  refine ⟨fun p s bufs q home h hadm hlock hseek hnew hhome hplace => ?_, fun p s bufs q hadm hlock hold => ?_,
    fun p s bufs q h r hadm hlock hfind hstate hhome hroom => ?_, fun p s bufs q h r hadm hlock hfind hstate hhome hgen => ?_,
    fun p s bufs q h hf => goes_data rfl h hf rfl, fun p s bufs q hadm => ?_, fun p s bufs q h hf => goes_data rfl h hf rfl,
    fun p s bufs q hadm hage hf => ?_, fun p s bufs q hadm hlock => ?_⟩
  · exact goes_plain rfl hadm rfl
      (flowInsert_body (insertBody_placed hlock (Prod.ext hseek rfl) hnew hhome hplace) bufs)
  · exact goes_plain rfl hadm rfl (flowInsert_body (insertBody_exists hlock hold) bufs)
  · exact goes_plain rfl hadm rfl (flowDelete_body (deleteBody_deleted hlock hfind hstate hhome hroom) bufs)
  · exact goes_plain rfl hadm rfl (flowModify_body (modifyBody_modified hlock hfind hstate hhome hgen) bufs)
  · have hbody := flowPurgeTenant_body p bufs q
    cases hunit : purgeUnit (started opFlowPurgeTenant p bufs 524288 [] q) q with
    | mk t step =>
      rw [hunit] at hbody
      cases step with
      | more m => exact goes_multi rfl hadm hbody
      | fin o => exact goes_plain rfl hadm (purgeUnit_fin_data (congrArg Prod.snd hunit)) hbody
  · refine goes_data rfl hadm hf ?_
    simp [opFlowEventRead, readOp, hage]
    rfl
  · refine goes_plain rfl hadm ?_ ?_
    · cases findRec (seekKey (payKey p) q).2 (payKey p) <;> rfl
    · cases hfind : findRec (seekKey (payKey p) q).2 (payKey p) <;> simp [opFlowFind, hlock, hfind]

end Sys2Proof.Machine
end

section
/-! PROOF. The commands of the Skippers and of their microcode (Tables 8.8a, 9.12): what the body of each answers. -/

namespace Sys2Proof.Machine

open Sys2Proof

/-! ### SKIP_RUN (R223) -/

theorem skipRun_body (p : CmdPkt) (bufs : List Nat) (q : State) :
    opSkipRun.body p bufs q = stepReply (runStart (started opSkipRun p bufs (fv q 4 4 0 16 16) [] q) q) := by
  change (match runStart _ q with | (s, .more m) => (s, Reply.multi m) | (s, .fin o) => (s, .done o)) = stepReply _
  unfold stepReply started
  split <;> rename_i heq <;> exact heq ▸ rfl

/-- The engine that a run takes: the first free one of the clusters that it names and that are enabled. -/
def freeEngineFor (q : State) (p : CmdPkt) : Option Nat :=
  ((runClusters p).filter (fun c => (fv q 4 1 0 0 32).testBit c)).findSome? (freeIn q)

theorem runStart_noEngine {m : Multi} {q : State} (h : freeEngineFor q m.p = none) :
    runStart m q = (q, .fin (outErrAt stBUSY 0)) := by
  unfold freeEngineFor at h
  unfold runStart
  rw [h]

theorem runStart_unnamed {m : Multi} {q : State} {id : Nat} (hfree : freeEngineFor q m.p = some id)
    (hnone : runHandle m.p = none) : runStart m q = runGo m id none q := by
  unfold freeEngineFor at hfree
  unfold runStart
  rw [hfree, hnone]

theorem runGo_of_valid {m : Multi} {id : Nat} {named : Option (Nat × Bytes)} {q : State} :
    let v := (ucFetch (id / 16) 2 (par m.p 16 1) q).2
    (ucFetch (id / 16) 2 (par m.p 16 1) q).1 = false → (entryAt v (id / 16) (par m.p 16 1)).testBit 14 = true →
    runGo m id named q = (runDispatch id m.slot m.p named v, .more { m with pos := 1 }) := by
  intro v hsound hvalid
  simp [runGo, v, hsound, hvalid]

/-- Settles O9: SKIP_RUN by the engine that it finds; the other bodies answer by definition. -/
theorem skipperCommandsComplete : Obligations.SkipperCommandsComplete := by
  unfold Obligations.SkipperCommandsComplete
  refine ⟨fun p s bufs q h hf => goes_data rfl h hf rfl, fun p s bufs q h hf => goes_data rfl h hf rfl,
    fun p s bufs q h hage hf => ?_, fun p s bufs q h hf => goes_data rfl h hf rfl,
    fun p s bufs q id h hnone hfree hsound hvalid => ?_, fun p s bufs q h hbusy => ?_,
    fun p s bufs q h => goes_plain rfl h rfl rfl⟩
  · refine goes_data rfl h hf ?_
    simp only [opSkipTelemRead, readOp, hage]
    rfl
  · refine goes_multi rfl h ((skipRun_body p bufs q).trans ?_)
    have hgo := runGo_of_valid (m := started opSkipRun p bufs (fv q 4 4 0 16 16) [] q) (named := none) hsound hvalid
    rw [runStart_unnamed (m := started opSkipRun p bufs (fv q 4 4 0 16 16) [] q) hfree hnone, hgo]
    rfl
  · refine goes_plain rfl h rfl ((skipRun_body p bufs q).trans ?_)
    rw [runStart_noEngine (m := started opSkipRun p bufs (fv q 4 4 0 16 16) [] q) hbusy]
    rfl

/-! ### UCODE_LOAD (R237) -/

theorem ucodeUnit_loads {m : Multi} {q : State} {sec : Bytes} {c : Nat} (hsec : ucSource q m.p = some sec)
    (hdue : ucStepDue m = true) (hnext : nextCluster m = some c) (hidle : clusterIdle q c = true)
    (hmore : (nextCluster { m with units := m.units + 1, pos := c + 1, aux := [1] }).isSome = true) :
    ucodeUnit m q = (loadCluster sec c q,
      .more { m with units := m.units + 1, pos := c + 1, aux := [1], lastFix := (loadCluster sec c q).clock.fix }) := by
  have hmore' (fix : FixNo) :
      (nextCluster { m with units := m.units + 1, pos := c + 1, aux := [1], lastFix := fix }).isNone = false :=
    Option.isNone_eq_false_iff.2 hmore
  simp only [ucodeUnit, hdue, hnext, hsec, hidle, hmore', Bool.not_true, Bool.false_eq_true, if_false]

theorem ucodeLoad_body {p : CmdPkt} {q : State} {sec : Bytes} (hsec : ucSource q p = some sec)
    (hsound : (bundlesFor sec (par p 16 4)).any (fun i => (bundleFault sec i).isSome) = false) (bufs : List Nat) :
    opUcodeLoad.body p bufs q = stepReply (ucodeUnit (started opUcodeLoad p bufs 8192 [0] q) q) := by
  simp only [opUcodeLoad, started, hsec, hsound, stepReply, Bool.false_eq_true, if_false]
  split <;> rename_i heq <;> rw [heq]

/-- Settles O10: UCODE_LOAD by the checks of its bundles; the reads answer by definition. -/
theorem microcodeCommandsComplete : Obligations.MicrocodeCommandsComplete := by
  unfold Obligations.MicrocodeCommandsComplete
  refine ⟨fun p s bufs q sec c h hsec hgood hdue hnext hidle hmore => ?_, fun p s bufs q sec h hsec hbad => ?_,
    fun p s bufs q h hf => goes_data rfl h hf rfl, fun p s bufs q h hf => goes_data rfl h hf rfl⟩
  · have hsound : (bundlesFor sec (par p 16 4)).any (fun i => (bundleFault sec i).isSome) = false := by
      simpa using hgood
    refine goes_multi rfl h ((ucodeLoad_body hsec hsound bufs).trans ?_)
    rw [ucodeUnit_loads (m := started opUcodeLoad p bufs 8192 [0] q) hsec hdue hnext hidle hmore]
    rfl
  · refine goes_plain rfl h rfl ?_
    simp only [opUcodeLoad, hsec, hbad, if_true]

end Sys2Proof.Machine
end

section
/-! PROOF. The commands of the switch core, the traffic manager, the buffer pools and the HBM (Tables 10.9a, 11.5, 12.6, 13.7):
what the body of each answers. -/

namespace Sys2Proof.Machine

open Sys2Proof

/-- Settles O11: CAPTURE_RING_SET by whether the ring can be set; the reads answer by definition. -/
theorem switchCommandsComplete : Obligations.SwitchCommandsComplete := by
  unfold Obligations.SwitchCommandsComplete
  refine ⟨fun p s bufs q h hf => goes_data rfl h hf rfl, fun p s bufs q h hf => goes_data rfl h hf rfl,
    fun p s bufs q h hf => goes_data rfl h hf rfl, fun p s bufs q r h hset => ?_, fun p s bufs q h hbusy => ?_⟩
  · refine goes_plain rfl h rfl ?_
    simp [opCaptureRingSet, actOp, hset]
  · refine goes_plain rfl h rfl ?_
    simp [opCaptureRingSet, actOp, hbusy]

/-- Settles O12: the reads answer by definition. -/
theorem trafficManagerReadsComplete : Obligations.TrafficManagerReadsComplete := by
  unfold Obligations.TrafficManagerReadsComplete
  exact ⟨fun p s bufs q h hf => goes_data rfl h hf rfl, fun p s bufs q h hf => goes_data rfl h hf rfl,
    fun p s bufs q h hf => goes_data rfl h hf rfl, fun p s bufs q h hf => goes_data rfl h hf rfl⟩

/-- Settles O13: POOL_ALLOC and POOL_FREE by what the pool answers, POOL_OWNER_READ by the owner. -/
theorem poolCommandsComplete : Obligations.PoolCommandsComplete := by
  unfold Obligations.PoolCommandsComplete
  refine ⟨fun p s bufs q h hf => goes_data rfl h hf rfl, fun p s bufs q h hf => goes_data rfl h hf rfl,
    fun p s bufs q r t h htake => ?_, fun p s bufs q t h htake => ?_, fun p s bufs q x t h hfree => ?_,
    fun p s bufs q o h howner => ?_, fun p s bufs q h hnone => ?_⟩
  · refine goes_plain rfl h rfl ?_
    simp [opPoolAlloc, actOp, htake]
  · refine goes_plain rfl h rfl ?_
    simp [opPoolAlloc, actOp, htake]
  · rcases x with _ | cause
    · refine goes_plain rfl h rfl ?_
      simp [opPoolFree, actOp, hfree]
    · refine goes_plain rfl h (by cases cause <;> rfl) ?_
      cases cause <;> simp [opPoolFree, actOp, hfree]
  · refine goes_plain rfl h rfl ?_
    simp [opPoolOwnerRead, readOp, howner]
  · refine goes_plain rfl h rfl ?_
    simp [opPoolOwnerRead, readOp, hnone]

/-- Settles O14: HBM_RETRAIN by the modes of its stack; the reads answer by definition. -/
theorem hbmCommandsComplete : Obligations.HbmCommandsComplete := by
  unfold Obligations.HbmCommandsComplete
  refine ⟨fun p s bufs q h hf => goes_data rfl h hf rfl, fun p s bufs q h hf => goes_data rfl h hf rfl,
    fun p s bufs q h hf => goes_data rfl h hf rfl, fun p s bufs q h hf => goes_data rfl h hf rfl,
    fun p s bufs q h hnone hdead => ?_, fun p s bufs q h hbusy => ?_⟩
  · have hnone' : (stackPcs (par p 16 1)).any (fun c => (pcOf q c).mode == .retraining) = false := by
      simpa using hnone
    refine goes_multi rfl h ?_
    simp only [opHbmRetrain, hnone', if_neg hdead]
    rfl
  · refine goes_plain rfl h rfl ?_
    simp only [opHbmRetrain, hbusy, if_true]

end Sys2Proof.Machine
end

section
/-! PROOF. The commands of metering, of pair operation, of Lodestar and of the power manager (Tables 14.8, 15.9, 16.11, 17.6):
what the body of each answers. -/

namespace Sys2Proof.Machine

open Sys2Proof

/-! ### Signatures (R344, R428) -/

theorem signStart_busy {code : Nat} {body : CmdPkt → State → State × CmdOut} {p : CmdPkt} {q : State}
    (h : signBusy q = true) (bufs : List Nat) : signStart code body p bufs q = (q, .done (outErrAt stBUSY 0)) := if_pos h

/-- The signature of a body that has answered is under way (R344). -/
theorem signStart_under_way {code : Nat} {body : CmdPkt → State → State × CmdOut} {p : CmdPkt} {q t : State} {o : CmdOut}
    (hfree : signBusy q = false) (hbody : body p q = (t, o)) (hok : o.status = 0) (bufs : List Nat) :
    let m : Multi := { slot := freeSlot t, code := code, p := p, count := 1, limit := 4096, units := 0,
                       lastFix := t.clock.fix, pos := o.data.length, aux := [o.result, leNat o.data], bufs := bufs }
    signStart code body p bufs q = (t, .multi m) := by
  simp [signStart, hfree, hbody, hok]

theorem billingSign_body : opBillingSign.body = signStart 0x0A02 signBody := rfl

theorem attest_body : opAttest.body = signStart 0x0E01 attestBody := rfl

/-- Settles O15: BILLING_SIGN by `signStart`, the other commands by the ring or block that they find. -/
theorem meteringCommandsComplete : Obligations.MeteringCommandsComplete := by
  unfold Obligations.MeteringCommandsComplete
  refine ⟨fun p s bufs q h hf => goes_data rfl h hf rfl, fun p s bufs q d h hinfo hf => ?_, fun p s bufs q h hnone => ?_,
    fun p s bufs q t o h hfree hbody hok => ?_, fun p s bufs q h hbusy => ?_, fun p s bufs q r h hset => ?_,
    fun p s bufs q b h hblock hkept hf => ?_⟩
  · refine goes_data rfl h hf ?_
    simp [opMeterCloseInfo, readOp, hinfo]
  · refine goes_plain rfl h rfl ?_
    simp [opMeterCloseInfo, readOp, hnone]
  · exact goes_multi rfl h (billingSign_body ▸ signStart_under_way hfree hbody hok bufs)
  · exact goes_plain rfl h rfl (billingSign_body ▸ signStart_busy hbusy bufs)
  · refine goes_plain rfl h rfl ?_
    simp [opBillRingSet, actOp, hset]
  · refine goes_data rfl h hf ?_
    simp [opBillBlockRead, readOp, hblock, hkept]

/-! ### Pair operation -/

/-- Settles O16: PAIR_ROLE and PAIR_RESYNC by the pair's state; the reads answer by definition. -/
theorem pairCommandsComplete : Obligations.PairCommandsComplete := by
  unfold Obligations.PairCommandsComplete
  refine ⟨fun p s bufs q h hf => goes_data rfl h hf rfl, fun p s bufs q h hpair => ?_, fun p s bufs q h hsolo => ?_,
    fun p s bufs q h hf => goes_data rfl h hf rfl, fun p s bufs q h hpaired => ?_, fun p s bufs q h hpair hnot => ?_,
    fun p s bufs q h hf => goes_data rfl h hf rfl⟩
  · refine goes_plain rfl h rfl ?_
    simp [opPairRole, hpair]
  · refine goes_plain rfl h rfl ?_
    simp [opPairRole, hsolo]
  · refine goes_plain rfl h rfl ?_
    simp [opPairResync, hpaired]
  · refine goes_plain rfl h rfl ?_
    simp [opPairResync, hpair, hnot]

/-! ### Lodestar -/

@[simp] theorem length_beBytes (n v : Nat) : (beBytes n v).length = n := by
  simp [beBytes]

/-- FAULT_INJECT_UNLOCK with a signature over the nonce that stands. -/
theorem faultInjectUnlock_body_tried {p : CmdPkt} {q : State} {n : BitVec 128} (hmode : par p 16 1 = 1)
    (hnonce : q.lod.nonce = some n) (bufs : List Nat) :
    opFaultInjectUnlock.body p bufs q =
      if Config.ed448Verify Config.factoryKey (ctxFT ++ uniqueIdB) (beBytes 16 n.toNat) (payBytes p) then
        ({ q with lod.nonce := none, lod.factory := true, lod.factoryEntries := q.lod.factoryEntries + 1 }, .done (outOk 0))
      else ({ q with lod.nonce := none }, .done (outErr stAUTH)) := by
  simp [opFaultInjectUnlock, hmode, hnonce]

/-- Settles O17: each command by the state, the nonce or the class that it finds. -/
theorem faultCommandsComplete : Obligations.FaultCommandsComplete := by
  unfold Obligations.FaultCommandsComplete
  refine ⟨fun p s bufs q h hf => ?_, fun p s bufs q h hon => ?_, fun p s bufs q h hoff => ?_,
    fun p s bufs q h hf => goes_data rfl h hf rfl, fun p s bufs q h hmode hlen => ?_, fun p s bufs q n h hmode hnonce => ?_,
    fun p s bufs q h hmode hnonce => ?_, fun p s bufs q c h hclass hmsg => ?_, fun p s bufs q c h hclass hword => ?_,
    fun p s bufs q h hf => goes_data rfl h hf rfl⟩
  · refine goes_data rfl h hf ?_
    simp [opFaultLogRead, readOp]
  · refine goes_plain rfl h rfl ?_
    simp [opFaultRelease, actOp, hon]
  · refine goes_plain rfl h rfl ?_
    simp [opFaultRelease, actOp, hoff]
  · refine goes_data rfl h (by simpa [Fits, outOk] using hlen) ?_
    simp [opFaultInjectUnlock, hmode, advanceDraws]
  · have hbody := faultInjectUnlock_body_tried hmode hnonce bufs
    split at hbody
    next hgood =>
      rw [if_pos hgood]
      exact goes_plain rfl h rfl hbody
    next hbad =>
      rw [if_neg hbad]
      exact goes_plain rfl h rfl hbody
  · refine goes_plain rfl h rfl ?_
    simp [opFaultInjectUnlock, hmode, hnonce]
  · refine goes_plain rfl h rfl ?_
    simp [opFaultInject, actOp, hclass, hmsg]
  · refine goes_plain rfl h rfl ?_
    simp [opFaultInject, actOp, hclass, hword]

/-! ### The power manager -/

/-- Settles O18: POWER_POLICY by whether the policy is allowed. -/
theorem powerCommandsComplete : Obligations.PowerCommandsComplete := by
  unfold Obligations.PowerCommandsComplete
  refine ⟨fun p s bufs q h hf => goes_data rfl h hf rfl, fun p s bufs q h hallowed => ?_, fun p s bufs q h hdenied => ?_⟩
  · refine goes_plain rfl h rfl ?_
    simp [opPowerPolicy, hallowed]
  · refine goes_plain rfl h rfl ?_
    simp [opPowerPolicy, hdenied]

end Sys2Proof.Machine
end

section
/-! PROOF. The commands of images and identity and of the counters (Tables 18.8, 19.6): what the body of each answers. -/

namespace Sys2Proof.Machine

open Sys2Proof

/-! ### Images -/

theorem imgStart_free {q : State} {p : CmdPkt} (h : imageBusy q = false) : imgStart q p = 0 := by
  simp [imgStart, h]

theorem imageAccept_body {p : CmdPkt} {q : State} (h : imageBusy q = false) (bufs : List Nat) :
    opImageAccept.body p bufs q = stepReply (acceptUnit (started opImageAccept p bufs 65536 [] q) q) :=
  multiOp_body (imgStart_free h) bufs

theorem imageFlash_body {p : CmdPkt} {q : State} (hfree : imageBusy q = false) (haccepted : q.boot.accepted.isSome = true)
    (bufs : List Nat) : opImageFlash.body p bufs q = stepReply (flashUnit (started opImageFlash p bufs 1048576 [] q) q) := by
  refine multiOp_body ?_ bufs
  simp [hfree, Option.isNone_eq_false_iff.2 haccepted, imgStart_free hfree]

/-- The first part of an image that has more (R431). -/
theorem flashUnit_first {m : Multi} {q : State} (hpos : m.pos = 0) (haux : m.aux = [])
    (hmore : 1 < (imgSize (stagedHeader q) + 65535) / 65536) :
    flashUnit m q = ({ q with
        boot.lastSlot := some (flashSlot q)
        out.flash := q.out.flash
          ++ [(flashSlot q * 8388608, memReadN q.boot.staging 0 (min 65536 (imgSize (stagedHeader q))))] },
      .more { m with pos := 1, units := m.units + 1, aux := [flashSlot q], lastFix := q.clock.fix }) := by
  simp [flashUnit, hpos, haux, hmore]

/-! ### The fuses (R432) -/

/-- IMAGE_FUSE with an epoch to raise: the open value decides whether the fuses verify. -/
theorem imageFuse_body_raises {p : CmdPkt} {q : State} (h : q.boot.fuses < imgEpoch (runHeader q)) (bufs : List Nat) :
    let goal := imgEpoch (runHeader q)
    let d := openDraw 23 q
    let part := q.boot.fuses + bitsOf d.toNat 8 16 % (goal - q.boot.fuses + 1)
    let some_ := q.boot.revoke ||| (fuseRevokes q &&& BitVec.ofNat 4 (bitsOf d.toNat 32 4))
    opImageFuse.body p bufs q =
      if d.getLsbD 0 = true then
        (raiseFault fkOTP_ECC_UNCORR (bitsOf d.toNat 40 12)
          { q with draws := q.draws + 1, boot.fuses := part, boot.revoke := some_ }, .done (outErrAt stFAULTED part))
      else ({ q with draws := q.draws + 1, boot.fuses := goal, boot.revoke := q.boot.revoke ||| fuseRevokes q },
        .done (outOk goal)) := by
  intro goal d part some_
  have hgoal : max q.boot.fuses (imgEpoch (runHeader q)) = imgEpoch (runHeader q) := Nat.max_eq_right h.le
  have hraise : ¬ imgEpoch (runHeader q) = q.boot.fuses := by omega
  simp only [opImageFuse, actOp, hgoal, hraise, decide_false, Bool.false_and, Bool.false_eq_true, if_false]
  split <;> rfl

/-- Settles O19: each command by whether an image is being handled, by its staged image, or by the open value of the fuses. -/
theorem bootCommandsComplete : Obligations.BootCommandsComplete := by
  unfold Obligations.BootCommandsComplete
  refine ⟨fun p s bufs q h => goes_plain rfl h rfl rfl, fun p s bufs q t o h hfree hbody hok => ?_,
    fun p s bufs q h hbusy => ?_, fun p s bufs q h hf => goes_data rfl h hf rfl, fun p s bufs q h hfree => ?_,
    fun p s bufs q h hbusy => ?_, fun p s bufs q h hfree => ?_, fun p s bufs q h hfree haccepted hmore => ?_,
    fun p s bufs q h hfree hnone => ?_, fun p s bufs q h hepoch hrevoked => ?_, fun p s bufs q h hepoch => ?_,
    fun p s bufs q h hf => ?_⟩
  · exact goes_multi rfl h (attest_body ▸ signStart_under_way hfree hbody hok bufs)
  · exact goes_plain rfl h rfl (attest_body ▸ signStart_busy hbusy bufs)
  · refine goes_plain rfl h rfl ?_
    simp [opImageStage, actOp, hfree]
  · refine goes_plain rfl h rfl ?_
    simp [opImageStage, actOp, hbusy]
  · exact goes_multi rfl h (imageAccept_body hfree bufs)
  · refine goes_multi rfl h ((imageFlash_body hfree haccepted bufs).trans ?_)
    rw [flashUnit_first rfl rfl hmore]
    rfl
  · refine goes_plain rfl h rfl ((multiOp_body_turnedAway ?_ bufs).trans ?_) <;> simp [hfree, hnone, stNOTFOUND]
  · refine goes_plain rfl h rfl ?_
    simp [opImageFuse, actOp, hepoch, hrevoked]
  · have hbody := imageFuse_body_raises (p := p) hepoch bufs
    dsimp only at hbody ⊢
    split at hbody
    next hfails =>
      rw [if_pos hfails]
      exact goes_plain rfl h rfl hbody
    next hverifies =>
      rw [if_neg hverifies]
      exact goes_plain rfl h rfl hbody
  · refine goes_data rfl h hf ?_
    by_cases hcert : shake256 (certBytes 0) = Config.otpDigest 5 <;> simp [opCertRead, readOp, hcert]

/-! ### Counters and Monarch -/

/-- Settles O20: MON_RING_SET by whether the ring can be set; the reads answer by definition. -/
theorem counterCommandsComplete : Obligations.CounterCommandsComplete := by
  unfold Obligations.CounterCommandsComplete
  refine ⟨fun p s bufs q h hf => goes_data rfl h hf rfl, fun p s bufs q r h hset => ?_, fun p s bufs q h hbusy => ?_,
    fun p s bufs q h hf => goes_data rfl h hf rfl⟩
  · refine goes_plain rfl h rfl ?_
    simp [opMonRingSet, actOp, hset]
  · refine goes_plain rfl h rfl ?_
    simp [opMonRingSet, actOp, hbusy]

end Sys2Proof.Machine
end

section
/-! PROOF. Frame of the read commands: a read that is carried out changes only its answer, one that is refused completes, and
one that is held changes the lists of held commands. -/

namespace Sys2Proof.Machine

open Sys2Proof

/-! ### What a presented read may change -/

theorem onlyPresented.trans {a b c : State} (h1 : onlyPresented a b) (h2 : onlyPresented b c) : onlyPresented a c := by
  unfold onlyPresented at *
  rw [h2, h1]

theorem onlyPresented_of_answerOnly {s t : State} (h : AnswerOnly s t) : onlyPresented s t := by
  unfold AnswerOnly at h
  unfold onlyPresented
  rw [h]

theorem onlyPresented_settle (s : State) : onlyPresented s (settle s) := by
  unfold onlyPresented
  rfl

theorem onlyPresented_orderExit (s : State) : onlyPresented s (orderExit s) := by
  unfold onlyPresented orderExit
  split <;> rfl

theorem onlyPresented_holdForExit (code : Nat) (p : CmdPkt) (bufs : List Nat) (s : State) :
    onlyPresented s (holdForExit code p bufs s) := by
  unfold holdForExit holdAt
  refine onlyPresented.trans ?_ (onlyPresented_orderExit _)
  unfold onlyPresented
  rfl

/-! ### Commands that only read -/

/-- A command without a payload to the device, whose body is done and changes its answer alone. -/
structure PureRead (op : Op) : Prop where
  noPayload : ∀ p, hasPayloadIn op p = false
  body : ∀ p bufs s, ∃ t o, op.body p bufs s = (t, .done o) ∧ AnswerOnly s t

theorem pureRead_readOp {code : Nat} {rings : List Nat} {min : Nat} {used : List (Nat × Nat)} {arg : State → CmdPkt → Nat}
    {tenant : State → CmdPkt → Bool} {body : CmdPkt → State → State × CmdOut} (h : ∀ p s, AnswerOnly s (body p s).1) :
    PureRead (readOp code rings min used arg tenant body) where
  noPayload _ := rfl
  body p _ s := ⟨(body p s).1, (body p s).2, rfl, h p s⟩

theorem pureRead_cfgRead : PureRead opCfgRead := by
  refine pureRead_readOp fun p s => ?_
  dsimp only
  split_ifs
  · exact .refl s
  · exact .refl s
  · split
    · exact .refl s
    · exact answerOnly_draws 1 s

theorem pureRead_clsEntryRead : PureRead opClsEntryRead := by
  refine pureRead_readOp fun p s => ?_
  split <;> exact .refl s

theorem pureRead_poolOwnerRead : PureRead opPoolOwnerRead := by
  refine pureRead_readOp fun p s => ?_
  split <;> exact .refl s

theorem pureRead_meterCloseInfo : PureRead opMeterCloseInfo := by
  refine pureRead_readOp fun p s => ?_
  split <;> exact .refl s

theorem pureRead_billBlockRead : PureRead opBillBlockRead := by
  refine pureRead_readOp fun p s => ?_
  split
  · exact .refl s
  · split <;> exact .refl s

theorem pureRead_certRead : PureRead opCertRead := by
  refine pureRead_readOp fun p s => ?_
  split <;> exact .refl s

/-- The opcodes of the statement are those of the reads. -/
theorem pureRead_of_code {i : Instr} {op : Op} {p : CmdPkt} (h : ringOp i = some (op, p))
    (hcode : op.code ∈ [0x0001, 0x0013, 0x0030, 0x0100, 0x0202, 0x0204, 0x0311, 0x0301, 0x0321, 0x0340, 0x0402, 0x0405,
      0x0500, 0x0501, 0x0505, 0x0511, 0x0512, 0x0600, 0x0601, 0x0602, 0x0700, 0x0701, 0x0702, 0x0703, 0x0800, 0x0804, 0x0900,
      0x0901, 0x0902, 0x0903, 0x0A00, 0x0A01, 0x0A04, 0x0B02, 0x0B04, 0x0C02, 0x0C05, 0x0D00, 0x0E02, 0x0E08,
      0x0F02]) : PureRead op := by
  cases i with
  | cfgRead => cases h; exact pureRead_cfgRead
  | clsEntryRead => cases h; exact pureRead_clsEntryRead
  | poolOwnerRead => cases h; exact pureRead_poolOwnerRead
  | meterCloseInfo => cases h; exact pureRead_meterCloseInfo
  | billBlockRead => cases h; exact pureRead_billBlockRead
  | certRead => cases h; exact pureRead_certRead
  | sysInfo | apJournalRead | portRead | timedRead | timeStatus | rulesetStatus | parseNodeRead | pipeStatsRead | flowRead
  | flowStatsRead | skipStatusRead | skipStatsRead | lbRead | ucodeInfo | ucodeRead | scStatusRead | scStatsRead
  | scPortStatsRead | tmSampleRead | tmQstatsRead | tmPolRead | tmStatsRead | poolStatsRead | hbmStatusRead | hbmStatsRead
  | arbStatsRead | hbmRegionInfo | meterStatsRead | pairStatsRead | pairHeadRead | faultStatusRead | isoTenantRead
  | powerStatusRead | imageInfo | monStatsRead =>
    cases h
    exact pureRead_readOp fun _ s => .refl s
  | _ => cases h <;> exact absurd hcode (by decide)

/-! ### What a presented read leaves -/

theorem checkCmd_cases {op : Op} {p : CmdPkt} (h : hasPayloadIn op p = false) (s : State) :
    (∃ st, checkCmd op p s = (.refused st, s))
      ∨ (∃ c, checkCmd op p s = (.held, { s with ctl.sched := s.ctl.sched ++ [c], ctl.serial := s.ctl.serial + 1 }))
      ∨ checkCmd op p s = (.now [], s) := by
  unfold checkCmd
  cases earlyCheck op p s with
  | some st => exact .inl ⟨st, rfl⟩
  | none =>
    simp only [h, takePayload, Bool.false_eq_true, if_false, if_true]
    cases lateCheck op p s with
    | some st => exact .inl ⟨st, rfl⟩
    | none =>
      by_cases htarget : p.target = 0
      · exact .inr (.inr (if_pos htarget))
      · exact .inr (.inl ⟨_, if_neg htarget⟩)

theorem answerOnly_finishCmd (op : Op) (p : CmdPkt) (o : CmdOut) (s : State) : AnswerOnly s (finishCmd op p [] o s) :=
  answerOnly_complete _ _ _ _ s

theorem answerOnly_applyCmd {op : Op} (h : PureRead op) (p : CmdPkt) (s : State) : AnswerOnly s (applyCmd op p [] s) := by
  obtain ⟨t, o, hbody, ht⟩ := h.body p [] s
  unfold applyCmd
  rw [hbody]
  split
  · exact answerOnly_finishCmd _ _ _ s
  · dsimp only
    split
    · exact answerOnly_finishCmd _ _ _ s
    · exact ht.trans (answerOnly_finishCmd _ _ _ t)

theorem onlyPresented_runCommand {op : Op} (h : PureRead op) (p : CmdPkt) (s : State) :
    onlyPresented s (runCommand op p s) := by
  refine (onlyPresented_of_answerOnly (answerOnly_promise p.src s)).trans ?_
  unfold runCommand
  generalize promise p.src s = q
  rcases checkCmd_cases (h.noPayload p) q with ⟨st, hq⟩ | ⟨c, hq⟩ | hq <;> rw [hq]
  · exact onlyPresented_of_answerOnly ((answerOnly_complete _ _ _ _ q).trans (answerOnly_flush _))
  · unfold onlyPresented
    rfl
  · dsimp only
    split
    · exact onlyPresented_holdForExit _ _ _ q
    · exact onlyPresented_of_answerOnly ((answerOnly_applyCmd h p q).trans (answerOnly_flush _))

/-- Settles O53: each of the commands only reads, and a command that only reads changes only what a presented command may. -/
theorem readCommandsChangeNothing : Obligations.ReadCommandsChangeNothing := by
  unfold Obligations.ReadCommandsChangeNothing
  intro i op p hop hcode s
  refine ⟨settle (runCommand op p s), exec_ringOp hop s, ?_⟩
  exact (onlyPresented_runCommand (pureRead_of_code hop hcode) p s).trans (onlyPresented_settle _)

end Sys2Proof.Machine
end

section
/-! PROOF. Doorbells, ring control and direct registers (R62 to R66, R446 to R454): what each event leaves. -/

namespace Sys2Proof.Machine

open Sys2Proof

/-- An event goes where its meaning leads. -/
theorem goes_event {i : Instr} {s t u : State} (he : exec i s = finish t) (h : t = u) : Goes i s u := by
  rw [Goes, he, h]
  rfl

/-! ### Doorbells and ring control -/

theorem ringWrite_on {n : Nat} {f : Ring → Ring} {s : State} (h : domainOn s 61 = true) : ringWrite n f s = modRing n f s := by
  simp [ringWrite, h]

theorem ringStart_idle {r : Ring} (henable : r.enable = false) (hidle : r.state = .idle) :
    let ok := sizeOk r.size && sizeOk r.cqSize
    ringStart r = { r with
      enable := true, head := 0, tail := 0, cqHead := 0, cqTail := 0, promised := 0, waiting := [], inFetch := []
      fenced := false, state := if ok then .running else .halted, cause := if ok then 0 else 1 } := by
  simp [ringStart, henable, hidle]

/-- A ring with completions promised drains (R66). -/
theorem ringStop_drains {r : Ring} (henable : r.enable = true) (hpromised : 0 < r.promised) :
    ringStop r = { r with enable := false, state := .draining } := by
  simp [ringStop, ringSettle, henable, Nat.ne_of_gt hpromised]

theorem ringStop_idle {r : Ring} (henable : r.enable = true) (hpromised : r.promised = 0) (hwaiting : r.waiting = [])
    (hfetch : r.inFetch = []) : ringStop r = { r with enable := false, state := .idle } := by
  simp [ringStop, ringSettle, henable, hpromised, hwaiting, hfetch]

/-- Settles O21: a doorbell by its range, and ring control by the ring's state. -/
theorem doorbellEventsComplete : Obligations.DoorbellEventsComplete := by
  unfold Obligations.DoorbellEventsComplete
  refine ⟨fun n v s hin => ?_, fun n v s hout => ?_, fun n v s hon hin => ?_, fun n v s hon hout => ?_,
    fun n s hon henable hidle => ?_, fun n s hon henable hpromised => ?_,
    fun n s hon henable hpromised hwaiting hfetch => ?_, fun n s => goes_event (exec_dberrRead n s) rfl⟩
  · exact goes_event (exec_cmdDoorbell n v s) (modRing_congr (if_neg (Nat.not_le.2 hin)))
  · exact goes_event (exec_cmdDoorbell n v s) (modRing_congr (if_pos hout))
  · exact goes_event (exec_cqHeadWrite n v s) ((ringWrite_on hon).trans (modRing_congr (if_neg (Nat.not_le.2 hin))))
  · exact goes_event (exec_cqHeadWrite n v s) ((ringWrite_on hon).trans (modRing_congr (if_pos hout)))
  · exact goes_event (exec_ringEnable n s) ((ringWrite_on hon).trans (modRing_congr (ringStart_idle henable hidle)))
  · exact goes_event (exec_ringDisable n s) ((ringWrite_on hon).trans (modRing_congr (ringStop_drains henable hpromised)))
  · exact goes_event (exec_ringDisable n s)
      ((ringWrite_on hon).trans (modRing_congr (ringStop_idle henable hpromised hwaiting hfetch)))

/-! ### Direct registers -/

theorem regRead_word {bar2 : Bool} {off : BitVec 26} {s : State} (h : off.toNat % 4 = 0) :
    regRead bar2 off false s = some (BitVec.ofNat 64 (regWord bar2 off.toNat s % 2 ^ 32)) := by
  simp [regRead, h]

/-- Below the MSI-X table, BAR2 holds doorbells, which are write-only (R5). -/
theorem regWord_doorbell {off : Nat} (h : off < 0x8000) (s : State) : regWord true off s = 0 := by
  have htable : ¬ 0x8000 ≤ off := Nat.not_le.2 h
  have hlow : off ≠ 0x9000 := by omega
  have hhigh : off ≠ 0x9004 := by omega
  simp [regWord, htable, hlow, hhigh]

/-- Settles O22: a register write by its size and alignment, the other events by the domain or the range of their operand. -/
theorem directRegisterEventsComplete : Obligations.DirectRegisterEventsComplete := by
  unfold Obligations.DirectRegisterEventsComplete
  refine ⟨fun bar2 off data s hrst halign => ?_, fun bar2 off data s hrst halign => ?_, fun bar2 off wide data s => ?_,
    fun v s hin => ?_, fun v s hout => ?_, fun lane v s hport hon => ?_, fun lane v s hport => ?_,
    fun s => goes_event (exec_stepCountRead s) rfl, fun s => goes_event (exec_wrapTaiLoRead s) rfl,
    fun c s => goes_event (exec_perfValLoRead c s) rfl, fun s => ⟨?_, ?_⟩, fun off s halign hlow => ?_⟩
  · refine goes_event (exec_registerWrite bar2 off false true data s) ?_
    simp [doRegisterWrite, hrst, halign]
  · refine goes_event (exec_registerWrite bar2 off true true data s) ?_
    simp [doRegisterWrite, hrst, halign]
  · refine goes_event (exec_registerWrite bar2 off wide false data s) ?_
    simp [doRegisterWrite]
  · exact goes_event (exec_faultHeadWrite v s) (if_pos hin)
  · exact goes_event (exec_faultHeadWrite v s) (if_neg (Nat.not_le.2 hout))
  · refine goes_event (exec_macStickyClear lane v s) ?_
    simp [doMacStickyClear, hport, hon]
  · refine goes_event (exec_macStickyClear lane v s) ?_
    simp [doMacStickyClear, hport]
  · exact regRead_word rfl
  · exact regRead_word rfl
  · rw [regRead_word halign, regWord_doorbell hlow]
    rfl

end Sys2Proof.Machine
end

section
/-! PROOF. The host interface (R65 to R68, R82 to R87): fetches and resets over PCI Express, and frames of the in-band port. -/

namespace Sys2Proof.Machine

open Sys2Proof

/-! ### Fetches -/

theorem base_fetchedRing {n : Nat} {s : State} (h : fetchable s n ≠ 0) (idx k : Nat) :
    (ringOf (modRing n (fetchedRing idx k) s) n).base = (ringOf s n).base := by
  rw [ringOf_modRing n n _ s (lt_length_of_running (running_of_fetchable h).1), if_pos rfl]
  rfl

/-- A fetch takes a burst of the first ring of the rotation that has something ready (R67). -/
theorem doCmdFetch_burst {s : State} {i : Nat} (hfetching : fetching s = true)
    (hfind : ((List.range 6).map (fun i => (s.host.rot + i) % 6)).find? (fun i => fetchable s (rotation.getD i 0) != 0)
      = some i) :
    doCmdFetch s = takeBurst (rotation.getD i 0) ((i + 1) % 6) s := by
  simp only [doCmdFetch, hfetching, hfind]
  rfl

/-- The entries that a completed fetch hands to the checks are those that the burst asked for. -/
theorem take_append_replicate {α : Type} {cs : List α} {k : Nat} (h : cs.length = k) (x : α) :
    (cs ++ List.replicate k x).take k = cs := by
  simp [← h]

theorem doCmdFetchDone_entries {n : Fin 4} {cs : List RawCmd} {s : State} {idx k : Nat} {rest : List (Nat × Nat)}
    (hfetch : (ringOf s n.val).inFetch = (idx, k) :: rest) (hlen : cs.length = k) :
    let t := modRing n.val (fun r => { r with inFetch := rest, waiting := r.waiting ++ cs.map (parseEntry n) }) s
    doCmdFetchDone n (.entries cs) s = drainRing n.val (ringOf t n.val).waiting.length t := by
  simp only [doCmdFetchDone, hfetch, take_append_replicate hlen]

/-- A failed fetch halts a running ring (R68). -/
theorem doCmdFetchDone_failed {n : Fin 4} {why : FetchError} {s : State} {idx k : Nat} {rest : List (Nat × Nat)}
    (hfetch : (ringOf s n.val).inFetch = (idx, k) :: rest) (hrun : (ringOf s n.val).state = .running) :
    let t := modRing n.val (fun _ => { ringOf s n.val with
      inFetch := rest, promised := (ringOf s n.val).promised - k, cause := 2, state := .halted }) s
    doCmdFetchDone n (.failed why) s = raiseFault fkFETCH_ERR n.val (aerReport why (modRing n.val ringSettle t)) := by
  intro t
  simp only [doCmdFetchDone, hfetch]
  exact congrArg (fun u => raiseFault fkFETCH_ERR n.val (aerReport why (modRing n.val ringSettle u)))
    (modRing_congr (by simp [hrun]))

/-! ### In-band frames -/

theorem doInbandFrameReceived_taken {port : Fin 128} {pk : Nat} {s : State} {k : Pkt} (hpkt : pktOf s pk = some k)
    (hport : k.port = port.val) (htail : k.tail = .good) (hstage : k.stage = .ingress) (hcounted : k.counted = false)
    (hmatch : ibMatch s k.rx = true) :
    let t := freePkt pk k s
    doInbandFrameReceived port pk s =
      if t.ctl.ibPorts.getLsbD port.val then
        ibEnvelope port (BitVec.ofNat 48 (beAt k.rx 6 6)) (k.rx.drop (ibTypeOff t + 2)) t
      else modPort port.val (fun x => { x with cnt.rxInbandDrop := x.cnt.rxInbandDrop + 1 })
        { t with ctl.ibDropPort := t.ctl.ibDropPort + 1 } := by
  simp [doInbandFrameReceived, hpkt, hport, htail, hstage, hcounted, hmatch]

/-- Settles O23: by the lemmas on fetches and in-band frames; a reset or a link event by the reset pins. -/
theorem hostInterfaceEventsComplete : Obligations.HostInterfaceEventsComplete := by
  unfold Obligations.HostInterfaceEventsComplete
  refine ⟨fun s i hfetching hfind => ?_, fun n cs s idx k rest hfetch hlen => ?_,
    fun n why s idx k rest hfetch hrun => ?_, fun s => goes_event (exec_functionLevelReset s) rfl,
    fun kind s hrst hkind => ?_, fun s hrst => ?_, fun gen width s hrst hperst => ?_,
    fun port pk s k hpkt hport htail hstage hcounted hmatch hallowed => ?_,
    fun port pk s k hpkt hport htail hstage hcounted hmatch hrefused => ?_⟩
  · have hsome : fetchable s (rotation.getD i 0) ≠ 0 := by simpa using List.find?_some hfind
    intro n k idx t
    refine goes_event (exec_cmdFetch s) ((doCmdFetch_burst hfetching hfind).trans ?_)
    rw [← base_fetchedRing hsome idx k]
    rfl
  · exact goes_event (exec_cmdFetchDone n (.entries cs) s) (doCmdFetchDone_entries hfetch hlen)
  · exact goes_event (exec_cmdFetchDone n (.failed why) s) (doCmdFetchDone_failed hfetch hrun)
  · refine goes_event (exec_pcieLinkReset kind s) ?_
    simp [doPcieLinkReset, doFunctionLevelReset, hkind, hrst]
  · refine goes_event (exec_pcieLinkReset 0 s) ?_
    simp [doPcieLinkReset, doFunctionLevelReset, hrst]
  · refine goes_event (exec_pcieLinkUp gen width s) ?_
    simp [doPcieLinkUp, hrst, hperst]
  · exact goes_event (exec_inbandFrameReceived port pk s)
      ((doInbandFrameReceived_taken hpkt hport htail hstage hcounted hmatch).trans (if_pos hallowed))
  · exact goes_event (exec_inbandFrameReceived port pk s)
      ((doInbandFrameReceived_taken hpkt hport htail hstage hcounted hmatch).trans (if_neg (Bool.eq_false_iff.1 hrefused)))

end Sys2Proof.Machine
end

section
/-! PROOF. Ports, PTP and pins (R96 to R125): what each event leaves. -/

namespace Sys2Proof.Machine

open Sys2Proof

/-! ### Ports -/

/-- Settles O25: each event of a port, by the branch that its premises select. -/
theorem portEventsComplete : Obligations.PortEventsComplete := by
  unfold Obligations.PortEventsComplete
  refine ⟨fun port ns kind s hport hup => ?_, fun port ns s hst hheld => ?_, fun port ns s hst hheld => ?_,
    fun port s hport hon hst => ?_, fun port s hport hon hst => ?_, fun port s hport hst => ?_,
    fun port ns kind s hport hst => ?_, fun port ns s hport hclk hon hst hnot => ?_, fun port ns s hport hclk hon hst => ?_,
    fun port ns vec times s hport hup => ?_, fun port prio ns s t hend hover => ?_⟩
  · exact goes_event (exec_linkLoss port ns kind s) (by simp [doLinkLoss, hport, hup])
  · exact goes_event (exec_downHoldExpire port ns s) (by simp [doDownHoldExpire, hst, hheld])
  · exact goes_event (exec_upHoldExpire port ns s) (by simp [doUpHoldExpire, hst, hheld])
  · exact goes_event (exec_negotiateDone port s) (by simp [doNegotiateDone, hport, hon, hst])
  · exact goes_event (exec_trainDone port s) (by simp [doTrainDone, hport, hon, hst])
  · exact goes_event (exec_trainFail port s) (by simp [doTrainFail, hport, hst])
  · exact goes_event (exec_alignLost port ns kind s) (by simp [doAlignLost, hport, hst])
  · exact goes_event (exec_alignmentAcquired port ns s) (by simp [doAlignmentAcquired, hport, hclk, hon, hst, hnot])
  · exact goes_event (exec_alignmentAcquired port ns s) (by simp [doAlignmentAcquired, hport, hclk, hon, hst])
  · intro u hmode
    refine goes_event (exec_pauseFrameReceived port ns false vec times s) ?_
    simp only [doPauseFrameReceived]
    rw [if_neg (by simp [hport, hup])]
    exact if_pos (by simp only [Bool.not_false, Bool.true_and, beq_iff_eq]; exact hmode)
  · exact goes_event (exec_pauseTimerExpire port prio ns s) (by simp only [doPauseTimerExpire, hend, if_pos hover])

/-! ### Precision time -/

/-- Settles O26: each PTP event, by the branch that its premises select. -/
theorem ptpEventsComplete : Obligations.PtpEventsComplete := by
  unfold Obligations.PtpEventsComplete
  refine ⟨fun port pk servo s k o x hpkt hport hwhole htail hstage hours hmode => ?_,
    fun port pk v s k o x hpkt hport hwhole htail hstage hours hmode => ?_, fun port dst hdr msg s hsends => ?_,
    fun port dst hdr msg s x hfind => ?_, fun s hlocked => ?_, fun s hacquire => ?_, fun s hfree => ?_,
    fun s hholdover hover => ?_⟩
  · exact goes_event (exec_ptpMessageReceived port pk servo s)
      (by simp [doPtpMessageReceived, hpkt, hport, hwhole, htail, hstage, hours, clockMode, hmode])
  · exact goes_event (exec_ptpMessageReceived port pk (some v) s)
      (by simp [doPtpMessageReceived, hpkt, hport, hwhole, htail, hstage, hours, clockMode, hmode])
  · exact goes_event (exec_ptpMessageSend port dst hdr msg s) (if_pos hsends)
  · intro u hsends hfollow
    refine goes_event (exec_followUpSend port dst hdr msg s) ?_
    simp only [doFollowUpSend, hfind]
    exact if_pos (by simp [u] at hsends hfollow ⊢; exact ⟨hsends, hfollow⟩)
  · exact goes_event (exec_syncTimeout s) (by simp [doSyncTimeout, hlocked])
  · exact goes_event (exec_syncTimeout s) (by simp [doSyncTimeout, hacquire])
  · obtain hfree | hholdover := hfree
    · exact goes_event (exec_syncTimeout s) (by simp [doSyncTimeout, hfree])
    · exact goes_event (exec_syncTimeout s) (by simp [doSyncTimeout, hholdover])
  · exact goes_event (exec_holdoverLimitExpire s) (if_pos ⟨hholdover, hover⟩)

/-! ### Pins -/

/-- An armed slot that is due does what its verdict says, a minute action apart. -/
theorem doTimedActionFire_due {slot : Fin 64} {ns : BitVec 10} {s : State}
    (harmed : (slotOf (atNs ns s) slot.val).armed = true)
    (hdue : fixSub (fixN (atNs ns s)) ((slotOf (atNs ns s) slot.val).target.toNat / 1024) < 2 ^ 21)
    (hkind : (slotOf (atNs ns s) slot.val).kind ≠ .minute) :
    let u := atNs ns s
    let r := timedVerdict slot.val (perfEvent 0x0B01 5 0 slot.val (kindNumber (slotOf u slot.val).kind) 1 u)
    doTimedActionFire slot ns s =
      timedEnd slot.val (fixSub (fixN u) ((slotOf u slot.val).target.toNat / 1024)) r.1.1 r.1.2 r.2 := by
  have hdue' : ¬ 2 ^ 21 ≤ fixSub (fixN (atNs ns s)) ((slotOf (atNs ns s) slot.val).target.toNat / 1024) := by omega
  simp only [doTimedActionFire, harmed, decide_eq_false hdue', if_neg hkind, Bool.not_true, Bool.or_self, Bool.false_eq_true,
    if_false]

/-- Settles O27: each event of the pins and the timed actions, by the branch that its premises select. -/
theorem pinEventsComplete : Obligations.PinEventsComplete := by
  unfold Obligations.PinEventsComplete
  refine ⟨fun s hdue => ?_, fun ns s => ?_, fun ns s => ?_, fun ch rising ns s hsel => ?_, fun ns addend s hsel => ?_,
    fun s hpps hlocked hlate => ?_, fun slot ns s ws t harmed hdue hkind hverdict => ?_,
    fun slot ns s k ws t harmed hdue hkind hverdict => ?_,
    fun slot ns s => goes_event (exec_timedPulseFall slot ns s) rfl, fun s hready hfree => ?_⟩
  · exact goes_event (exec_anchorRewrite s) (by simp [doAnchorRewrite, hdue])
  · intro u hon hsynced hsecond
    exact goes_event (exec_ppsOutRise ns s) (if_pos ⟨hon, hsynced, hsecond⟩)
  · intro u hhigh hover
    exact goes_event (exec_ppsOutFall ns s) (if_pos ⟨hhigh, hover⟩)
  · exact goes_event (exec_timeCapEdge ch rising ns s) (if_pos hsel)
  · exact goes_event (exec_ppsInEdge ns addend s) (if_neg hsel)
  · exact goes_event (exec_ppsInMissing s) (if_pos ⟨hpps, hlocked, hlate⟩)
  · refine goes_event (exec_timedActionFire slot ns s) ((doTimedActionFire_due harmed hdue hkind).trans ?_)
    simp only [hverdict]
    rfl
  · refine goes_event (exec_timedActionFire slot ns s) ((doTimedActionFire_due harmed hdue hkind).trans ?_)
    simp only [hverdict]
    rfl
  · exact goes_event (exec_minuteArm s) (by simp [doMinuteArm, hready, hfree])

end Sys2Proof.Machine
end

section
/-! PROOF. Faults, power, start-up, clocks and the JTAG port (R377 to R423, R463 to R468): what each event leaves. -/

namespace Sys2Proof.Machine

open Sys2Proof

/-! ### Faults -/

/-- Settles O28: a message arrives by its own case; the other events unfold. -/
theorem faultEventsComplete : Obligations.FaultEventsComplete := by
  unfold Obligations.FaultEventsComplete
  refine ⟨fun s w rest hrst hwire => ?_, fun m s c hrst hclass => ?_,
    fun src cls s => goes_event (exec_quietPeriodEnd src cls s) rfl, fun tenant s d hdrain hover => ?_⟩
  · exact goes_event (exec_faultMessage none s) (by simp [doFaultMessage, hrst, hwire])
  · exact goes_event (exec_faultMessage (some m) s) (by simp [doFaultMessage, hrst, hclass])
  · refine goes_event (exec_tenantDrainEnd tenant s) ?_
    simp only [doTenantDrainEnd, hdrain]
    exact if_neg (by omega)

/-! ### Power -/

/-- Settles O29: each power event, by the branch that its premises select. -/
theorem powerEventsComplete : Obligations.PowerEventsComplete := by
  unfold Obligations.PowerEventsComplete
  refine ⟨fun s t htransit hentry => ?_, fun s t htransit hexit hover => ?_,
    fun d s => goes_event (exec_domainPowerFail d s) rfl, fun d s hbasking hon => ?_,
    fun d s => goes_event (exec_clockUngate d s) rfl, fun pc s hcocoon hmode hidle => ?_⟩
  · refine goes_event (exec_powerEntryDone s) ?_
    simp only [doPowerEntryDone, htransit, hentry, Bool.not_true, Bool.false_eq_true, if_false]
    rfl
  · exact goes_event (exec_powerExitDone s) (by simp [doPowerExitDone, htransit, hexit, hover])
  · exact goes_event (exec_clockGate d s) (if_pos (by simp [hbasking, hon]))
  · exact goes_event (exec_srIdleEnter pc s) (if_pos ⟨hcocoon, hmode, hidle⟩)

/-! ### Start-up -/

/-- Headers are read at stage 2, with no candidate yet. -/
theorem reading_headers {s : State} (hst : starting 2 s = true) (hcand : s.boot.cand = none) :
    ¬ (!starting 2 s || s.boot.cand.isSome) = true := by
  simp [hst, hcand]

/-- Settles O30: each event of start-up, by the branch that its stage and its operands select. -/
theorem startupEventsComplete : Obligations.StartupEventsComplete := by
  unfold Obligations.StartupEventsComplete
  refine ⟨fun s hdown => ?_, fun s => goes_event (exec_vddAonLoss s) rfl, fun s hrst => ?_,
    fun src ftest pp s hup hrst => ?_, fun s => goes_event (exec_perstNRelease s) rfl, fun s hst hgrave hsrc => ?_,
    fun s hst hgrave hpush hstrap => ?_, fun s w k r hst => ?_, fun s hrst hst hmin hmax => ?_,
    fun h b s hst hcand hsrc hgood => ?_, fun a b x u t s hst hcand hsrc ha hb => ?_,
    fun a b u t s hst hcand hsrc ha hb => ?_, fun b s src h hst hcand => ?_, fun s src h hst hcand => ?_,
    fun s hst => goes_event (exec_binnacleStarted s) (if_pos hst), fun s hst => ?_, fun d ds s hst => ?_,
    fun s hst htested => ?_⟩
  · exact goes_event (exec_powerOn s) (by simp [doPowerOn, hdown])
  · exact goes_event (exec_sysRstAssert s) (by simp [doSysRstAssert, hrst])
  · exact goes_event (exec_sysRstRelease src ftest pp s) (by simp [doSysRstRelease, hup, hrst])
  · exact goes_event (exec_bootRomTestDone none true none s) (by simp [doBootRomTestDone, hst, hgrave, hsrc])
  · exact goes_event (exec_bootRomTestDone none true none s) (by
      simp only [doBootRomTestDone, hst, hgrave, if_neg hpush, if_neg hstrap, Bool.not_true, Bool.false_eq_true, if_false])
  · exact goes_event (exec_bootRomTestDone (some w) k r s) (by simp [doBootRomTestDone, hst])
  · refine goes_event (exec_bootGo s) ?_
    simp only [doBootGo]
    rw [if_neg (by simp [hrst, hst])]
    exact if_neg (by simp only [Bool.or_eq_true, decide_eq_true_eq]; omega)
  · refine goes_event (exec_imageHeadersRead (some h) b s)
      ((if_neg (reading_headers hst hcand)).trans ((if_pos hsrc).trans ?_))
    simp only [hgood]
  · refine goes_event (exec_imageHeadersRead a b s)
      ((if_neg (reading_headers hst hcand)).trans ((if_neg hsrc).trans ?_))
    simp only [ha, hb]
  · refine goes_event (exec_imageHeadersRead a b s)
      ((if_neg (reading_headers hst hcand)).trans ((if_neg hsrc).trans ?_))
    simp only [ha, hb]
  · refine goes_event (exec_imageBodyReadDone (some b) s) ?_
    cases hbody : bodyCheck src h b with
    | error r => simp only [doImageBodyReadDone, hst, hcand, hbody, Bool.not_true, Bool.false_eq_true, if_false]
    | ok img => simp only [doImageBodyReadDone, hst, hcand, hbody, Bool.not_true, Bool.false_eq_true, if_false]
  · exact goes_event (exec_imageBodyReadDone none s) (by simp [doImageBodyReadDone, hst, hcand])
  · refine goes_event (exec_startupHbmDone [] s) ?_
    simp only [doStartupHbmDone, hst, Bool.not_true, Bool.false_eq_true, if_false, List.isEmpty_nil]
    rfl
  · exact goes_event (exec_startupHbmDone (d :: ds) s) (by simp [doStartupHbmDone, hst])
  · exact goes_event (exec_startupUcodeDone s) (if_pos (by simp only [hst, htested, Bool.and_self]))

/-! ### Clocks and the JTAG port -/

/-- Boundary scan acts while HALTED with reason STRAP only (R468). -/
theorem scanAllowed_iff {s : State} : scanAllowed s = true ↔ s.boot.stage = 8 ∧ s.boot.reason = 0x12 := by
  simp [scanAllowed]

/-- Settles O31: the clocks' events unfold; a scan instruction acts or bypasses by `scanAllowed`. -/
theorem clockAndJtagEventsComplete : Obligations.ClockAndJtagEventsComplete := by
  unfold Obligations.ClockAndJtagEventsComplete
  refine ⟨fun clk ns s => goes_event (exec_refclkSdsLoss clk ns s) (by simp only [doRefclkSdsLoss]),
    fun clk s => goes_event (exec_refclkSdsRestored clk s) rfl, fun s => goes_event (exec_bypass s) rfl,
    fun s => goes_event (exec_idcode s) rfl, rfl, fun bits s => goes_event (exec_samplePreload bits s) rfl,
    fun s hstage hreason => ?_, fun s hout => ?_⟩
  · have hscan : scanAllowed s = true := scanAllowed_iff.2 ⟨hstage, hreason⟩
    exact ⟨goes_event (exec_extest s) (if_pos hscan), goes_event (exec_clamp s) (if_pos hscan),
      goes_event (exec_highz s) (if_pos hscan)⟩
  · have hscan : ¬ scanAllowed s = true := fun h => hout (scanAllowed_iff.1 h)
    exact ⟨goes_event (exec_extest s) (if_neg hscan), goes_event (exec_clamp s) (if_neg hscan),
      goes_event (exec_highz s) (if_neg hscan)⟩

end Sys2Proof.Machine
end

section
/-! PROOF. The pipelines (R129 to R145, R150, R199): what each event leaves. -/

namespace Sys2Proof.Machine

open Sys2Proof

theorem doParseStart_unsampled {h : Nat} {bad : Option (Fin 12)} {lane : Bool} {s : State} {k : Pkt}
    (hpkt : pktOf s h = some k) (hstage : k.stage = .ingress) (hcounted : k.counted = false)
    (hlong : isWhole k = true ∨ 2048 ≤ k.rx.length)
    (hown : (k.tail = .open ∨ k.tail = .good) → toBinnacle s k.port k.rx = false)
    (hfree : (pipeState s (pipeOf k.port)).hold6 = none) (hoff : fv s 15 0x20 (pipeOf k.port) 0 1 = 0) :
    let gen := b2n s.cls.activeGen
    let u := { s with cls.genCount := modAt s.cls.genCount gen (fun n => n + 1) }
    let r := runPass h 0 bad lane { pset bGEN gen k with counted := true } u
    doParseStart h bad lane s = stage6Pass h (putPkt h r.1 r.2) := by
  intro gen u r
  have hready : ¬ (k.stage != .ingress || k.counted || (!isWhole k && k.rx.length < 2048)
      || (pipeState s (pipeOf k.port)).hold6.isSome) = true := by
    simpa [hstage, hcounted, hfree, or_iff_not_imp_left] using hlong
  have hfor : ¬ ((k.tail == .open || k.tail == .good) && toBinnacle s k.port k.rx) = true := by
    simpa [or_imp] using hown
  have hmark : fv { s with cls.genCount := modAt s.cls.genCount (b2n s.cls.activeGen) (fun n => n + 1) }
      15 0x20 (pipeOf k.port) 0 1 ≠ 1 := fun h => absurd (hoff.symm.trans h) (by decide)
  simp only [doParseStart, hpkt, if_neg hready, if_neg hfor, hmark, decide_false, Bool.false_and, Bool.false_eq_true, if_false]
  rfl

/-- A recirculated packet gives its buffers back and starts its next pass, behind what it has stripped (R143). -/
theorem doRecircPassStart_front {pipe : Fin 4} {bad : Option (Fin 12)} {lane : Bool} {s : State} {h : Nat} {rest : List Nat}
    {k : Pkt} (hfront : (pipeState s pipe.val).recirc = h :: rest) (hpkt : pktOf s h = some k) (hstage : k.stage = .recirc)
    (hfree : (pipeState s pipe.val).hold6 = none) :
    let v := k.bufs.foldl (fun s r => poolRelease r s) (modPipe pipe.val (fun p => { p with recirc := rest }) s)
    let inner := if pget k bDECAP = 1 then k.lvl2 else none
    let start := (inner.map (fun x => x.2)).getD 0
    let off := (inner.map (fun x => x.1)).getD 0
    let ans := k.ans.map (fun a => { a with level := levelShift off a.level })
    let k' := { k with bus := nextPassBus k, tx := k.tx.drop off, bufs := [], stage := PktStage.ingress, ans := ans }
    let r := runPass h start bad lane k' v
    doRecircPassStart pipe bad lane s = stage6Pass h (putPkt h r.1 r.2) := by
  have hready : ¬ (k.stage != .recirc || (pipeState s pipe.val).hold6.isSome) = true := by simp [hstage, hfree]
  by_cases hstrip : pget k bDECAP = 1
  · cases hlvl : k.lvl2 with
    | none => simp only [doRecircPassStart, hfront, hpkt, if_neg hready, hstrip, hlvl]; rfl
    | some x => simp only [doRecircPassStart, hfront, hpkt, if_neg hready, hstrip, hlvl]; rfl
  · simp only [doRecircPassStart, hfront, hpkt, if_neg hready, hstrip]
    rfl

theorem doDecideReenter_front {pk : Nat} {bad : Option (Fin 12)} {s : State} {k : Pkt} (hpkt : pktOf s pk = some k)
    (hstage : k.stage = .answered) (hheld : k.wasHeld = true)
    (hfront : (pipeState s (pipeOf k.port)).recirc.head? = some pk) (hfree : (pipeState s (pipeOf k.port)).hold6 = none) :
    let u := k.bufs.foldl (fun s r => poolRelease r s)
      (modPipe (pipeOf k.port) (fun p => { p with recirc := p.recirc.drop 1 }) s)
    doDecideReenter pk bad s = resume pk bad { k with bufs := [], passCfg := pipeCfg u } (monPoint pk 7 k u) := by
  have hready : ¬ (k.stage != .answered || !k.wasHeld || (pipeState s (pipeOf k.port)).recirc.head? != some pk
      || (pipeState s (pipeOf k.port)).hold6.isSome) = true := by
    simp [hstage, hheld, hfront, hfree]
  simp only [doDecideReenter, hpkt, if_neg hready]

/-- A packet marked for another pass that has one left recirculates (R142). -/
theorem doStage12Exit_loops {h : Nat} {ns : BitVec 10} {s : State} {k : Pkt} (hpkt : pktOf (atNs ns s) h = some k)
    (hstage : k.stage = .stage12) (hrecirc : pget k bRECIRC = 1) (hkept : pget k bDROP = 0)
    (hleft : pget k bPASS + 1 < fv (passView k (monPoint h 4 k (atNs ns s))) 2 1 (pipeOf k.port) 0 3) :
    doStage12Exit h ns s = recirculate h k (monPoint h 4 k (atNs ns s)) := by
  have hready : ¬ (k.stage != .stage12) = true := by simp [hstage]
  simp only [doStage12Exit, hpkt, if_neg hready]
  exact if_pos (by simp [hrecirc, hkept, hleft])

/-- Any other packet leaves the pipeline: to a discard by its reason, to one for too many passes, or to the traffic manager. -/
theorem doStage12Exit_leaves {h : Nat} {ns : BitVec 10} {s : State} {k : Pkt} (hpkt : pktOf (atNs ns s) h = some k)
    (hstage : k.stage = .stage12)
    (hlast : pget k bRECIRC = 1 ∧ pget k bDROP = 0 →
      fv (passView k (monPoint h 4 k (atNs ns s))) 2 1 (pipeOf k.port) 0 3 ≤ pget k bPASS + 1) :
    let u := monPoint h 4 k (atNs ns s)
    let k' := if k.wasHeld = true then k else { k with epoch := none }
    let v := uncount k' (if k.wasHeld = true then u else epochLeave k u)
    let m := ingMeter { k' with counted := false } v
    let w := putPkt h m.1 m.2
    doStage12Exit h ns s =
      if pget m.1 bDROP = 1 then discardEnd h m.1 (pget m.1 bDROP_REASON) (countReason (pipeOf k.port) (pget m.1 bDROP_REASON) w)
      else if pget k bRECIRC = 1 ∧ pget k bDROP = 0 then discardEnd h m.1 0x81 (countReason (pipeOf k.port) 0x81 w)
      else lastExit h m.1 w := by
  have hready : ¬ (k.stage != .stage12) = true := by simp [hstage]
  have hout : ¬ ((decide (pget k bRECIRC = 1) && decide (pget k bDROP = 0))
      && !decide (fv (passView k (monPoint h 4 k (atNs ns s))) 2 1 (pipeOf k.port) 0 3 ≤ pget k bPASS + 1)) = true := by
    simpa using fun hr hd => hlast ⟨hr, hd⟩
  simp only [doStage12Exit, hpkt, if_neg hready, if_neg hout]
  simp only [Bool.and_eq_true, decide_eq_true_eq]

/-- Settles O32: by the lemmas on parsing, recirculation and stage 12; a lookup's answer and a stuck swap by their own case. -/
theorem pipelineEventsComplete : Obligations.PipelineEventsComplete := by
  unfold Obligations.PipelineEventsComplete
  refine ⟨fun h bad lane s k hpkt hstage hcounted hlong hown hfree hoff => ?_,
    fun pipe bad lane s h rest k hfront hpkt hstage hfree => ?_, fun pk bad s k hpkt hstage hheld => ?_,
    fun pk bad s k hpkt hstage hheld hfront hfree => ?_, fun h ns s k hpkt hstage => ?_,
    fun h ns s k hpkt hstage => ?_, fun s w hswap hcount hlate => ?_⟩
  · exact goes_event (exec_parseStart h bad lane s) (doParseStart_unsampled hpkt hstage hcounted hlong hown hfree hoff)
  · exact goes_event (exec_recircPassStart pipe bad lane s) (doRecircPassStart_front hfront hpkt hstage hfree)
  · exact goes_event (exec_lookupAnswer pk bad s) (by simp [doLookupAnswer, hpkt, hstage, hheld])
  · exact goes_event (exec_decideReenter pk bad s) (doDecideReenter_front hpkt hstage hheld hfront hfree)
  · intro u hrecirc hkept hleft
    exact goes_event (exec_stage12Exit h ns s) (doStage12Exit_loops hpkt hstage hrecirc hkept hleft)
  · intro u loops hlast
    exact goes_event (exec_stage12Exit h ns s) (doStage12Exit_leaves hpkt hstage hlast)
  · exact goes_event (exec_genDrainStuck s) (by simp [doGenDrainStuck, hswap, hcount, hlate])

end Sys2Proof.Machine
end

section
/-! PROOF. Frames and cells (R98, R243 to R256, R277 to R281): a damaged cell of a frame that is sent is found and reported. -/

namespace Sys2Proof.Machine

open Sys2Proof

/-- A word with one flipped bit is used as it is, with a message (R271). -/
theorem useWord_wire_corrected {corr uncorr : FaultKind} {addr : Nat} {s : State} {d : Damage}
    (hdamage : damageAt s corr.1 corr.2.1 addr = some d) (hone : popCount d.flip ≤ 1) :
    (useWord corr uncorr addr s).1 = false
      ∧ (useWord corr uncorr addr s).2.lod.wire = s.lod.wire ++ [{ mkFault corr addr [] [] with injected := true }] := by
  simp [useWord, hdamage, hone, raiseInjected, clearDamage]

/-- A cell is read from its buffer word, and what that use reports stands on the wire (R271). -/
theorem doEgressCellSend_wire {port : Fin 128} {cell : BitVec 19} {s : State} {t : TxState} {k : Pkt}
    (htx : kfind s.sw.tx port.val = some t) (hpkt : pktOf s t.copy.pkt = some k) (hkept : t.lost = false)
    (hcut : t.cut = none) (hsafe : portSafe s port.val = false) (hmore : 256 * t.sent < k.tx.length) (hwhole : k.coming = [])
    (hgood : (useWord fkCELL_CORR fkCELL_UNCORR cell.toNat s).1 = false) :
    (doEgressCellSend port cell false false s).lod.wire = (useWord fkCELL_CORR fkCELL_UNCORR cell.toNat s).2.lod.wire := by
  simp [doEgressCellSend, htx, hpkt, hkept, hcut, hsafe, hwhole, hgood, Nat.not_le.2 hmore]

/-- A whole packet, in handle 3. -/
def damagedPkt : Pkt := { pktReset 0 0 with tx := [0] }

/-- Its copy is sent on port 0, from the first cell. -/
def damagedTx : TxState :=
  { copy := { pkt := 3, queue := 3, g := 0, sh := 0, hd := 0, cutThrough := false, admitted := 0, tc := 0, expired := false,
              first := true }
    tier := 1, startNs := 0, startSub := 0, sent := 0, cut := none, lost := false, maxLen := 9600 }

/-- Cell 5 holds one flipped bit while port 0 sends. -/
def sendingDamaged : State :=
  { State.reset with
    sw.pkts := [(3, damagedPkt)]
    sw.tx := [(0, damagedTx)]
    lod.damage := [{ source := 0x09, kind := 1, addr := 5, flip := 1 }] }

/-- Refutes O34: a cell with one flipped bit is sent, but a message of its use joins the wire, which the statement says it
does not. -/
theorem not_frameEventsComplete : ¬ Obligations.FrameEventsComplete := by
  unfold Obligations.FrameEventsComplete
  intro h
  obtain ⟨-, -, -, -, -, -, hsend, -⟩ := h
  have htx : kfind sendingDamaged.sw.tx 0 = some damagedTx := rfl
  have hpkt : pktOf sendingDamaged damagedTx.copy.pkt = some damagedPkt := rfl
  have hmore : 256 * damagedTx.sent < damagedPkt.tx.length := by decide
  have hdamage : damageAt sendingDamaged fkCELL_CORR.1 fkCELL_CORR.2.1 (5 : BitVec 19).toNat
      = some { source := 0x09, kind := 1, addr := 5, flip := 1 } := rfl
  obtain ⟨hgood, hreport⟩ := useWord_wire_corrected (uncorr := fkCELL_UNCORR) hdamage (by decide)
  have hwire := doEgressCellSend_wire (port := 0) (cell := 5) htx hpkt rfl rfl rfl hmore rfl hgood
  have hgoes := hsend 0 5 sendingDamaged damagedTx damagedPkt htx hpkt rfl rfl rfl hmore (.inl rfl)
  have hsame : (doEgressCellSend 0 5 false false sendingDamaged).lod.wire = sendingDamaged.lod.wire := by
    have hnext : settle (doEgressCellSend 0 5 false false sendingDamaged) = settle _ :=
      Host.Outcome.next.inj ((exec_egressCellSend 0 5 false false sendingDamaged).symm.trans hgoes)
    simpa using congrArg (fun s => s.lod.wire) hnext
  have hlonger := congrArg List.length (hwire.symm.trans hsame)
  rw [hreport] at hlonger
  simp at hlonger

end Sys2Proof.Machine
end

section
/-! PROOF. The switch core and the pools (R250 to R301): what each event leaves. -/

namespace Sys2Proof.Machine

open Sys2Proof

/-! ### The switch core -/

theorem pktOf_modPipe (p : Nat) (f : ScPipe → ScPipe) (s : State) (h : Nat) : pktOf (modPipe p f s) h = pktOf s h := rfl

/-- Settles O35: each event of the switch core, by the branch that its premises select. -/
theorem switchEventsComplete : Obligations.SwitchEventsComplete := by
  unfold Obligations.SwitchEventsComplete
  refine ⟨fun pipe s h rest k hfront hpkt => ?_, fun pipe s h rest k w hfront hpkt => ?_, fun port s => ?_,
    fun port s => ?_, fun port cells s hflush => goes_event (exec_flushRelease port cells s) (if_pos hflush),
    fun port s age hage hlong hfirst => ?_, fun s => goes_event (exec_loglineDeliver s) rfl,
    fun s hon => goes_event (exec_soundDeliver s) (if_pos hon), fun s hon => goes_event (exec_monRecordDeliver s) (if_pos hon),
    fun lost s => goes_event (exec_cellAuditVisit lost s) ?_⟩
  · intro u k' r v hnone
    refine goes_event (exec_mcReplicate pipe s) ?_
    simp only [doMcReplicate, hfront, pktOf_modPipe, hpkt]
    exact if_pos hnone
  · intro u k' r v hsome hw
    refine goes_event (exec_mcReplicate pipe s) ?_
    simp only [doMcReplicate, hfront, pktOf_modPipe, hpkt]
    refine (if_neg (Nat.pos_iff_ne_zero.1 hsome)).trans ?_
    simp only [v, r, k', u] at hw ⊢
    simp only [hw]
  · intro vec hup hvec hport
    exact goes_event (exec_pfcFrameSend port s) (if_pos ⟨hup, hvec, hport⟩)
  · intro vec hup hvec hdue
    exact goes_event (exec_pauseRefresh port s) (if_pos ⟨hup, hvec, hdue⟩)
  · refine goes_event (exec_flushStuck port s) ?_
    simp only [doFlushStuck, hage]
    exact if_pos ⟨hlong, hfirst⟩
  · simp only [doCellAuditVisit, ite_not]

/-! ### The pools -/

/-- An operation issues on a free tag of a running engine. -/
theorem onTag_ready {eng : Fin 512} {tag : Fin 8} {f : Nat → Nat → State → State} {s : State} (h : TagReady s eng tag) :
    onTag eng tag f s = f eng.val tag.val s := by
  obtain ⟨hrun, hfree⟩ := h
  simp [onTag, hrun, hfree]

/-- What a pool's answer to a Skipper leaves in the tag: the buffer's reference, or NOBUF (R299). -/
def allocDone (id t owner : Nat) (o : MemOp) (a : Option Nat × State) : State :=
  match a with
  | (none, s) => setOp id t { o with status := stNOBUF } s
  | (some r, s) =>
    setOp id t { o with result := r } (modEng id (fun e => { e with allocs := e.allocs ++ [r] })
      { s with pools.prov := kput s.pools.prov r owner })

/-- A pool of the routine's own, or of a stated owner, is asked. -/
theorem memPoolAlloc_allowed {id t pool owner : Nat} {s : State} (hpool : pool ≠ 7)
    (howner : owner = id ∨ 0x200 ≤ owner ∧ owner ≤ 0x203 ∨ owner = 0x250) :
    memPoolAlloc id t pool owner s =
      allocDone id t owner (newOp s id 10) (poolTake id (acctOf owner) pool (noteIssue id 10 s)) := by
  have hallowed : ¬ (pool = 7 || !(owner = id || (0x200 ≤ owner && owner ≤ 0x203) || owner = 0x250)) = true := by
    obtain rfl | ⟨hlo, hhi⟩ | rfl := howner
    · simp [hpool]
    · simp [hpool, hlo, hhi]
    · simp [hpool]
  simp only [memPoolAlloc, if_neg hallowed]
  rfl

/-- Settles O36: the bus and the buffers' frees unfold; a Skipper's allocation by what the pool answers. -/
theorem poolEventsComplete : Obligations.PoolEventsComplete := by
  unfold Obligations.PoolEventsComplete
  refine ⟨fun start reqs s => goes_event (exec_poolRequest start reqs s) rfl,
    fun owner ref s => goes_event (exec_bufferFree owner ref s) rfl, fun eng tag pool owner s => ?_,
    fun eng tag ref s => ?_⟩
  · dsimp only
    intro hrun hfree hpool howner
    refine goes_event (exec_skPoolAlloc eng tag pool owner s)
      ((onTag_ready ⟨hrun, hfree⟩).trans ((memPoolAlloc_allowed hpool howner).trans ?_))
    obtain ⟨x, t⟩ := poolTake eng.val (acctOf owner.toNat) pool.val (noteIssue eng.val 10 s)
    cases x with
    | none => rfl
    | some r => rfl
  · intro id hrun hfree
    refine goes_event (exec_skPoolFree eng tag ref s) ((onTag_ready ⟨hrun, hfree⟩).trans ?_)
    simp only [memPoolFree, Nat.mod_eq_of_lt ref.isLt]
    rfl

end Sys2Proof.Machine
end

section
/-! PROOF. The HBM subsystem (R310 to R326): what each event leaves. -/

namespace Sys2Proof.Machine

open Sys2Proof

/-! ### Requests, and what a channel issues -/

/-- A port takes a request that is not masked and for which it has room (R324). -/
theorem doHbmRequest_enters {port : Fin 43} {req : HbmReq} {s : State}
    (hroom : (kget [] (stackOf s (pcStack (reqPlace s req).pc)).queues port.val).length < 128)
    (hflows : kget [] s.hbm.stalled port.val = []) (hopen : s.hbm.masked.contains req.id.toNat = false) :
    doHbmRequest port req s = portEnter port.val req s := by
  have hstalls : portStalls s port.val req = false := by
    simp only [portStalls, hflows, List.isEmpty_nil, Bool.not_true, Bool.false_or, decide_eq_false_iff_not]
    omega
  exact if_neg (by rw [hopen, hstalls]; decide)

/-- The ready bank that is served next, round robin from the bank after the last one served. -/
def nextBank (p : Nat) (ready : List (Fin 16)) (s : State) : Option Nat :=
  ((List.range 16).map (fun i => ((pcOf s p).lastBank + 1 + i) % 16)).find?
    (fun b => ready.any (fun r => r.val == b) && bankCanIssue s (pcStack p) (pairedShut s p) (bankOfPc (pcOf s p) b))

/-- No bank is served where none of the ready ones can issue. -/
theorem nextBank_eq_none {p : Nat} {ready : List (Fin 16)} {s : State}
    (h : ∀ b ∈ List.range 16, ready.any (fun r => r.val == ((pcOf s p).lastBank + 1 + b) % 16) = true →
      bankCanIssue s (pcStack p) (pairedShut s p) (bankOfPc (pcOf s p) (((pcOf s p).lastBank + 1 + b) % 16)) = false) :
    nextBank p ready s = none := by
  simp only [nextBank, List.find?_eq_none, List.mem_map]
  rintro _ ⟨b, hb, rfl⟩
  cases hready : ready.any (fun r => r.val == ((pcOf s p).lastBank + 1 + b) % 16) with
  | false => simp
  | true => simp [h b hb hready]

/-- What a working channel issues: a write where it drains or no bank can issue, else what the next bank has (R312). -/
theorem doHbmCommandIssue_ready {pc : Fin 192} {ready : List (Fin 16)} {s : State} (hmode : (pcOf s pc.val).mode = .ready)
    {wr : Option HbmWrite} (hwr : (pcOf s pc.val).writes.find? (writeReady s pc.val ready) = wr) {bank : Option Nat}
    (hbank : nextBank pc.val ready s = bank) :
    (bank = none → doHbmCommandIssue pc ready s = wr.elim s (fun w => issueWrite pc.val w s))
      ∧ (∀ b, bank = some b → wr = none → doHbmCommandIssue pc ready s =
          doHbmCommandIssue.issueBank pc.val (pcStack pc.val) b s)
      ∧ (∀ b w, bank = some b → wr = some w → (pcOf s pc.val).drain = true ∨ (pcOf s pc.val).aged = true →
          doHbmCommandIssue pc ready s = issueWrite pc.val w s) := by
  rw [nextBank] at hbank
  have hon : ¬ (pcOf s pc.val).mode ≠ .ready := not_not_intro hmode
  refine ⟨?_, ?_, ?_⟩
  · rintro rfl
    cases wr <;> simp only [doHbmCommandIssue, if_neg hon, hwr, hbank] <;> rfl
  · rintro b rfl rfl
    simp only [doHbmCommandIssue, if_neg hon, hwr, hbank]
  · rintro b w rfl rfl hfirst
    simp only [doHbmCommandIssue, if_neg hon, hwr, hbank]
    exact if_pos (by simpa using hfirst)

/-- A bank with no refresh due issues the entry that its rules pick. -/
theorem issueBank_picked {p stack b : Nat} {s : State} {e : HbmEntry} (hdue : refreshDueNow (bankOfPc (pcOf s p) b) = false)
    (hpick : bankPick (modPc p (fun c => { c with lastBank := b }) s) stack
      (pairedShut (modPc p (fun c => { c with lastBank := b }) s) p) (bankOfPc (pcOf s p) b) = some e) :
    doHbmCommandIssue.issueBank p stack b s =
      makeUpRefresh p b (issueEntry p b e (modPc p (fun c => { c with lastBank := b }) s)) := by
  simp only [doHbmCommandIssue.issueBank, hdue, hpick, Bool.false_eq_true, if_false]

/-! ### Rows and refreshes -/

/-- A refresh of a bank that is held is postponed (R317). -/
theorem doRefreshDue_held {pc : Fin 192} {bank : Fin 16} {s : State} (hhold : (bankOfPc (pcOf s pc.val) bank.val).hold ≠ [])
    (hmode : (pcOf s pc.val).mode ≠ .selfRefresh) :
    doRefreshDue pc bank s = modPc pc.val (setBank bank.val (fun k =>
      { k with postponed := min 8 (k.postponed + 1), forced := decide (8 ≤ min 8 (k.postponed + 1)) })) s := by
  simp [doRefreshDue, hhold, hmode]

/-- A refresh of an idle bank is made at once (R317). -/
theorem doRefreshDue_idle {pc : Fin 192} {bank : Fin 16} {s : State} (hhold : (bankOfPc (pcOf s pc.val) bank.val).hold = [])
    (hforced : (bankOfPc (pcOf s pc.val) bank.val).forced = false) (hqueue : (bankOfPc (pcOf s pc.val) bank.val).queue = [])
    (hmode : (pcOf s pc.val).mode = .ready) : doRefreshDue pc bank s = doRefresh pc.val bank.val false s := by
  simp [doRefreshDue, hhold, hforced, hqueue, hmode]

/-- The patrol counts a line that it has corrected (R321). -/
theorem doPatrolScrub_reads {pc : Fin 192} {line : BitVec 23} {s : State} (hon : fv s 9 6 (pcStack pc.val) 0 8 ≠ 0)
    (hlive : (pcOf s pc.val).mode ≠ .dead) :
    let pl : Place := { pc := pc.val, o := line.toNat * 64 }
    let r := hbmCheck pl s
    doPatrolScrub pc line s = if r.1 = false ∧ (hbmDamage s pl).isSome = true then hbmCount pc.val 13 r.2 else r.2 := by
  intro pl r
  refine (if_neg (by simp [hon, hlive])).trans ?_
  rcases hread : hbmCheck pl s with ⟨_ | _, t⟩
  · simp only [r, pl, hread, true_and]
  · simp only [r, pl, hread, Bool.true_eq_false, false_and, if_false]

/-- Settles O37: by the lemmas on requests, issues, refreshes and the patrol; the other events unfold. -/
theorem hbmEventsComplete : Obligations.HbmEventsComplete := by
  unfold Obligations.HbmEventsComplete
  refine ⟨fun port req s => ?_, fun stack s => ?_, fun pc ready s w => ?_, fun pc ready s b e => ?_,
    fun pc s f rest hflight => ?_, fun pc bank s => ?_, fun pc bank s => goes_event (exec_pageIdleClose pc bank s) rfl,
    fun pc s => goes_event (exec_writeAgeExpire pc s) rfl, fun pc bank s => ?_, fun pc bank s => ?_,
    fun pc s hmode hidle hset => goes_event (exec_pdIdleEnter pc s) (if_pos ⟨hmode, hidle, hset⟩),
    fun pc line s hon hlive => goes_event (exec_patrolScrub pc line s) (doPatrolScrub_reads hon hlive)⟩
  · intro k hroom hflows hopen
    exact goes_event (exec_hbmRequest port req s) (doHbmRequest_enters hroom hflows hopen)
  · intro k hon broke
    refine goes_event (exec_hbmGrant stack s) (if_neg ?_)
    rw [show domainOn s (50 + stack.val) = true from hon]
    decide
  · intro p c isReady hmode hwrite hfirst
    refine goes_event (exec_hbmCommandIssue pc ready s) ?_
    obtain ⟨hnone, -, hboth⟩ := doHbmCommandIssue_ready hmode hwrite rfl
    cases hbank : nextBank pc.val ready s with
    | none => exact hnone hbank
    | some b =>
      obtain hdrain | haged | hidle := hfirst
      · exact hboth b w hbank rfl (.inl hdrain)
      · exact hboth b w hbank rfl (.inr haged)
      · exact absurd (hbank.symm.trans (nextBank_eq_none hidle)) (by simp)
  · intro p c isReady u hmode hempty hbank hdue hpick
    obtain ⟨-, hread, -⟩ := doHbmCommandIssue_ready (ready := ready) hmode (congrArg (List.find? _) hempty) hbank
    exact goes_event (exec_hbmCommandIssue pc ready s) ((hread b rfl rfl).trans (issueBank_picked hdue hpick))
  · refine goes_event (exec_hbmReadReturn pc s) ?_
    simp only [doHbmReadReturn, hflight]
  · intro k hhold
    exact goes_event (exec_rowHoldExpire pc bank s) (if_neg (by simpa using hhold))
  · intro k hhold hmode
    exact goes_event (exec_refreshDue pc bank s) (doRefreshDue_held hhold hmode)
  · intro k hhold hforced hqueue hmode
    exact goes_event (exec_refreshDue pc bank s) (doRefreshDue_idle hhold hforced hqueue hmode)

end Sys2Proof.Machine
end

section
/-! PROOF. Metering (R29, R30, R336 to R341): what each event leaves. -/

namespace Sys2Proof.Machine

open Sys2Proof

/-- A closing block is sealed two Fixes after its minute: its first block continues the newest checkpoint (R336). -/
theorem doMeterSeal_due {s : State} {c : Closing} (hclosing : s.met.closing = some c) (hage : 2 ≤ c.age) :
    let bank := !s.met.bank
    let read := (blockEps s bank c).foldl
      (fun s e => meterReq .read (accOff bank e 0) 64 (accLine bank e (epWord bank e s))) s
    let eps := blockEps read bank c
    let newest := read.met.ckpts.head?
    let prevMin := if read.met.first then (newest.map (fun k => k.minute)).getD (2 ^ 64 - 1)
      else read.met.lastMinute.getD (2 ^ 64 - 1)
    let prevHead := if read.met.first then (newest.map (fun k => k.head)).getD (zerosB 64)
      else read.met.lastHead.getD (zerosB 64)
    let h := headerBytes read c eps.length prevMin (read.met.first && newest.isNone) (read.met.first && newest.isSome)
    let staged := (List.range eps.length).foldl (fun s i => meterReq .write (stageOff c.minute + 64 * i) 64 s)
      (hbmWrite 2 (stageOff c.minute) ((eps.map (recordBytes read bank c)).flatten) (overrun c.minute read))
    let u := eps.foldl (fun s e => meterReq .write (accOff bank e 0) 64 s) staged
    let b : Block := { minute := c.minute, header := h, records := eps.length, prevHead := prevHead, head := none,
                       delivery := .pending, sent := 0, ckpt := false, late := false, age := c.age }
    let lo := hbmKey 2 (accOff bank 0 0)
    doMeterSeal s = { u with
      met.staged := u.met.staged ++ [b]
      met.closing := none
      met.eps := u.met.eps.filter (fun e => decide (e.1 / 2 ^ 18 ≠ b2n bank))
      hbm.mem := u.hbm.mem.filter (fun k => !(decide (lo ≤ k.1) && decide (k.1 < lo + 2 ^ 24)))
      met.lastMinute := some c.minute
      met.lastHead := none
      met.first := false
      met.blocksClosed := u.met.blocksClosed + 1 } := by
  intro bank read eps newest
  have hdue : ¬ c.age < 2 := Nat.not_lt.2 hage
  simp only [doMeterSeal, hclosing, if_neg hdue]
  cases hnewest : newest with
  | none => simp only [newest, read, bank] at hnewest; simp only [hnewest]; rfl
  | some k => simp only [newest, read, bank] at hnewest; simp only [hnewest]; rfl

/-- Settles O38: by the lemma on the seal; the chain, the checkpoints and the ring by their own case. -/
theorem meteringEventsComplete : Obligations.MeteringEventsComplete := by
  unfold Obligations.MeteringEventsComplete
  refine ⟨fun s c hclosing hage => goes_event (exec_meterSeal s) (doMeterSeal_due hclosing hage),
    fun s m head b hnext hstaged => ?_, fun s b head hfind hhead => ?_, fun s b hfind => ?_, fun s b hon hfind => ?_⟩
  · refine goes_event (exec_billingHashDone s) ?_
    simp only [doBillingHashDone, hnext, hstaged]
  · refine goes_event (exec_ckptWriteDone s) ?_
    simp only [doCkptWriteDone, hfind, hhead, Option.getD_some]
  · refine goes_event (exec_ckptLate s) ?_
    simp only [doCkptLate, hfind]
  · intro u
    refine goes_event (exec_billRingDeliver s) ((if_pos hon).trans ?_)
    simp only [hfind]
    simp only [u]
    cases (billSlots b.minute (b.records + 2) s).met.staged.find?
        (fun b => b.delivery == .pending || b.delivery == .inProgress) with
    | none => rfl
    | some b' => rfl

end Sys2Proof.Machine
end

section
/-! PROOF. The pair (R347, R348, R353 to R365): what its frames and timers leave. -/

namespace Sys2Proof.Machine

open Sys2Proof

/-! ### Frames that arrive -/

/-- A sound frame of the type that is read updates what its header says and is then acted on. -/
theorem rxFrame_sound {typ : Nat} {f : Bytes} {k : State → State} {s : State} (hsolo : s.pair.st ≠ .solo)
    (hdown : s.pair.st ≠ .down) (hframe : rhFrameOk f = true) (htype : rhType f = typ) :
    rxFrame typ f k s = k (rxHeader f s) := by
  obtain ⟨hcrc, hform⟩ := (Bool.and_eq_true_iff).1 hframe
  simp [rxFrame, hsolo, hdown, hcrc, hform, htype]

theorem rxHeader_st (f : Bytes) (s : State) : (rxHeader f s).pair.st = s.pair.st := rfl

/-- DATA that is due is taken into buffers, an event each (R353). -/
theorem doRhDataReceived_inSequence {frame : Bytes} {s : State} {bufs : List Nat} {u : State} (hsolo : s.pair.st ≠ .solo)
    (hdown : s.pair.st ≠ .down) (hframe : rhFrameOk frame = true) (htype : rhType frame = 1)
    (hup : pairUp (rxHeader frame s) = true) (hdue : beAt frame 4 4 = (rhUse 2 2 (rxHeader frame s)).pair.rxSeq)
    (htake : takeRx ((beAt frame 17 1 + 1) / 2) [] (rhUse 2 2 (rxHeader frame s)) = (some bufs, u)) :
    let n := beAt frame 17 1
    let es := rxEvents n (beAt frame 4 4) (frame.drop 32)
    let new := (List.range n).map (fun i =>
      ({ ev := es.getD i { seq := 0, kind := 0, body := [] }, buf := bufs[i / 2]?, deferred := false } : RxEvent))
    doRhDataReceived frame s =
      { u with pair.rxq := u.pair.rxq ++ new, pair.rxSeq := (u.pair.rxSeq + n) % 2 ^ 32, pair.ackDue := true } := by
  have hready : ¬ (!pairUp (rxHeader frame s)) = true := by simp [hup]
  refine (rxFrame_sound hsolo hdown hframe htype).trans ((if_neg hready).trans ((if_neg (not_not_intro hdue)).trans ?_))
  simp only [htake]

theorem doRhDataReceived_outOfSequence {frame : Bytes} {s : State} (hsolo : s.pair.st ≠ .solo) (hdown : s.pair.st ≠ .down)
    (hframe : rhFrameOk frame = true) (htype : rhType frame = 1) (hup : pairUp (rxHeader frame s) = true)
    (hother : beAt frame 4 4 ≠ (rhUse 2 2 (rxHeader frame s)).pair.rxSeq) :
    let v := rhUse 2 2 (rxHeader frame s)
    doRhDataReceived frame s = if seqBefore v.pair.rxSeq (beAt frame 4 4) = true then { v with pair.nakDue := true }
      else { v with pair.ackDue := true } := by
  have hready : ¬ (!pairUp (rxHeader frame s)) = true := by simp [hup]
  exact (rxFrame_sound hsolo hdown hframe htype).trans ((if_neg hready).trans (if_pos hother))

/-! ### Frames that leave, and timers -/

/-- The peer is lost once its silence has lasted (R361). -/
theorem peerSilent_eq_true {s : State} (hup : pairUp s = true) (hquiet : fv s 13 4 0 0 8 ≤ s.pair.quiet) :
    peerSilent s = true := by
  simp [peerSilent, hup, hquiet]

/-- The sweep runs its share of the table's buckets in a Fix. -/
theorem doResyncSweep_buckets {s : State} {w : Sweep} (hsweep : s.pair.sweep = some w) (hst : s.pair.st = .resync)
    (hopen : w.ended = false) (hnew : w.last ≠ some s.clock.fix) (hroom : s.pair.txq.length ≤ 8192)
    (hmore : w.bucket < tableBuckets s) :
    let m := min (fv s 13 7 0 0 13) (tableBuckets s - w.bucket)
    let t := (List.range m).foldl (fun s i => (bucketRecs s (w.bucket + i)).foldl (fun s x => sweepRec x s) s) s
    let w' := { w with bucket := w.bucket + m, sent := w.sent + sweepSent s t, last := some s.clock.fix }
    doResyncSweep s = { t with pair.sweep := some w' } := by
  have hready : ¬ (s.pair.st != .resync || w.ended || w.last == some s.clock.fix || 8192 < s.pair.txq.length) = true := by
    simp [hst, hopen, hnew, Nat.not_lt.2 hroom]
  simp only [doResyncSweep, hsweep, if_neg hready, if_pos hmore]

/-- Settles O39: a frame by the lemma on sound frames; a frame sent and a timer by its own case. -/
theorem pairEventsComplete : Obligations.PairEventsComplete := by
  unfold Obligations.PairEventsComplete
  refine ⟨fun frame s bufs u hsolo hdown hframe htype => ?_, fun frame s hsolo hdown hframe htype => ?_,
    fun frame s hsolo hdown hframe htype => ?_, fun frame beat s hst hframe htype => ?_,
    fun frame hello s hst hframe htype => ?_, fun frame hello s hst hframe htype => ?_,
    fun frame home epoch s hsolo hdown hframe htype => ?_, fun frame home epoch status s hsolo hdown hframe htype => ?_,
    fun s hup => ?_, fun s hup => ?_, fun s hdue => ?_, fun s hup hsent => ?_, fun s hup hquiet => ?_,
    fun s hdown hclk => ?_, fun s hhello hmismatch hdown => ?_, fun s hst => ?_,
    fun s w hsweep hst hopen hnew hroom hmore => ?_⟩
  · intro v n hup hdue htake
    exact goes_event (exec_rhDataReceived frame s)
      (doRhDataReceived_inSequence hsolo hdown hframe htype hup hdue htake)
  · intro v hup hother
    exact goes_event (exec_rhDataReceived frame s) (doRhDataReceived_outOfSequence hsolo hdown hframe htype hup hother)
  · exact goes_event (exec_rhAckReceived frame s) (rxFrame_sound hsolo hdown hframe htype)
  · intro v hv hdone
    refine goes_event (exec_rhHeartbeatReceived frame beat s)
      ((rxFrame_sound (by simp [hst]) (by simp [hst]) hframe htype).trans ?_)
    simp only [v, rxHeader_st, hst, hdone, if_true]
  · intro v hv hok hcause
    refine goes_event (exec_rhHelloReceived frame hello s)
      ((rxFrame_sound (by simp [hst]) (by simp [hst]) hframe htype).trans ?_)
    simp only [v, rxHeader_st, hst]
    exact (if_neg (not_not_intro hcause)).trans (if_pos hok)
  · intro v hv hcause
    refine goes_event (exec_rhHelloReceived frame hello s)
      ((rxFrame_sound (by simp [hst]) (by simp [hst]) hframe htype).trans ?_)
    simp only [v, rxHeader_st, hst]
    exact if_pos hcause
  · exact goes_event (exec_rhClaimReceived frame home epoch s) (rxFrame_sound hsolo hdown hframe htype)
  · refine goes_event (exec_rhClaimAckReceived frame home epoch status s)
      ((rxFrame_sound hsolo hdown hframe htype).trans ?_)
    simp only [Bool.and_eq_true, decide_eq_true_eq, and_assoc]
    rfl
  · intro u old hold
    have hready : ¬ (!pairUp s) = true := by simp [hup]
    exact goes_event (exec_rhDataSend s) ((if_neg hready).trans (if_pos (by simpa using hold)))
  · intro u hnone new v
    have hready : ¬ (!pairUp s) = true := by simp [hup]
    refine goes_event (exec_rhDataSend s) ((if_neg hready).trans (if_neg ?_))
    rw [show fitEvents 63 2016 (rhUse 0 1 s).pair.resend = [] from hnone]
    decide
  · exact goes_event (exec_rhAckSend s) (if_pos (by simpa using hdue))
  · exact goes_event (exec_rhRetransmitTimeout s) (if_pos (by simp [hup, hsent]))
  · exact goes_event (exec_peerLost s) (if_pos (peerSilent_eq_true hup hquiet))
  · refine goes_event (exec_pairLanesAligned s) ((if_neg ?_).trans (if_pos ?_))
    · rw [hclk, hdown]
      decide
    · simp [hdown]
  · refine goes_event (exec_rhAlignLost s) (if_neg ?_)
    simpa [hhello, hmismatch] using hdown
  · refine goes_event (exec_rhAlignLost s) (if_pos ?_)
    simpa [or_assoc] using hst
  · exact goes_event (exec_resyncSweep s) (doResyncSweep_buckets hsweep hst hopen hnew hroom hmore)

end Sys2Proof.Machine
end

section
/-! PROOF. The Skippers' operations (R182, R199 to R224): what each leaves. -/

namespace Sys2Proof.Machine

open Sys2Proof

/-! ### What the operations share -/

theorem lsIn_eq_true {a n : Nat} (h : a + n ≤ 1024) : lsIn a n = true := decide_eq_true h

/-- Sound bytes of the local store are read (R225). -/
theorem withLs_sound {id a n : Nat} {s : State} {f : Bytes → State → State} (hin : a + n ≤ 1024)
    (hsound : lsDamaged s id a n = none) : withLs id a n s f = f (lsRead (engOf s id) a n) s := by
  simp only [withLs, lsIn_eq_true hin, hsound, Bool.not_true, Bool.false_eq_true, if_false]

/-! ### Locks -/

/-- A lock of a bucket in the table, answered within the local store: held, out of order, a fifth, or taken (R204). -/
theorem memLock_inTable {id t code b a : Nat} {rd : Bool} {s : State} (hin : rd = true → a + 128 ≤ 1024)
    (hbucket : b < tableBuckets (noteIssue id code s)) :
    let u := noteIssue id code s
    let e := engOf u id
    memLock id t code b rd a s =
      if e.held.contains b then lockSteps id t [(b, rd, a)] (newOp s id code) u
      else if !e.held.isEmpty && decide (b < heldHigh e) then finishTag id t stLOCKORDER 0 (skipCount 5 1 u)
      else if 4 < (dedupN (b :: lockWants e)).length then finishTag id t stNOBUF 0 u
      else lockSteps id t [(b, rd, a)] (newOp s id code) u := by
  have hls : ¬ (rd && !lsIn a 128) = true := by simpa [lsIn] using hin
  simp only [memLock, if_neg hls, if_neg (Nat.not_le.2 hbucket)]

/-- A bucket that is held or in order, and that makes no fifth lock, is taken or waited for. -/
theorem memLock_takes {id t code b a : Nat} {rd : Bool} {s : State} (hin : rd = true → a + 128 ≤ 1024)
    (hbucket : b < tableBuckets (noteIssue id code s))
    (hfew : (dedupN (b :: lockWants (engOf (noteIssue id code s) id))).length ≤ 4)
    (horder : (engOf (noteIssue id code s) id).held = [] ∨ heldHigh (engOf (noteIssue id code s) id) ≤ b) :
    memLock id t code b rd a s = lockSteps id t [(b, rd, a)] (newOp s id code) (noteIssue id code s) := by
  have hlow : ¬ (!(engOf (noteIssue id code s) id).held.isEmpty
      && decide (b < heldHigh (engOf (noteIssue id code s) id))) = true := by
    simpa [or_iff_not_imp_left] using horder
  simp only [memLock_inTable hin hbucket, if_neg hlow, if_neg (Nat.not_lt.2 hfew), ite_self]

/-- A free bucket is locked at once. -/
theorem lockSteps_free {id t b a : Nat} {rd : Bool} {rest : List (Nat × Bool × Nat)} {o : MemOp} {s : State}
    (hnew : (engOf (lockUse b s) id).held.contains b = false) (hfree : lockFree (lockUse b s) b = true) :
    let o' := if rd then { o with reads := o.reads ++ [(0, b * 128, 128, a)], lines := o.lines ++ linesOf 0 (b * 128) 128 } else o
    lockSteps id t ((b, rd, a) :: rest) o s =
      lockSteps id t rest { o' with took := if o'.before.contains b then o'.took else b :: o'.took }
        (modEng id (fun e => { e with held := e.held ++ [b], heldOnce := true }) (putLock b id (lockUse b s))) := by
  simp only [lockSteps, hnew, hfree, Bool.false_eq_true, if_false, if_true]

/-- A bucket that another holder has is waited for. -/
theorem lockSteps_busy {id t b a : Nat} {rd : Bool} {rest : List (Nat × Bool × Nat)} {o : MemOp} {s : State}
    (hnew : (engOf (lockUse b s) id).held.contains b = false) (hbusy : lockFree (lockUse b s) b = false) :
    lockSteps id t ((b, rd, a) :: rest) o s =
      setOp id t { o with wait := true, locks := (b, rd, a) :: rest }
        (modSlice (bucketSlice (lockUse b s) b) (fun k => { k with
          waits := k.waits ++ [{ bucket := b, engine := id, tag := t, age := 0 }] }) (lockUse b s)) := by
  simp only [lockSteps, hnew, hbusy, Bool.false_eq_true, if_false]

/-- A bucket that the engine holds is passed. -/
theorem lockSteps_held {id t b a : Nat} {rest : List (Nat × Bool × Nat)} {o : MemOp} {s : State}
    (hheld : (engOf (lockUse b s) id).held.contains b = true) :
    lockSteps id t ((b, false, a) :: rest) o s = lockSteps id t rest o (lockUse b s) := by
  simp only [lockSteps, hheld, Bool.false_eq_true, if_false, if_true]

/-- The reads of an operation are issued once its buckets are locked. -/
theorem lockSteps_done_reads {id t : Nat} {o : MemOp} {s : State} (hreads : o.reads.isEmpty = false) :
    lockSteps id t [] o s = startReads id t o s := by
  simp only [lockSteps, hreads, Bool.false_eq_true, if_false]

/-- The list of a LOCKSET is taken in ascending order once it passes its checks (R205). -/
theorem lockNamed_takes {id t : Nat} {o : MemOp} {named : List (Nat × Bool × Nat)} {s : State}
    (hnamed : ∀ x ∈ named, x.1 < tableBuckets s ∧ (x.2.1 = true → x.2.2 + 128 ≤ 1024)) :
    let e := engOf s id
    let low := named.foldl (fun m x => min m x.1) (2 ^ 28)
    let keep := e.held.filter (fun b => decide (b < low))
    let gone := e.held.filter (fun b => !decide (b < low))
    let extra := (gone.filter (fun b => !named.any (fun x => x.1 == b))).map (fun b => (b, false, 0))
    let want := sortBy (fun x => x.1) (named ++ extra)
    (dedupN (want.map (fun x => x.1) ++ lockWants e)).length ≤ 4 →
    lockNamed id t o named s = lockSteps id t want o
      (modEng id (fun e => { e with held := keep, wbuf := e.wbuf.filter (fun w => !gone.contains w.cover) })
        (releaseLocks id gone s)) := by
  intro e low keep gone extra want hfew
  have hls : ¬ named.any (fun x => x.2.1 && !lsIn x.2.2 128) = true := by
    simp only [List.any_eq_true, Bool.and_eq_true, not_exists, not_and]
    intro x hx hrd
    simp [lsIn, (hnamed x hx).2 hrd]
  have hbuckets : ¬ named.any (fun x => decide (tableBuckets s ≤ x.1)) = true := by
    simp only [List.any_eq_true, decide_eq_true_eq, not_exists, not_and]
    exact fun x hx => Nat.not_le.2 (hnamed x hx).1
  exact (if_neg hls).trans ((if_neg hbuckets).trans (if_neg (Nat.not_lt.2 hfew)))

theorem memLockset_sound {id t a : Nat} {s : State} (hin : a + 32 ≤ 1024) (hsound : lsDamaged (noteIssue id 3 s) id a 32 = none) :
    let u := noteIssue id 3 s
    memLockset id t a s = lockNamed id t (newOp s id 3) (lockList (lsRead (engOf u id) a 32)) u := by
  simp only [memLockset, withLs_sound hin hsound]

/-- Settles O40: by the lemmas on a lock's checks and on its steps. -/
theorem skipperLockCommandsComplete : Obligations.SkipperLockCommandsComplete := by
  unfold Obligations.SkipperLockCommandsComplete
  refine ⟨fun eng tag bucket s hready => ?_, fun eng tag bucket loc s hready => ?_, fun eng tag bucket s hready => ?_,
    fun eng tag bucket loc s hready => ?_, fun eng tag bucket loc s hready => ?_, fun eng tag bucket loc s hready => ?_,
    fun eng tag bucket s hready => ?_, fun eng tag bucket s hready => ?_, fun eng tag loc s hready => ?_⟩
  · intro id b u hbucket hnot hfew horder hnew hfree
    exact goes_event (exec_lock eng tag bucket s) ((onTag_ready hready).trans
      ((memLock_takes (by simp) hbucket hfew horder).trans (lockSteps_free hnew hfree)))
  · intro id b u hbucket hnot hfew horder hnew hfree hin o
    refine goes_event (exec_lockr eng tag bucket loc s) ((onTag_ready hready).trans
      ((memLock_takes (fun _ => hin) hbucket hfew horder).trans ((lockSteps_free hnew hfree).trans ?_)))
    rw [lockSteps_done_reads rfl]
    rfl
  · intro id b u hbucket hnot hfew horder hnew hbusy
    exact goes_event (exec_lock eng tag bucket s) ((onTag_ready hready).trans
      ((memLock_takes (by simp) hbucket hfew horder).trans (lockSteps_busy hnew hbusy)))
  · intro id u hout
    refine goes_event (exec_lockr eng tag bucket loc s) ((onTag_ready hready).trans (if_pos ?_))
    simp only [lsIn, Bool.true_and, Bool.not_eq_true', decide_eq_false_iff_not]
    omega
  · intro id u b hin hbeyond
    exact goes_event (exec_lockr eng tag bucket loc s) ((onTag_ready hready).trans
      ((if_neg (by simp [lsIn_eq_true hin])).trans (if_pos hbeyond)))
  · intro id u b hin hbucket hnot hheld hlow
    refine goes_event (exec_lockr eng tag bucket loc s) ((onTag_ready hready).trans
      ((memLock_inTable (fun _ => hin) hbucket).trans ((if_neg (Bool.eq_false_iff.1 hnot)).trans (if_pos ?_))))
    simpa using ⟨hheld, hlow⟩
  · intro id u b hbucket hnot hhigh hmany
    refine goes_event (exec_lock eng tag bucket s) ((onTag_ready hready).trans
      ((memLock_inTable (by simp) hbucket).trans ((if_neg (Bool.eq_false_iff.1 hnot)).trans
        ((if_neg ?_).trans (if_pos hmany)))))
    simpa using fun _ => hhigh
  · intro id b u hbucket hheld hstill
    exact goes_event (exec_lock eng tag bucket s) ((onTag_ready hready).trans
      ((memLock_inTable (by simp) hbucket).trans ((if_pos hheld).trans (lockSteps_held hstill))))
  · intro id u hin hsound e named low keep gone extra want hnamed hfew
    exact goes_event (exec_lockset eng tag loc s) ((onTag_ready hready).trans
      ((memLockset_sound hin hsound).trans (lockNamed_takes hnamed hfew)))

end Sys2Proof.Machine
end

section
/-! PROOF. The Skippers' memory operations (R199, R201 to R203, R218, R219, R224): what each leaves. -/

namespace Sys2Proof.Machine

open Sys2Proof

/-! ### Reads and writes under a lock -/

theorem memBread_inside {id t b loc : Nat} {s : State} (hin : loc + 128 ≤ 1024) :
    memBread id t b loc s = if (engOf s id).held.contains b then issueRead id t 4 0 (b * 128) 128 loc s
      else finishTag id t stDENIED 0 (noteIssue id 4 s) := by
  simp only [memBread, lsIn_eq_true hin, Bool.not_true, Bool.false_eq_true, if_false]

theorem memXread_inside {id t a loc : Nat} {two : Bool} {s : State} (hin : loc + (if two then 128 else 64) ≤ 1024) :
    let n := if two then 128 else 64
    memXread id t a two loc s = if a % 64 = 0 ∧ extOk s a n = true then issueRead id t 6 1 a n loc s
      else finishTag id t stBADARG 0 (noteIssue id 6 s) := by
  simp only [memXread, lsIn_eq_true hin, Bool.not_true, Bool.false_eq_true, if_false, Bool.and_eq_true, decide_eq_true_eq]

/-- The first buffered line of a routine is kept as it is. -/
theorem bufferLine_first {id t : Nat} {o : MemOp} {w : WLine} {s : State} (hempty : (engOf s id).wbuf = []) :
    bufferLine id t o w s = finishWrite id t { o with lines := [(w.region, w.addr / 64)] }
      (modEng id (fun e => { e with wbuf := e.wbuf ++ [w] }) s) := by
  simp [bufferLine, hempty]

theorem memBwrite_sound {id t b unit loc mask : Nat} {s : State} (hin : loc + 64 ≤ 1024)
    (hsound : lsDamaged (noteIssue id 5 s) id loc 64 = none) :
    let u := noteIssue id 5 s
    memBwrite id t b unit loc mask s = if !(engOf u id).held.contains b then finishTag id t stDENIED 0 u
      else bufferLine id t (newOp s id 5)
        ⟨0, b * 128 + 64 * (unit % 2), BitVec.ofNat 64 mask, lsRead (engOf u id) loc 64, b⟩ u := by
  simp only [memBwrite, withLs_sound hin hsound]

theorem memXwrite_sound {id t a loc mask cover : Nat} {s : State} (hin : loc + 64 ≤ 1024)
    (hsound : lsDamaged (noteIssue id 7 s) id loc 64 = none) :
    let u := noteIssue id 7 s
    memXwrite id t a loc mask cover s = if !(engOf u id).held.contains cover then finishTag id t stDENIED 0 u
      else if a % 64 ≠ 0 || !extOk u a 64 then finishTag id t stBADARG 0 u
      else bufferLine id t (newOp s id 7) ⟨1, a, BitVec.ofNat 64 mask, lsRead (engOf u id) loc 64, cover⟩ u := by
  simp only [memXwrite, withLs_sound hin hsound]

/-! ### Atomics -/

/-- An addition acts at once and can be undone (R203). -/
theorem memAtom_add {id t a operand : Nat} {s : State} (hext : extOk (noteIssue id 8 s) (a / 64 * 64) 64 = true)
    (hroom : (engOf (noteIssue id 8 s) id).undo.length < 4) :
    let u := noteIssue id 8 s
    let line := a / 64 * 64
    let q := plainReq id (.atom 0) 1 line 64
    let r := hbmAtom 0 1 (a / 8 * 8) operand (hbmPresent (4 + id / 16) q u)
    let x : Undo := { isAdd := true, addr := a / 8 * 8, operand := operand }
    memAtom id t 0 a operand s = setOp id t { newOp s id 8 with
      hint := some (skHint id 1 line 64 (.atom 0) u), lines := [(1, line / 64)], out := [q], result := r.1 }
      (modEng id (fun e => { e with undo := e.undo ++ [x] }) r.2) := by
  simp only [memAtom, hext, if_neg (Nat.not_le.2 hroom)]
  rfl

/-- A bit clear waits for the commit. -/
theorem memAtom_clear {id t a operand : Nat} {s : State} (hext : extOk (noteIssue id 8 s) (a / 64 * 64) 64 = true) :
    memAtom id t 2 a operand s = finishWrite id t { newOp s id 8 with lines := [(1, a / 64 * 64 / 64)] }
      (modEng id (fun e => { e with bclr := e.bclr ++ [(a / 64 * 64, operand % 512)] }) (noteIssue id 8 s)) := by
  simp only [memAtom, hext, Bool.not_true, Bool.false_eq_true, if_false, if_true]

/-! ### Packets, balancing, telemetry and time -/

theorem memPlace_sound {id t loc : Nat} {s : State} (hin : loc + 40 ≤ 1024)
    (hsound : lsDamaged (noteIssue id 9 s) id loc 40 = none) :
    let u := noteIssue id 9 s
    memPlace id t loc s = setOp id t { newOp s id 9 with data := [(0, lsRead (engOf u id) loc 40)] } u := by
  simp only [memPlace, withLs_sound hin hsound]

theorem memTelem_sound {id t loc : Nat} {s : State} (hin : loc + 64 ≤ 1024)
    (hsound : lsDamaged (noteIssue id 13 s) id loc 64 = none) :
    let u := noteIssue id 13 s
    let r := lsRead (engOf u id) loc 64
    memTelem id t loc s = finishTag id t stOK 0 (if u.skip.telem.length < 1048576 then
        { u with skip.telem := u.skip.telem ++ [r] }
      else skipCount 15 1 { u with skip.telem := u.skip.telem.drop 1 ++ [r] }) := by
  simp only [memTelem, withLs_sound hin hsound]

/-- The next packet of a held one is answered by its header, and the next call takes the one behind it. -/
theorem memPktNext_some {id t loc : Nat} {s : State} {key : Bytes} {k : Pkt} {a : Answer} (hin : loc + 128 ≤ 1024)
    (hnext : nextHeld (noteIssue id 12 s) id = some (key, k)) (hans : k.ans = some a) :
    memPktNext id t loc s = finishTag id t stOK 0 (modEng id (lsWrite loc (padTo 128 (hdrOf k a.level)))
      (modHold key (fun x => { x with next := x.next + 1 }) (noteIssue id 12 s))) := by
  simp only [memPktNext, lsIn_eq_true hin, hnext, hans, Bool.not_true, Bool.false_eq_true, if_false]

theorem memPktNext_none {id t loc : Nat} {s : State} (hin : loc + 128 ≤ 1024)
    (hnext : nextHeld (noteIssue id 12 s) id = none) :
    memPktNext id t loc s = finishTag id t stNOTFOUND 0 (noteIssue id 12 s) := by
  simp only [memPktNext, lsIn_eq_true hin, hnext, Bool.not_true, Bool.false_eq_true, if_false]

/-- A balancing pick reads two sound words and answers the backend of its bucket (R219). -/
theorem memLbpick_sound {id t q h loc : Nat} {s : State} (hpool : q < 256) (hin : loc + 24 ≤ 1024)
    (hbucket : lbWord (q * 2 ^ 16 + h % 256) (noteIssue id 17 s) = (false, noteIssue id 17 s))
    (hentry : lbWord (q * 2 ^ 16 + 2 ^ 8 + fv (noteIssue id 17 s) 4 0x10 (q * 256 + h % 256) 0 6) (noteIssue id 17 s)
      = (false, noteIssue id 17 s)) :
    let u := noteIssue id 17 s
    let j := h % 256
    let k := fv u 4 0x10 (q * 256 + j) 0 6
    let v := modEng id (lsWrite loc (backendEntry u q k)) u
    memLbpick id t q h loc s = if fv u 4 0x11 (q * 64 + k) 0 1 = 0 then finishTag id t stNOTFOUND 0 u
      else finishTag id t stOK (j * 256 + k)
        { v with skip.pickB := kmod 0 v.skip.pickB (q * 256 + j) (fun n => n + 1),
                 skip.pickK := kmod 0 v.skip.pickK (q * 64 + k) (fun n => n + 1) } := by
  have hargs : ¬ (256 ≤ q || 1024 < loc + 24) = true := by simp; omega
  simp only [memLbpick, if_neg hargs, hbucket, hentry, Bool.false_eq_true, if_false]

/-! ### Completions -/

/-- An operation that the arbiters have answered completes: a place, a fault that gives its locks back, or its data. -/
theorem doMemOpComplete_answered {eng : Fin 512} {tag : Fin 8} {bad : Bool} {s : State} {o : MemOp}
    (hop : (tagOf (engOf s eng.val) tag.val).op = some o) (hwait : o.wait = false) (hout : o.out = [])
    (horder : mustWait (engOf s eng.val) tag.val o = false) (hrun : (engOf s eng.val).st = .running) :
    doMemOpComplete eng tag bad s =
      if o.code = 9 then finishTag eng.val tag.val stOK (placeAnswer s (o.data.headD (0, [])).2) s
      else if o.status = stFAULTED ∨ bad = true ∧ o.data ≠ [] then
        finishTag eng.val tag.val stFAULTED 0 (undoLocks eng.val o.took s)
      else finishTag eng.val tag.val o.status o.result
        (modEng eng.val (fun e => o.data.foldl (fun e d => lsWrite d.1 d.2 e) e) s) := by
  simp [doMemOpComplete, hop, hwait, hout, horder, hrun]

/-- Settles O41: by the lemma on each operation. -/
theorem skipperMemoryCommandsComplete : Obligations.SkipperMemoryCommandsComplete := by
  unfold Obligations.SkipperMemoryCommandsComplete
  refine ⟨fun eng tag bucket loc s hready => ?_, fun eng tag bucket unit loc mask s hready => ?_,
    fun eng tag bucket unit loc mask s hready => ?_, fun eng tag addr two loc s hready => ?_,
    fun eng tag addr loc mask cover s hready => ?_, fun eng tag addr operand s hready => ?_,
    fun eng tag addr operand s hready => ?_, fun eng tag loc s hready => ?_, fun eng tag loc s key k a hready => ?_,
    fun eng tag loc s hready => ?_, fun eng tag pool hash loc s hready => ?_, fun eng tag loc s hready => ?_,
    fun eng tag s hready => ?_, fun eng tag bad s o => ?_, fun eng tag bad s o => ?_, fun eng tag bad s o => ?_⟩
  · intro id b hin
    exact goes_event (exec_bread eng tag bucket loc s) ((onTag_ready hready).trans (memBread_inside hin))
  · intro id u b hin hsound hheld hempty w
    refine goes_event (exec_bwrite eng tag bucket unit loc mask s) ((onTag_ready hready).trans
      ((memBwrite_sound hin hsound).trans ((if_neg (by simpa using hheld)).trans ((bufferLine_first hempty).trans ?_))))
    simp only [Nat.mod_eq_of_lt unit.isLt, BitVec.ofNat_toNat, BitVec.setWidth_eq, w, b, id, u]
  · intro id u hin hsound hnot
    exact goes_event (exec_bwrite eng tag bucket unit loc mask s) ((onTag_ready hready).trans
      ((memBwrite_sound hin hsound).trans (if_pos (by simpa using hnot))))
  · intro id n a hin
    exact goes_event (exec_xread eng tag addr two loc s) ((onTag_ready hready).trans (memXread_inside hin))
  · intro id u a hin hsound hheld haligned hext hempty w
    refine goes_event (exec_xwrite eng tag addr loc mask cover s) ((onTag_ready hready).trans
      ((memXwrite_sound hin hsound).trans ((if_neg (by simpa using hheld)).trans
        ((if_neg (by simpa using ⟨haligned, hext⟩)).trans ((bufferLine_first hempty).trans ?_)))))
    simp only [BitVec.ofNat_toNat, BitVec.setWidth_eq, w, a, id, u]
  · intro id u a line hext hroom q r x
    have hadd := memAtom_add (t := tag.val) (operand := operand.toNat) hext hroom
    refine goes_event (exec_atom eng tag 0 addr operand s) ((onTag_ready hready).trans ?_)
    exact hadd
  · intro id u line hext
    exact goes_event (exec_atom eng tag 2 addr operand s) ((onTag_ready hready).trans (memAtom_clear hext))
  · intro id u hin hsound
    exact goes_event (exec_place eng tag loc s) ((onTag_ready hready).trans (memPlace_sound hin hsound))
  · intro id u hin hnext hans
    exact goes_event (exec_pktNext eng tag loc s) ((onTag_ready hready).trans (memPktNext_some hin hnext hans))
  · intro id u hin hnext
    exact goes_event (exec_pktNext eng tag loc s) ((onTag_ready hready).trans (memPktNext_none hin hnext))
  · intro id u q j k hpool hin hbucket hentry v
    exact goes_event (exec_lbpick eng tag pool hash loc s) ((onTag_ready hready).trans
      (memLbpick_sound hpool hin hbucket hentry))
  · intro id u r hin hsound
    exact goes_event (exec_telem eng tag loc s) ((onTag_ready hready).trans (memTelem_sound hin hsound))
  · intro id v hnext
    exact goes_event (exec_timeread eng tag s) ((if_pos hnext).trans (onTag_ready hready))
  · intro id e hop hwait hout horder hrun hcode hsound hdata
    refine goes_event (exec_memOpComplete eng tag bad s)
      ((doMemOpComplete_answered hop hwait hout horder hrun).trans ((if_neg hcode).trans (if_neg ?_)))
    rintro (hfault | ⟨hbad, hsome⟩)
    · exact hsound hfault
    · exact hsome (hdata hbad)
  · intro id e hop hwait hout horder hrun hcode
    exact goes_event (exec_memOpComplete eng tag bad s)
      ((doMemOpComplete_answered hop hwait hout horder hrun).trans (if_pos hcode))
  · intro id e hop hwait hout horder hrun hcode hfault
    exact goes_event (exec_memOpComplete eng tag bad s)
      ((doMemOpComplete_answered hop hwait hout horder hrun).trans ((if_neg hcode).trans (if_pos hfault)))

end Sys2Proof.Machine
end

section
/-! PROOF. The ends of a routine and the microwords (R206 to R211, R228 to R239): what each leaves. -/

namespace Sys2Proof.Machine

open Sys2Proof

/-! ### The ends of a routine -/

/-- A commit whose buffered lines are sound hands over, or stalls for room (R206). -/
theorem commitTry_sound {id : Nat} {s : State}
    (hsound : ∀ i ∈ List.range (engOf s id).wbuf.length, damageAt s 7 4 (id + i * 2 ^ 9) = none) :
    commitTry id s = if storesRoom s (engOf s id).wbuf = true then handOver id s
      else modEng id (fun e => { e with st := .stalled }) s := by
  have hnone : (List.range (engOf s id).wbuf.length).find? (fun i => (damageAt s 0x07 4 (id + i * 2 ^ 9)).isSome) = none := by
    simp only [List.find?_eq_none]
    intro i hi
    rw [hsound i hi]
    decide
  simp only [commitTry, hnone]

/-- The watchdog takes a routine that has run its limit (R211). -/
theorem poll_overlong {id : Nat} {s : State} (hin : inRoutine (engOf s id) = true) (hkept : (engOf s id).timedOut = false)
    (hage : fv s 4 4 0 16 16 ≤ (engOf s id).age) :
    poll id s = loseEngine id (.quiet 7) (raiseFault fkSK_WATCHDOG id s) := by
  simp [poll, hin, hkept, watchdogDue, hage, watchdogFire]

/-- Settles O42: by the lemmas on a commit and on the watchdog; the other ends by their own case. -/
theorem skipperRoutineCommandsComplete : Obligations.SkipperRoutineCommandsComplete := by
  unfold Obligations.SkipperRoutineCommandsComplete
  refine ⟨fun eng s hrun hsound => ?_, fun eng s hstalled hroom => ?_, fun eng s hrun => ?_,
    fun eng s => goes_event (exec_unpark eng s) rfl, fun eng s hst hkept hage => ?_⟩
  · exact goes_event (exec_commit eng s) ((if_pos (by simp [hrun])).trans (commitTry_sound hsound))
  · exact goes_event (exec_commitHandover eng s) (if_pos (by simp [hstalled, hroom]))
  · exact goes_event (exec_fail eng s) (if_pos (by simp [hrun]))
  · obtain ⟨hrun, hin⟩ : (engOf s eng.val).st ≠ .running ∧ inRoutine (engOf s eng.val) = true := by
      obtain hst | hst | hst := hst <;> simp [inRoutine, hst]
    exact goes_event (exec_skWatchdog eng s) ((if_neg hrun).trans (poll_overlong hin hkept hage))

/-! ### Microwords -/

theorem inRoutine_of_running {e : Engine} (h : e.st = .running) : inRoutine e = true := by
  simp [inRoutine, h]

/-- A running engine whose register file is sound fetches its microword and its nanoword and carries them out (R228). -/
theorem doMicrowordExecute_sound {eng : Fin 512} {gap : U32} {s : State} (hrun : (engOf s eng.val).st = .running) :
    let id := eng.val
    let c := id / 16
    let g := useWord (0x07, 1, 3) (0x07, 2, 2) id (passCycles id gap.toNat s)
    let m := ucFetch c 0 (engOf s id).pc g.2
    let mw := (kget 0 m.2.skip.mw (c * 2 ^ 14 + (engOf s id).pc)).toNat
    let n := ucFetch c 1 (bitsOf mw 19 10) m.2
    let w := (kget 0 n.2.skip.nw (c * 1024 + bitsOf mw 19 10)).toNat
    g.1 = false → m.1 = false → n.1 = false →
    doMicrowordExecute eng gap s =
      if bitsOf mw 19 10 = 0 ∨ nanoReserved w = true then skIllegal id n.2
      else if tagsReady (engOf n.2 id) w = false then poll id n.2 else runWord id mw w n.2 := by
  intro id c g m mw n w hg hm hn
  simp only [g, m, n, mw, id, c] at hg hm hn
  simp only [doMicrowordExecute, inRoutine_of_running hrun, hrun, hg, hm, hn, Bool.not_true, Bool.false_or, Bool.false_eq_true,
    if_false, Bool.or_eq_true, decide_eq_true_eq, Bool.not_eq_true']
  rfl

/-- A microword that cannot be read loses the engine. -/
theorem doMicrowordExecute_unreadable {eng : Fin 512} {gap : U32} {s : State} (hrun : (engOf s eng.val).st = .running) :
    let g := useWord (0x07, 1, 3) (0x07, 2, 2) eng.val (passCycles eng.val gap.toNat s)
    let m := ucFetch (eng.val / 16) 0 (engOf s eng.val).pc g.2
    g.1 = false → m.1 = true → doMicrowordExecute eng gap s = loseEngine eng.val (.quiet 8) m.2 := by
  intro g m hg hm
  simp only [g, m] at hg hm
  simp only [doMicrowordExecute, inRoutine_of_running hrun, hrun, hg, hm, Bool.not_true, Bool.true_or, Bool.false_eq_true,
    if_false, if_true]
  rfl

/-- Settles O43: by the words that the engine fetches; a load and the scrub by their own case. -/
theorem microwordCommandsComplete : Obligations.MicrowordCommandsComplete := by
  unfold Obligations.MicrowordCommandsComplete
  refine ⟨fun eng gap s => ?_, fun eng gap s => ?_, fun eng gap s hparked => ?_, fun cluster s hstopped hidle hgood => ?_,
    fun cluster store word s => goes_event (exec_ucodeScrub cluster store word s) rfl⟩
  · intro id u c hrun g m mw n w hg hm hn
    exact goes_event (exec_microwordExecute eng gap s) (doMicrowordExecute_sound hrun hg hm hn)
  · intro id u hrun g m hg hm
    exact goes_event (exec_microwordExecute eng gap s) (doMicrowordExecute_unreadable hrun hg hm)
  · exact goes_event (exec_microwordExecute eng gap s) (by simp [doMicrowordExecute, inRoutine, hparked])
  · refine goes_event (exec_ucodeReload cluster s) ((if_neg ?_).trans ?_)
    · simpa [hstopped] using hidle
    · simp only [hgood]

end Sys2Proof.Machine
end

section
/-! PROOF. The flow engine (R161, R162, R168 to R182): what each event leaves. -/

namespace Sys2Proof.Machine

open Sys2Proof

/-! ### Lookups -/

/-- A lookup that its slice serves and accepts leaves the slice's queue with what it has done. -/
theorem doFlowLookup_accepted {pk : Nat} {lane : Bool} {s t : State} {sl pipe : Nat} {k : Pkt} {l : Level}
    (hserved : lookupServed s pk = some (sl, pipe)) (hpkt : pktOf s pk = some k) (hlevel : lookupLevel k = some l)
    (haccepts : sliceAccepts s sl = true)
    (hlookup : lookupPkt pk sl (lane && domainOn s (4 + pipeOf k.port)) l k s = some t) :
    doFlowLookup pk lane s = servedOut sl pipe t := by
  simp only [doFlowLookup, hserved, hpkt, hlevel, haccepts, hlookup, Bool.not_true, Bool.false_eq_true, if_false]

/-- A packet whose key has a guard chains behind it (R171). -/
theorem lookupPkt_chained {pk sl : Nat} {lane : Bool} {l : Level} {k : Pkt} {s : State}
    (hguard : s.flow.guards.any (fun g => g.key == pktKey k l) = true) (hroom : waitingOf s (pipeOf k.port) < 4096) :
    let u := putPkt pk { k with stage := .chained } (flowCount sl 0 1 s)
    lookupPkt pk sl lane l k s = some { u with
      flow.guards := u.flow.guards.map (fun g => if g.key = pktKey k l then { g with pkts := g.pkts ++ [pk] } else g) } := by
  intro u
  refine (if_pos hguard).trans (if_neg ?_)
  simpa using hroom

/-- The records near a slice that a lookup compares its key with: the stash and one set of the cache (R168). -/
def nearRecs (sl : Nat) (key : Bytes) (s : State) : List (Nat × Bytes) :=
  stashRecs s sl ++ (setRecs s sl (keySet s key)).map (fun e => (e.1, e.2.bytes))

/-- A key without a guard is compared with the records near its slice. -/
theorem lookupPkt_near {pk sl : Nat} {lane : Bool} {l : Level} {k : Pkt} {s : State}
    (hguard : s.flow.guards.any (fun g => g.key == pktKey k l) = false) :
    let t := touchWords sl (pktKey k l) (flowCount sl 0 1 s)
    t.1 = false → ∀ found, findKey (pktKey k l) (nearRecs sl (pktKey k l) t.2) = found →
      (∀ h r, found = some (h, r) →
        lookupPkt pk sl lane l k s = some (hitPkt pk h 1 sl (pktKey k l) lane l k (flowCount sl 1 1 t.2)))
      ∧ (found = none → waitingOf s (pipeOf k.port) < 4096 →
        lookupPkt pk sl lane l k s = some (openGuard pk sl (pktKey k l) k t.2)) := by
  intro t hsound found hfind
  rw [nearRecs] at hfind
  have hnew : ¬ (flowCount sl 0 1 s).flow.guards.any (fun g => g.key == pktKey k l) = true := Bool.eq_false_iff.1 hguard
  constructor
  · rintro h r rfl
    simp only [t] at hsound hfind
    simp only [lookupPkt, if_neg hnew, hsound, hfind, Bool.false_eq_true, if_false]
    rfl
  · rintro rfl hroom
    simp only [t] at hsound hfind
    simp only [lookupPkt, if_neg hnew, hsound, hfind, Bool.false_eq_true, if_false, decide_eq_true_eq,
      if_neg (Nat.not_le.2 hroom)]
    rfl

/-! ### The bucket's return -/

/-- What the checks of a returned bucket lead to: a unit that cannot be read refuses the guard's packets, else its leader is
served first and the others behind it (R171). -/
def guardServed (g : Guard) (lane : Bool) (x : Option Nat × Bool × State) : State :=
  match x with
  | (some unit, _, s) =>
    g.pkts.foldl (fun s pk => match pktOf s pk with
      | some k => sliceDrop pk g.slice ((lookupLevel k).getD levelReset) k s
      | none => s) (refuseUnit (mkHandle g.bucket unit)
        (raiseFault fkREC_CRC (mkHandle g.bucket unit) (flowCount g.slice 12 g.pkts.length s)))
  | (none, inst, s) =>
    g.pkts.tail.foldl (fun s h => serveMiss h g.slice inst false lane s)
      ((g.pkts.head?.map (fun h => serveMiss h g.slice inst true lane s)).getD s)

/-- A guard is served from the bucket that its lookup has read, and from the one its key belongs to now. -/
theorem serveGuard_eq {g : Guard} {bad : BitVec 2} {lane : Bool} {s : State} :
    let u := { s with flow.guards := s.flow.guards.filter (fun x => x.key != g.key) }
    let serve := fun s => guardServed g lane (bucketChecks g.bucket g.key bad s)
    doFlowBucketReturn.serveGuard g bad lane s =
      if chosenBucket u g.key = g.bucket then sliceWritten g.slice true g.bucket serve u
      else sliceWritten g.slice false (chosenBucket u g.key) (sliceWritten g.slice true g.bucket serve) u := by
  obtain ⟨slice, key, bucket, pkts, back⟩ := g
  cases pkts with
  | nil => rfl
  | cons h rest => rfl

/-! ### Background work -/

/-- The cleaner writes one record of its first set that still needs it, and leaves the set once it has enough (R175). -/
theorem doCacheCleanerWriteback_set {sl : Fin 4} {s : State} {set : Nat} {rest : List Nat} {h : Nat}
    (hfirst : (sliceOf s sl.val).cleanList.dropWhile (fun set => decide (fv s 3 6 sl.val 0 4 ≤ cleanWays s sl.val set))
      = set :: rest)
    (hflows : (kget [] s.hbm.stalled sl.val).isEmpty = true)
    (hpick : cleanPick (modSlice sl.val (fun k => { k with cleanList := set :: rest }) s) sl.val set = some h) :
    let v := cleanOne sl.val h (modSlice sl.val (fun k => { k with cleanList := set :: rest }) s)
    doCacheCleanerWriteback sl s = if fv v 3 6 sl.val 0 4 ≤ cleanWays v sl.val set then
      modSlice sl.val (fun k => { k with cleanList := rest }) v else v := by
  have hready : ¬ (!(kget [] (modSlice sl.val (fun k => { k with cleanList := set :: rest }) s).hbm.stalled sl.val).isEmpty)
      = true := by
    simpa using hflows
  simp only [doCacheCleanerWriteback, hfirst, if_neg hready, hpick, decide_eq_true_eq]

/-- A free bucket goes to the first routine that waits for it (R182). -/
theorem doLockGrant_waiter {bucket : BitVec 28} {cycles : U32} {s : State} {w : Waiter} {o : MemOp}
    (hwaits : (sliceOf s (bucketSlice s bucket.toNat)).waits.find? (fun w => w.bucket == bucket.toNat) = some w)
    (hfree : lockHolder s bucket.toNat = none) (hroom : (sliceOf s (bucketSlice s bucket.toNat)).locks.length < 4096) :
    let b := bucket.toNat
    let sl := bucketSlice s b
    let u := perfEvent 0x0302 5 w.engine b 0 cycles.toNat
      (wake w.engine (modSlice sl (fun k => { k with waits := k.waits.filter (fun x => x != w) }) s))
    (tagOf (engOf u w.engine) w.tag).op = some o →
    doLockGrant bucket cycles s = lockSteps w.engine w.tag o.locks
      { o with wait := false, took := if o.before.contains b = true then o.took else b :: o.took }
      (modEng w.engine (fun e => { e with held := e.held ++ [b], heldOnce := true }) (putLock b w.engine u)) := by
  intro b sl u hop
  simp only [u, sl, b] at hop
  have hgrant : ¬ ((!(none == some w.engine)) && ((none : Option Nat).isSome
      || decide (4096 ≤ (sliceOf s (bucketSlice s bucket.toNat)).locks.length))) = true := by
    simpa using hroom
  simp only [doLockGrant, hwaits, hfree, if_neg hgrant, hop]
  rfl

/-- Settles O33: by the lemmas on lookups, the bucket's return, the cleaner and the lock table. -/
theorem flowEventsComplete : Obligations.FlowEventsComplete := by
  unfold Obligations.FlowEventsComplete
  refine ⟨fun pk lane s sl pipe k l hserved hpkt hlevel haccepts => ?_,
    fun pk lane s sl pipe k l h r hserved hpkt hlevel haccepts => ?_,
    fun pk lane s sl pipe k l hserved hpkt hlevel haccepts => ?_, fun pk bad lane s g faulted hfind hback => ?_,
    fun sl s hnone => ?_, fun sl s set rest h hfirst => ?_, fun sl s hmove hused hawake hon => ?_,
    fun sl s hready hawake hon => ?_, fun sl s p up rest hfirst => ?_, fun bucket cycles s w o => ?_,
    fun eng tag cycles s w => ?_⟩
  · intro key hguard hroom u
    exact goes_event (exec_flowLookup pk lane s)
      (doFlowLookup_accepted hserved hpkt hlevel haccepts (lookupPkt_chained hguard hroom))
  · intro key hguard t hsound hfind
    exact goes_event (exec_flowLookup pk lane s)
      (doFlowLookup_accepted hserved hpkt hlevel haccepts ((lookupPkt_near hguard hsound _ hfind).1 h r rfl))
  · intro key hguard hroom t hsound hfind
    exact goes_event (exec_flowLookup pk lane s)
      (doFlowLookup_accepted hserved hpkt hlevel haccepts ((lookupPkt_near hguard hsound _ hfind).2 rfl hroom))
  · refine goes_event (exec_flowBucketReturn pk bad lane s) ?_
    simp only [doFlowBucketReturn, hfind, hback]
    exact congrArg stage6Resumes serveGuard_eq
  · refine goes_event (exec_cacheCleanerWriteback sl s) ?_
    simp only [doCacheCleanerWriteback, hnone]
  · intro u hflows hpick v
    exact goes_event (exec_cacheCleanerWriteback sl s) (doCacheCleanerWriteback_set hfirst hflows hpick)
  · exact goes_event (exec_moverAttempt sl s) (if_neg (by simp [hmove, hused, hawake, hon]))
  · exact goes_event (exec_ageScan sl s) (if_neg (by simp [hready, hawake, hon]))
  · refine goes_event (exec_exiledUpdate sl s) ?_
    simp only [doExiledUpdate, hfirst]
  · intro b sl hwaits hfree hroom u hop
    exact goes_event (exec_lockGrant bucket cycles s) (doLockGrant_waiter hwaits hfree hroom hop)
  · dsimp only
    intro hfind
    refine goes_event (exec_lockTimeout eng tag cycles s) ?_
    simp only [doLockTimeout, hfind]

end Sys2Proof.Machine
end

section
/-! PROOF. The Fix timeline (R37, R40, R57, R59, R80): what each event leaves. -/

namespace Sys2Proof.Machine

open Sys2Proof

/-! ### The sample's close -/

/-- Counting the inputs of a sample changes counters only. -/
theorem answerOnly_countInputs (rs : List Resolved) (s : State) : AnswerOnly s (countInputs rs s) := by
  refine answerOnly_foldl _ (fun s r => ?_) rs s
  dsimp only
  cases r.verdict with
  | superseded k => exact (answerOnly_perf _ _ _ _ _ _ s).trans (answerOnly_perf _ _ _ _ _ _ _)
  | accepted => exact answerOnly_perf _ _ _ _ _ _ s
  | refused st => exact answerOnly_perf _ _ _ _ _ _ s

theorem AnswerOnly.closed {s t : State} (h : AnswerOnly s t) : t.ctl.closed = s.ctl.closed := by
  unfold AnswerOnly at h
  rw [h]

theorem AnswerOnly.claimed {s t : State} (h : AnswerOnly s t) : t.ctl.claimed = s.ctl.claimed := by
  unfold AnswerOnly at h
  rw [h]

theorem AnswerOnly.multi {s t : State} (h : AnswerOnly s t) : t.ctl.multi = s.ctl.multi := by
  unfold AnswerOnly at h
  rw [h]

/-- A sample that closes is closed, and its accepted claims are apart. -/
theorem closeSample_closed_apart (s : State) : (closeSample s).ctl.closed = true ∧ Apart (closeSample s).ctl.claimed := by
  by_cases hready : s.ctl.ready = true
  · have hclose : ¬ (!s.ctl.ready) = true := by simp [hready]
    simp only [closeSample, if_neg hclose]
    constructor
    · exact (answerOnly_countInputs _ _).closed
    · rw [(answerOnly_countInputs _ _).claimed]
      exact apart_foldl_resolveOne none _ _ List.Pairwise.nil
  · have hclose : (!s.ctl.ready) = true := by simpa using hready
    simp only [closeSample, if_pos hclose]
    exact ⟨trivial, List.Pairwise.nil⟩

/-! ### Leases that end -/

/-- The leases of a list end, in its order. -/
def expireAll (ls : List Lease) (s : State) : State := ls.foldl (fun s l => expireLease l s) s

theorem expireAll_frame (ls : List Lease) (s : State) :
    let t := expireAll ls s
    t = { s with ctl.leases := t.ctl.leases, ctl.staging := t.ctl.staging, lod.wire := t.lod.wire } := by
  induction ls generalizing s with
  | nil => rfl
  | cons l ls ih => exact (ih (expireLease l s)).trans rfl

theorem mem_leases_expireAll (ls : List Lease) (s : State) (l : Lease) :
    l ∈ (expireAll ls s).ctl.leases ↔ l ∈ s.ctl.leases ∧ ∀ x ∈ ls, ¬(l.owner = x.owner ∧ l.group = x.group) := by
  induction ls generalizing s with
  | nil => simp [expireAll]
  | cons x ls ih =>
    have hmem : l ∈ (expireLease x s).ctl.leases ↔ l ∈ s.ctl.leases ∧ ¬(l.owner = x.owner ∧ l.group = x.group) := by
      simp [expireLease, endLease, raiseFault, raiseScoped, imp_iff_not_or]
    exact (ih (expireLease x s)).trans (by rw [hmem, List.forall_mem_cons, and_assoc])

theorem mem_staging_expireAll (ls : List Lease) (s : State) (e : Staged) :
    e ∈ (expireAll ls s).ctl.staging ↔
      e ∈ s.ctl.staging ∧ ∀ x ∈ ls, ¬(e.owner = x.owner ∧ e.lease = some x.group) := by
  induction ls generalizing s with
  | nil => simp [expireAll]
  | cons x ls ih =>
    have hmem : e ∈ (expireLease x s).ctl.staging ↔ e ∈ s.ctl.staging ∧ ¬(e.owner = x.owner ∧ e.lease = some x.group) := by
      simp [expireLease, endLease, raiseFault, raiseScoped, imp_iff_not_or]
    exact (ih (expireLease x s)).trans (by rw [hmem, List.forall_mem_cons, and_assoc])

theorem expireAll_wire (ls : List Lease) (s : State) :
    (expireAll ls s).lod.wire = s.lod.wire ++ ls.map (fun x => mkFault fkLEASE_EXPIRED x.group [] []) := by
  induction ls generalizing s with
  | nil => simp [expireAll]
  | cons x ls ih =>
    have hwire : (expireLease x s).lod.wire = s.lod.wire ++ [mkFault fkLEASE_EXPIRED x.group [] []] := rfl
    exact (ih (expireLease x s)).trans (by rw [hwire, List.map_cons, List.append_assoc, List.singleton_append])

/-! ### Commands that run out of time -/

theorem poolRiseCheck_ctl (pool : Nat) (s : State) : (poolRiseCheck pool s).ctl = s.ctl := by
  unfold poolRiseCheck
  split <;> rfl

theorem poolRelease_ctl (ref : Nat) (s : State) : (poolRelease ref s).ctl = s.ctl := by
  unfold poolRelease
  split
  · rfl
  · exact poolRiseCheck_ctl (refPool ref) _

theorem freePayload_ctl (bufs : List Nat) (s : State) : (freePayload bufs s).ctl = s.ctl := by
  induction bufs generalizing s with
  | nil => rfl
  | cons r bufs ih => exact (ih (poolRelease r s)).trans (poolRelease_ctl r s)

/-- A command under way that ends leaves its slot. -/
theorem endMulti_multi (m : Multi) (o : CmdOut) (fix : FixNo) (s : State) :
    (endMulti m o fix s).ctl.multi = s.ctl.multi.filter (fun x => x.slot != m.slot) := by
  have hrun : (if m.code = 0x0502 then detachRun m.slot s else s).ctl = s.ctl := by split <;> rfl
  calc (endMulti m o fix s).ctl.multi
    _ = (freePayload m.bufs _).ctl.multi := (answerOnly_complete m.code m.p o fix _).multi
    _ = (if m.code = 0x0502 then detachRun m.slot s else s).ctl.multi.filter (fun x => x.slot != m.slot) :=
      congrArg (fun c => c.multi) (freePayload_ctl m.bufs _)
    _ = s.ctl.multi.filter (fun x => x.slot != m.slot) := by rw [hrun]

theorem foldl_endMulti_multi (late : List Multi) (o : Multi → CmdOut) (s : State) :
    (late.foldl (fun s m => endMulti m (o m) m.lastFix s) s).ctl.multi =
      s.ctl.multi.filter (fun m => !late.any (fun x => x.slot == m.slot)) := by
  induction late generalizing s with
  | nil => simp
  | cons m late ih =>
    refine (ih _).trans ?_
    rw [endMulti_multi, List.filter_filter]
    refine List.filter_congr fun x _ => ?_
    rw [List.any_cons, Bool.not_or, Bool.and_comm, bne, BEq.comm]

/-! ### The boundary -/

/-- The boundary ends where a chip reset has won. -/
theorem doFixBoundary_running {env : BoundaryEnv} {s : State} (hrst : s.boot.sysRst = true) :
    let u := flrStep (if s.ctl.closed = true then s else closeSample s)
    let v := boundarySwitch env u
    doFixBoundary env s = if u.ctl.ready = true ∧ v.ctl.ready = false then v else boundaryRest env v := by
  simp only [doFixBoundary, hrst, Bool.not_true, Bool.false_eq_true, if_false, Bool.and_eq_true, Bool.not_eq_true']

/-- Settles O24: by the lemmas on a sample's close, on leases that end and on commands that run out of time. -/
theorem timelineEventsComplete : Obligations.TimelineEventsComplete := by
  unfold Obligations.TimelineEventsComplete
  refine ⟨fun env s hrst => ?_, fun s hrst hopen => ?_, fun s => ?_, fun s => ?_, fun s hstage hrst hdone => ?_,
    fun s => goes_event (exec_binnacleRestartDone s) rfl⟩
  · exact goes_event (exec_fixBoundary env s) (doFixBoundary_running hrst)
  · intro t
    obtain ⟨hclosed, hapart⟩ := closeSample_closed_apart (atNs 896 s)
    exact ⟨goes_event (exec_sampleClose s) (if_neg (by simp [hrst, hopen])), hclosed, hapart⟩
  · intro b late
    exact ⟨expireAll late s, goes_event (exec_leaseExpired s) rfl, expireAll_frame late s, mem_leases_expireAll late s,
      mem_staging_expireAll late s, expireAll_wire late s⟩
  · intro late t
    exact ⟨goes_event (exec_multiFixTimeout s) rfl, (answerOnly_flush _).multi.trans (foldl_endMulti_multi late _ s)⟩
  · exact goes_event (exec_binnacleReady s) (if_pos (by simp [starting, hrst, hstage, hdone]))

end Sys2Proof.Machine
end
